-- ==== Sys2Proof/Word.lean ====
section
/-!
DEFINITION. The plain data types every other file speaks in: bytes, lists of bytes, and the sparse
canonical map in which the model keeps memories, register files and per-unit records.
-/
namespace Sys2Proof

/-- One byte. -/
abbrev Byte := BitVec 8

/-- Bytes at rising addresses, the first at the lowest. -/
abbrev Bytes := List Byte

/-- The contents of one register, its bit 0 the register's bit 0.  The widest register that the
register file holds has 512 bits (ONYX_KEY_SLOT, chapter 19); a narrower one uses the low bits. -/
abbrev RegVal := BitVec 512

/-- A map from natural numbers held as a list of key and value pairs: keys strictly rising, no value
equal to what an unlisted key reads as (`SMap.wf` in Machine/Ops.lean). -/
abbrev SMap (α : Type) := List (Nat × α)

end Sys2Proof
end

