-- ==== Sys2Proof/Syntax.lean ====
section
/-!
DEFINITION. The commands that the FN2 takes.  The table of operations and events gives no operand
encoding, so the operands here are those that each row's rule names: which unit the command
concerns, and what arrives from outside with it.  Cores are named by physical number `p` where the
rule works on a core window, clusters by `k`, slices by `s`, ports by `c`, interfaces by `i`.
-/
namespace Sys2Proof

/-- Where an access arrives: the BARs of the two functions (R455, R457), the Resizable BAR control of
BAR4 (R426), and, as the model's own input, host memory itself: what software stores there for the
FN2 to read (log entry 6). -/
inductive Bar where
  | pf0Bar0 | pf0Bar2 | pf0Bar4 | pf1Bar0
  /-- PF0 BAR2 on a selective IDE stream with the T bit set (R366). -/
  | pf0Bar2Ide (stream : Nat)
  /-- The size of BAR4, a power of two written as its exponent (R32, R429). -/
  | pf0Bar4Size
  /-- Host memory under a PASID, or without one. -/
  | hostMemory (pasid : Option Nat)
  /-- The register space of a cluster's Lantern (R318), and device memory as that Lantern accesses it (R275). -/
  | lantern (k : Nat)
  | lanternMemory (k : Nat)
deriving DecidableEq, Repr

/-- What the check of a stored line finds (R185, R193): such errors arise in the memories, and the
command that names the line brings them. -/
inductive LineCheck where
  | clean | correctable | uncorrectable
deriving DecidableEq, Repr

/-- The forms of a manager write to SYNC_OBJ that R83 tells apart. -/
inductive ObjWrite where
  /-- A 32-bit write of bits [31:0]. -/
  | low32
  /-- A 32-bit write of bits [63:32]. -/
  | high32
  /-- A 64-bit write of the word at offset 0x0. -/
  | word64
  /-- A write to the read-only word at offset 0x8. -/
  | word8
deriving DecidableEq, Repr

/-- The fault kinds of R128. -/
inductive GarFault where
  | parity | residue | poisonIn
deriving DecidableEq, Repr

/-- The responses of R349 to a page request. -/
inductive PriCode where
  | success | responseFailure | invalidRequest
deriving DecidableEq, Repr

/-- The translation completions of R349. -/
inductive AtsResult where
  | translated | refused | unsupportedRequest
deriving DecidableEq, Repr

/-- A twin's heartbeat (R414). -/
structure Heartbeat where
  tick : Nat
  gen : Nat
  digest : Nat
  /-- Cells that are STARTING or ACTIVE on the twin. -/
  cells : List Nat
  /-- Those of them that are ACTIVE (R418 asks it of the heartbeat). -/
  active : List Nat
deriving DecidableEq, Repr

/-- A part of a transfer that lands through a grant (R411): the source member and its queue, the grant, the offset in
the grant window, the data, the poison bit of each line, and whether these are the last bytes of the transfer. -/
structure Landing where
  member : Nat
  /-- The queue of the sender, which tells the transfers of a member apart (DESIGN CHOICE, log entry 190). -/
  queue : Nat
  grant : Nat
  dstOff : Nat
  data : Bytes
  /-- The poison bit of each 64-byte line (R404). -/
  poison : List Bool
  last : Bool
deriving DecidableEq, Repr

/-- What a twin sends for its mirror (R415). -/
inductive MirrorItem where
  | cutImage (image : Bytes)
  | cellConfig (cell : Nat) (config : Bytes)
  | cellStop (cell : Nat) (tick : Nat)
deriving DecidableEq, Repr

/-- The outcome of one Vigil test or full pass (R396 to R399), with the conditions that R398 records:
they are what the monitors showed when the named test started. -/
structure VigilRun where
  unit : Nat
  test : Nat
  /-- The run was the last test of a full pass of the unit. -/
  fullPass : Bool
  /-- The run serves the pending request of R399. -/
  targeted : Bool
  failed : Bool
  rerunFailed : Bool
  loadClass : Nat
  temp : Int
  volt : Nat
  ring : Nat
  power : Nat
  detail : Nat
  /-- In a vault: the bank in which a failure lies, as pseudo-channel * 16 + bank, and its row where it lies in one,
  else in the bank's logic (R188). -/
  located : Option (Nat × Option Nat)
deriving DecidableEq, Repr, Inhabited

/-- A line move of Beryl (R256): the context slot, and what the checks of the lines or words read find (R193, R235), the
first first. -/
structure BerylMove where
  slot : Nat
  found : List LineCheck
deriving DecidableEq, Repr

/-- An uplink entry of a plan (R276, R277): the frame and the slot of the plan, and the entry's place in it. -/
structure UplinkEntry where
  frame : Nat
  slot : Nat
  index : Nat
deriving DecidableEq, Repr

/-- The supply rails of R466. -/
inductive Rail where
  | vddAux | vdd1v8 | vddPll | vddIo | vppDram | vddDram | vddSram | vddCore | vddaSerdes | vddSerdes
deriving DecidableEq, Repr

/-- SPDM requests that the profile of R444 answers, by the capability that each uses, and the
requests that the profile does not support. -/
inductive SpdmRequest where
  | getVersion | getCapabilities | negotiateAlgorithms | getDigests | getCertificate | challenge
  | keyExchange | finish | heartbeat | keyUpdate | endSession | chunk | unsupported
deriving DecidableEq, Repr

/-- Sideband messages (R452). -/
inductive MctpRequest where
  | control | pldmTemperature (die : Nat) | pldmPower | pldmBootState | pldmHealth | spdm (request : SpdmRequest)
deriving DecidableEq, Repr

/-- The boundary-scan instructions of R453. -/
inductive JtagInstr where
  | bypass | idcode | samplePreload | extest | clamp | highz
deriving DecidableEq, Repr

/-- The commands of the block: one constructor for each row of the table of operations and events
(spec/opcode_table.json).  Each docstring gives the row's mnemonic, its rule and what it does. -/
inductive Instr where
  /-- REGISTER_WRITE (R5). A write to a register that has no row of its own sets its RW fields, clears W1C bits and
  sets W1S bits. -/
  | registerWrite (req : Nat) (bar : Bar) (offset : Nat) (size : Nat) (value : Nat)
  /-- RC_READ (R5). A read of an RC field returns its value and then clears it; an event in the same cycle appears in
  the next read. -/
  | rcRead (req : Nat) (bar : Bar) (offset : Nat) (size : Nat)
  /-- BAD_ACCESS (R8). An access of the wrong size or alignment, or to a reserved address, reads zero, discards the
  write and increments DEV_BAD_ACCESS. -/
  | badAccess (req : Nat) (bar : Bar) (offset : Nat) (size : Nat) (write : Bool)
  /-- LOW_HALF_READ (R9). A 32-bit read of the low half of a 64-bit register latches the high half for the next
  high-half read of the same requester. -/
  | lowHalfRead (req : Nat) (bar : Bar) (offset : Nat)
  /-- LOW_HALF_WRITE (R9). A 32-bit write of the low half of a 64-bit register is held until the requester's next
  high-half write. -/
  | lowHalfWrite (req : Nat) (bar : Bar) (offset : Nat) (value : Nat)
  /-- HIGH_HALF_WRITE (R9). A 32-bit write of the high half applies together with any held low half, or writes the
  high half alone. -/
  | highHalfWrite (req : Nat) (bar : Bar) (offset : Nat) (value : Nat)
  /-- TICK_BOUNDARY (R38). At each tick boundary the FN2 installs map changes, applies due cut images, applies limit
  writes, makes the rental choice and begins offset-0 radio leases. -/
  | tickBoundary
  /-- GAR_MAX_INSTR_TIME_WRITE (R47). A write to limit_cycles is held until the next tick boundary; a write of 0 is
  ignored. -/
  | garMaxInstrTimeWrite (p : Nat) (value : Nat)
  /-- RADIO_WINDOW_START (R41). At the start of a radio window with a radio context in slot 0, a radio lease begins
  and every engine is asked to yield. -/
  | radioWindowStart (p : Nat)
  /-- ENGINE_YIELD (R46). An engine yields once it holds no rental work in progress, and its radio work may begin. -/
  | engineYield (p : Nat) (engine : Nat) (cycle : Nat)
  /-- YIELD_OVERRUN (R49). At cycle 1,740 an unyielded Garnet instruction and its drain are aborted, the bank
  poisoned, the command flagged ERR_OVERRUN and CORE_TICK_OVERRUN incremented. -/
  | yieldOverrun (p : Nat)
  /-- RADIO_WINDOW_END (R44). The radio window ends; with radio work pending, the radio context is preempted and the
  spill is counted and signalled. -/
  | radioWindowEnd (p : Nat)
  /-- CUT_LOAD (R65). A write of load = 1 fetches the cut image into an internal buffer and starts checking. -/
  | cutLoad (len : Nat)
  /-- CUT_CANCEL (R69). A write of cancel = 1 stops a check or discards a staged image. -/
  | cutCancel
  /-- CUT_CHECK_END (R66). Checking ends; the image is staged with its apply tick or rejected with a result. -/
  | cutCheckEnd
  /-- DESCRIPTOR_SUBMIT (R95). A 64-byte write to a submission slot is accepted when a credit is available and
  decrements available. -/
  | descriptorSubmit (portal : Nat) (slot : Nat) (desc : Bytes) (via : (Option Nat))
  /-- SUBMISSION_WINDOW_BAD_WRITE (R96). Any other write to the submission window is discarded and counted in
  bad_write. -/
  | submissionWindowBadWrite (portal : Nat)
  /-- COMMAND_FETCH (R76). Commands of a context's lists are fetched in order into the queue of their engine, stopping
  while that queue is full. -/
  | commandFetch (p : Nat) (slot : Nat)
  /-- SIGNAL_ARRIVE (R83). A signal or BARRIER add is applied at the object's home and every pending wait is
  evaluated. -/
  | signalArrive (idx : Nat)
  /-- WAIT_TIMEOUT (R84). A wait held past wait_limit_ms fails with ERR_TIMEOUT and sets broken on the object it would
  have signalled. -/
  | waitTimeout (p : Nat) (slot : Nat) (engine : Nat)
  /-- COMMAND_COMPLETE (R80). A command completes once its work, writes and digests are done, and its signal is then
  applied. -/
  | commandComplete (p : Nat) (slot : Nat) (engine : Nat)
  /-- CREDIT_MIRROR_WRITE (R97). When the 250 ns window closes, PORTAL_CREDITS is written to the mirror address. -/
  | creditMirrorWrite (portal : Nat)
  /-- SLC_MSG_WRITE (R98). A write to a message store entry; clearing the mask sends a pending message once. -/
  | slcMsgWrite (s : Nat) (m : Nat) (word : Nat) (value : Nat)
  /-- SYNC_OBJ_WRITE (R83). A manager write of an object is one operation; an owner change first fails waits that no
  longer qualify. -/
  | syncObjWrite (n : Nat) (form : ObjWrite) (value : Nat)
  /-- SYNC_CTL_WRITE (R84). A write of wait_limit_ms remeasures every pending wait against the new limit. -/
  | syncCtlWrite (value : Nat)
  /-- NOP (R86). Control NOP does nothing beyond its header wait and signal. -/
  | nop (p : Nat) (slot : Nat)
  /-- SIGNAL (R86). At completion applies the header signal and then its two signal entries. -/
  | signal (p : Nat) (slot : Nat)
  /-- WAIT (R86). Waits until every enabled entry condition has latched. -/
  | wait (p : Nat) (slot : Nat)
  /-- YIELD_POINT (R87). Gives up the core to another runnable rental context, or with tick_align holds until the next
  boundary. -/
  | yieldPoint (p : Nat) (slot : Nat)
  /-- HAND_BACK (R50). Ends the radio lease of the current tick once earlier radio commands have completed. -/
  | handBack (p : Nat) (slot : Nat)
  /-- BARRIER (R88). Adds 1 to the object and waits until it reaches the target; group barriers go to the root. -/
  | barrier (p : Nat) (slot : Nat)
  /-- DIGEST_MARK (R86). Appends a mark record to the context's digest log. -/
  | digestMark (p : Nat) (slot : Nat)
  /-- STEP_TRIGGER (R231). A privileged slice queues a fixed batch at its partition's Lamplighter. -/
  | stepTrigger (p : Nat) (slot : Nat)
  /-- TIMESTAMP (R86). Writes device time to a device address when it starts. -/
  | timestamp (p : Nat) (slot : Nat)
  /-- INTERRUPT (R86). Sends a portal message or a PF1 MSI-X vector. -/
  | interrupt (p : Nat) (slot : Nat)
  /-- HOST_WRITE (R86). Writes an 8-byte value to host memory after the context's earlier host writes. -/
  | hostWrite (p : Nat) (slot : Nat)
  /-- GMM (R115). Issues a matrix multiply-accumulate of k elements into one bank, optionally requesting a drain. -/
  | gmm (p : Nat) (slot : Nat)
  /-- GDRAIN (R120). Drains one bank to the scratchpad with conversion when the bank and port allow. -/
  | gdrain (p : Nat) (slot : Nat)
  /-- GPRELOAD (R112). Loads one bank from the scratchpad. -/
  | gpreload (p : Nat) (slot : Nat)
  /-- GDCFG (R111). Sets one of the context's eight drain slots. -/
  | gdcfg (p : Nat) (slot : Nat)
  /-- GMODE (R113). Selects full- or half-array mode and frees the context's banks. -/
  | gmode (p : Nat) (slot : Nat)
  /-- GMM_LAST_WAVEFRONT (R119). The last wavefront leaves the array; the bank becomes LOADED, DRAINING or PENDING. -/
  | gmmLastWavefront (p : Nat) (half : Nat)
  /-- DRAIN_START (R120). A PENDING drain starts when its port lanes become free. -/
  | drainStart (p : Nat) (half : Nat)
  /-- DRAIN_END (R122). A drain ends after 64 cycles and the bank becomes FREE. -/
  | drainEnd (p : Nat) (half : Nat)
  /-- PRELOAD_END (R119). A preload ends and the bank becomes LOADED. -/
  | preloadEnd (p : Nat) (half : Nat)
  /-- GARNET_FAULT (R128). A lane parity, cell residue or poisoned operand fault poisons the target bank of its half. -/
  | garnetFault (p : Nat) (half : Nat) (kind : GarFault)
  /-- OCOPY (R163). Copies, converts, broadcasts or transposes a tensor. -/
  | ocopy (p : Nat) (slot : Nat)
  /-- OGATHER (R168). Gathers slices or elements through an index tensor. -/
  | ogather (p : Nat) (slot : Nat)
  /-- OSCATTER (R168). Scatters slices or elements through an index tensor. -/
  | oscatter (p : Nat) (slot : Nat)
  /-- OSCATTER_ADD (R172). Adds source elements into destination elements, ordered by ordinal in steady mode. -/
  | oscatterAdd (p : Nat) (slot : Nat)
  /-- OFILL (R163). Fills a destination tensor with a pattern. -/
  | ofill (p : Nat) (slot : Nat)
  /-- OPARITY_ENC (R176). Computes the P and Q parity shards. -/
  | oparityEnc (p : Nat) (slot : Nat)
  /-- OPARITY_REBUILD (R176). Rebuilds up to two lost shards. -/
  | oparityRebuild (p : Nat) (slot : Nat)
  /-- ODIGEST (R178). Computes the CRC-64 of a tensor and writes it to a device address. -/
  | odigest (p : Nat) (slot : Nat)
  /-- OPAL_TRANSACTION_DONE (R161). A transaction's data returns or its write is acknowledged and its slot frees. -/
  | opalTransactionDone (p : Nat) (slot : Nat)
  /-- ORDERED_ADD_ARRIVE (R173). An ordered add reaches its home and is applied, held in the ordered-add table or
  refused. -/
  | orderedAddArrive (idx : Nat)
  /-- ORDERED_ADD_RETRY (R173). A refused early add is retried after 32 cycles. -/
  | orderedAddRetry (idx : Nat)
  /-- ORDERED_ADD_TIMEOUT (R173). A line whose turn does not advance within the wait limit has its adds applied and is
  written poisoned. -/
  | orderedAddTimeout (line : Nat)
  /-- VAULT_LINE_READ (R185). A vault line is read, corrected and written back, or delivered poisoned. -/
  | vaultLineRead (addr : Nat) (found : LineCheck)
  /-- VAULT_LINE_WRITE (R186). A vault line is written whole or merged partially, with poison handling. -/
  | vaultLineWrite (addr : Nat) (data : Bytes) (poison : Bool) (found : LineCheck)
  /-- VAULT_SCRUB (R187). A scrub read corrects or poisons a vault line in idle cycles. -/
  | vaultScrub (p : Nat) (line : Nat) (found : LineCheck)
  /-- ROW_COPY_END (R190). A row copy ends and the row is redirected. -/
  | rowCopyEnd (p : Nat)
  /-- BANK_COPY_END (R188). A bank copy ends and the bank is redirected. -/
  | bankCopyEnd (p : Nat)
  /-- SPM_SCRUB (R193). A scratchpad scrub read corrects single-bit errors and poisons multi-bit errors. -/
  | spmScrub (addr : Nat) (found : LineCheck)
  /-- GRANULE_CLAIM_DEFERRED (R194). A held command claims its granules in one cycle once all are free or its own. -/
  | granuleClaimDeferred (p : Nat) (slot : Nat) (engine : Nat)
  /-- REMOTE_SPM_REQUEST (R195). A request from another core to a granule is permitted or fails with ERR_PERM. -/
  | remoteSpmRequest (p : Nat) (slot : Nat) (addr : Nat)
  /-- GRANULE_ZERO_END (R196). A released scratchpad granule finishes zeroing and can be claimed. -/
  | granuleZeroEnd (p : Nat) (g : Nat)
  /-- CLM_GRANULE_ZERO_END (R198). A released cluster-memory granule finishes zeroing. -/
  | clmGranuleZeroEnd (k : Nat) (g : Nat)
  /-- CORE_VAULT_PAGE_WRITE (R200). A vault page entry write applies to commands decoded afterward, deferred during
  page zeroing. -/
  | coreVaultPageWrite (p : Nat) (page : Nat) (value : Nat)
  /-- PAGE_ZERO_END (R481). Zeroing of one slice-owned vault page ends and its owner is set. -/
  | pageZeroEnd (s : Nat)
  /-- CTX_EVICT (R203). Evicts the rental context in a slot into its save area. -/
  | ctxEvict (p : Nat) (slot : Nat)
  /-- EVICT_END (R203). An eviction ends; granules are released and the slot state becomes evicted. -/
  | evictEnd (p : Nat)
  /-- RESTORE_END (R204). A restore ends and the context becomes active. -/
  | restoreEnd (p : Nat)
  /-- SEQ_START (R214). Starts a new sequence in PREFILL. -/
  | seqStart (s : Nat) (winSlot : Nat) (cmd : Bytes) (via : (Option Nat))
  /-- SEQ_EXTEND (R216). Extends a HELD sequence with new prompt tokens. -/
  | seqExtend (s : Nat) (winSlot : Nat) (cmd : Bytes) (via : (Option Nat))
  /-- SEQ_CANCEL (R212). Cancels a sequence, freeing it or moving it to ENDING. -/
  | seqCancel (s : Nat) (winSlot : Nat) (cmd : Bytes) (via : (Option Nat))
  /-- SEQ_PARAMS (R216). Changes sampling, seed, stop, max_len or draft_max of a sequence. -/
  | seqParams (s : Nat) (winSlot : Nat) (cmd : Bytes) (via : (Option Nat))
  /-- SEQ_WINDOW_BAD_WRITE (R213). A write to the sequence window that is not a sequence command, or lacks a credit,
  is discarded and counted. -/
  | seqWindowBadWrite (s : Nat)
  /-- ACK_RECORD_WRITE (R229). The ACK record of a sequence command is written when the output ring has room, and the
  credit returned. -/
  | ackRecordWrite (s : Nat)
  /-- STEP_BIND (R217). A write to PORTAL_STEP_BIND binds a step template, checked and reported in bind_result. -/
  | stepBind (s : Nat) (value : Nat) (via : (Option Nat))
  /-- STEP_BUILD (R222). Lamplighter builds a slice's next step, writes the step buffer and submits the member lists. -/
  | stepBuild (s : Nat)
  /-- STEP_COMPLETE (R223). A step completes and Lamplighter post-processes its results. -/
  | stepComplete (s : Nat)
  /-- OUTPUT_COALESCE_TIMEOUT (R230). coal_us after the first unsignalled record, portal message 3 is sent. -/
  | outputCoalesceTimeout (s : Nat)
  /-- FIXED_BATCH_START (R232). Lamplighter starts the next queued fixed batch of a slice. -/
  | fixedBatchStart (s : Nat)
  /-- ALL_BLOCKED (R233). After detect_us of a blocked spell, Lamplighter evicts a victim or sets all_blocked and
  notifies the manager. -/
  | allBlocked (p : Nat)
  /-- CONTEXT_IDLE_RELEASE (R234). A context idle for idle_us leaves its slot. -/
  | contextIdleRelease (p : Nat) (slot : Nat)
  /-- LAMP_CTX_CFG_WRITE (R484). A write of detect_us or idle_us applies to spells already running. -/
  | lampCtxCfgWrite (d : Nat) (value : Nat)
  /-- BLOAD (R256). Loads a buffer into Beryl X, Y or I memory. -/
  | bload (p : Nat) (move : BerylMove)
  /-- BSTORE (R256). Stores Beryl X or Y memory to a buffer. -/
  | bstore (p : Nat) (move : BerylMove)
  /-- BRUN (R258). Runs a Beryl program from a start bundle with bound windows until HALT. -/
  | brun (p : Nat) (slot : Nat)
  /-- BSETS (R256). Sets up to three scalar registers. -/
  | bsets (p : Nat) (slot : Nat)
  /-- BPCLR (R260). Clears the bank's poison flag. -/
  | bpclr (p : Nat) (slot : Nat)
  /-- BTRIM (R256). Clears valid bits of rental memory blocks. -/
  | btrim (p : Nat) (slot : Nat)
  /-- BUNDLE (R242). One Beryl bundle issues and its slots take effect together. -/
  | bundle (p : Nat) (bank : Nat) (fetched : LineCheck) (loaded : List LineCheck × List LineCheck)
  /-- CELL_START (R271). Checks a cell configuration and schedules the cell to begin at a frame. -/
  | cellStart (cell : Nat) (next : Bool) (atFrame : Nat)
  /-- CELL_STOP (R271). Schedules a cell to stop at a frame. -/
  | cellStop (cell : Nat) (next : Bool) (atFrame : Nat)
  /-- CELL_RECONFIG (R271). Checks a new configuration and schedules it for a frame. -/
  | cellReconfig (cell : Nat) (next : Bool) (atFrame : Nat)
  /-- CELL_FRAME_ACTION (R271). At the named frame a pending START, STOP or RECONFIG takes effect. -/
  | cellFrameAction (cell : Nat)
  /-- CLU_LANT_CTL_WRITE (R275). A write of run starts or stops the cluster Lantern. -/
  | cluLantCtlWrite (k : Nat) (value : Nat)
  /-- LANTERN_FAULT (R275). The cluster Lantern stops on a fault and sets fault. -/
  | lanternFault (k : Nat)
  /-- PLAN_READ (R276). At slot start minus plan_lead the pipeline reads the slot plan, running a late plan empty. -/
  | planRead (cell : Nat)
  /-- PRACH_OCCASION (R282). An occasion's preambles are detected and reported. -/
  | prachOccasion (cell : Nat) (frame : Nat) (slot : Nat) (occ : Nat)
  /-- NOISE_PERIOD_END (R285). A noise-floor record is written every ni_period slots. -/
  | noisePeriodEnd (cell : Nat) (period : Nat)
  /-- UPLINK_RESULT (R287). An uplink result is written to the report ring, late ones flagged. -/
  | uplinkResult (cell : Nat) (entry : UplinkEntry)
  /-- JOB_RING_PROD_WRITE (R290). A write of prod to a job ring header makes jobs pending. -/
  | jobRingProdWrite (k : Nat) (j : Nat) (prod : Nat)
  /-- LDPC_DECODE (R297). A Jasper LDPC decode job with HARQ combining. -/
  | ldpcDecode (k : Nat) (e : Nat) (j : Nat)
  /-- LDPC_ENCODE (R292). A Jasper LDPC encode job. -/
  | ldpcEncode (k : Nat) (e : Nat) (j : Nat)
  /-- POLAR_DECODE (R297). A Jasper polar list decode job. -/
  | polarDecode (k : Nat) (e : Nat) (j : Nat)
  /-- POLAR_ENCODE (R292). A Jasper polar encode job. -/
  | polarEncode (k : Nat) (e : Nat) (j : Nat)
  /-- TURBO_DECODE (R297). A Jasper turbo decode job. -/
  | turboDecode (k : Nat) (e : Nat) (j : Nat)
  /-- TURBO_ENCODE (R292). A Jasper turbo encode job. -/
  | turboEncode (k : Nat) (e : Nat) (j : Nat)
  /-- TBCC_DECODE (R297). A Jasper TBCC Viterbi decode job. -/
  | tbccDecode (k : Nat) (e : Nat) (j : Nat)
  /-- TBCC_ENCODE (R292). A Jasper TBCC encode job. -/
  | tbccEncode (k : Nat) (e : Nat) (j : Nat)
  /-- CODE_BLOCK_END (R299). A code block ends; the engine parks its job if an earlier-deadline candidate waits. -/
  | codeBlockEnd (k : Nat) (e : Nat)
  /-- JASPER_FAULT (R304). A faulty Jasper engine is retired and its job aborted. -/
  | jasperFault (k : Nat) (e : Nat)
  /-- FRAME_RECEIVE (R307). A received frame is checked and routed to stream FIFOs or the host ring, or dropped. -/
  | frameReceive (i : Nat) (frame : Bytes) (fcsOk : Bool)
  /-- FIFO_DROP_REST (R317). Discards the rest of the current FIFO packet. -/
  | fifoDropRest (f : Nat)
  /-- POP (R316). Moves the next legacy FIFO word into the Lantern's read buffer. -/
  | pop (f : Nat) (parityBad : Bool)
  /-- HUB_PACKET_MOVE (R316). The cluster hub starts moving a native packet once threshold words are present. -/
  | hubPacketMove (f : Nat) (parityBad : (List Nat))
  /-- EGRESS_PACKET_READ (R319). Egress reads a packet from an egress FIFO into its leaf queue when there is room. -/
  | egressPacketRead (f : Nat) (parityBad : (List Nat))
  /-- FRAME_SELECT (R321). When the transmitter is free, the first eligible frame is selected and sent. -/
  | frameSelect (i : Nat)
  /-- SHAPER_REFILL (R323). Every microsecond each shaper gains tokens up to its burst. -/
  | shaperRefill
  /-- FH_SHAPER_WRITE (R323). A shaper write takes effect at the node's next refill. -/
  | fhShaperWrite (fn : Nat) (node : Nat) (value : Nat)
  /-- GATE_COMMIT (R324). Commits the administrative gate list to start at a future cycle. -/
  | gateCommit (i : Nat)
  /-- GATE_CANCEL (R325). Discards a pending gate list. -/
  | gateCancel (i : Nat)
  /-- GATE_LIST_START (R324). A committed gate list becomes operating at its start instant. -/
  | gateListStart (i : Nat)
  /-- GATE_ENTRY_ADVANCE (R324). The operating gate list moves to its next entry. -/
  | gateEntryAdvance (i : Nat)
  /-- HISTOGRAM_SAMPLE (R326). Every 10 µs each leaf queue is sampled into its bins. -/
  | histogramSample
  /-- HISTOGRAM_CLEAR (R326). A write of clear zeroes the selected queue's bins. -/
  | histogramClear (queue : Nat)
  /-- HOST_TX_POST (R327). The manager posts transmit slots by writing tx_head. -/
  | hostTxPost (i : Nat) (head : Nat)
  /-- SERDES_FAIL (R306). A failed SerDes is retired and its interface goes down. -/
  | serdesFail (u : Nat)
  /-- TIME_NOW_LOW_READ (R333). A read of the low word snapshots TIME_NOW or TIME_PPS_IN for the requester. -/
  | timeNowLowRead (req : Nat) (pps : Bool)
  /-- TIME_NOW_HIGH_READ (R333). A read of the high word returns the snapshot's seconds and uses it up. -/
  | timeNowHighRead (req : Nat) (pps : Bool)
  /-- TIME_INCREMENT_WRITE (R334). A new increment takes effect at the next time-clock cycle, clamped to ±1,000 ppm. -/
  | timeIncrementWrite (value : Nat)
  /-- TIME_ADJ_ADD (R335). Adds TIME_ADJ_VALUE to device time. -/
  | timeAdjAdd
  /-- TIME_ADJ_SUBTRACT (R335). Subtracts TIME_ADJ_VALUE from device time. -/
  | timeAdjSubtract
  /-- TIME_ADJ_SET (R335). Sets device time to TIME_ADJ_VALUE. -/
  | timeAdjSet
  /-- PLL_LOCK (R442). The time-clock PLL locks and device time starts at tick boundary 0. -/
  | pllLock
  /-- PLL_LOCK_LOSS (R332). Loss of lock switches to holdover, clears ref_lock and sends the time event. -/
  | pllLockLoss
  /-- PPS_OUT_PULSE (R343). PPS_OUT rises at each second and falls after width_us. -/
  | ppsOutPulse
  /-- PPS_IN_EDGE (R344). A rising PPS_IN edge captures device time. -/
  | ppsInEdge
  /-- QUIESCE (R354). Moves an ACTIVE slice to QUIESCING. -/
  | quiesce (s : Nat)
  /-- RESUME (R354). Returns a slice to ACTIVE. -/
  | resume (s : Nat)
  /-- RESET (R357). Fences and discards all of a slice's work, objects, pages and portal state. -/
  | reset (s : Nat)
  /-- FREEZE (R361). Stops a slice's contexts, keeping their state. -/
  | freeze (s : Nat)
  /-- SAVE (R362). Writes the slice image to host memory. -/
  | save (s : Nat) (saveVault : Bool)
  /-- RESTORE (R363). Reads and checks a slice image into a QUIESCED slice, leaving it FROZEN. -/
  | restore (s : Nat)
  /-- LOG_START (R359). Clears the dirty-page filter and starts logging. -/
  | logStart (s : Nat)
  /-- LOG_STOP (R359). Flushes and ends dirty-page logging. -/
  | logStop (s : Nat)
  /-- LOG_FLUSH (R359). Writes pending dirty-page entries and clears the filter. -/
  | logFlush (s : Nat)
  /-- QUIESCE_COMPLETE (R355). When all accepted work is done, the slice becomes QUIESCED and its contexts end. -/
  | quiesceComplete (s : Nat)
  /-- RESET_END (R357). Slice reset finishes and the slice leaves RESETTING. -/
  | resetEnd (s : Nat)
  /-- FREEZE_COMPLETE (R361). FREEZE completes when no request of the slice is in flight. -/
  | freezeComplete (s : Nat)
  /-- SLICE_COMMAND_END (R356). A slice command ends, sets its SLC_DONE bit and sends the slice event. -/
  | sliceCommandEnd (s : Nat)
  /-- PAGE_REQUEST_RESPONSE (R349). A PRI response retries a translation or tears down the context. -/
  | pageRequestResponse (s : Nat) (page : Nat) (code : PriCode)
  /-- ATS_INVALIDATION (R349). An ATS invalidation completes once prior translated requests are accepted. -/
  | atsInvalidation (s : Nat) (lo : Nat) (hi : Nat)
  /-- CREDIT_LIMIT_WRITE (R350). A credit_limit write is applied, or discarded when the total would exceed 16,384. -/
  | creditLimitWrite (s : Nat) (value : Nat)
  /-- TDISP_LOCK_INTERFACE (R365). A confidential slice enters CONFIG_LOCKED. -/
  | tdispLockInterface (s : Nat) (stream : Nat)
  /-- TDISP_START_INTERFACE (R365). A confidential slice enters RUN. -/
  | tdispStartInterface (s : Nat)
  /-- TDISP_STOP_INTERFACE (R365). A confidential slice leaves RUN or ERROR. -/
  | tdispStopInterface (s : Nat)
  /-- IDE_INTEGRITY_FAILURE (R365). An IDE integrity failure puts the slice in ERROR and resets it. -/
  | ideIntegrityFailure (stream : Nat)
  /-- PF0_FLR (R367). A PF0 function-level reset resets PF0 state and holds host requests. -/
  | pf0Flr
  /-- PF1_FLR (R367). A PF1 function-level reset stops cells, the radio portal and cluster Lanterns. -/
  | pf1Flr
  /-- BUS_MASTER_ENABLE (R368). Setting Bus Master Enable releases held host requests. -/
  | busMasterEnable (fn : Nat)
  /-- HELD_REQUEST_TIMEOUT (R368). A host request held longer than the wait limit completes as a host error. -/
  | heldRequestTimeout
  /-- ND_CLEAR (R374). A write of clear zeroes SLC_ND_TOTAL. -/
  | ndClear (s : Nat)
  /-- GROUP_BARRIER_ADD (R421). The root applies a member's barrier add and may send a release. -/
  | groupBarrierAdd (c : Nat) (member : Nat) (n : Nat) (target : Nat)
  /-- GROUP_RELEASE_RECEIVE (R421). A member receives a release carrying the start instant. -/
  | groupReleaseReceive (c : Nat) (n : Nat) (value : Nat) (broken : Bool) (refused : Bool) (start : Nat)
  /-- GROUP_BARRIER_RELEASE (R377). At instant S, waiting group barriers release. -/
  | groupBarrierRelease (n : Nat)
  /-- HEARTBEAT_RECEIVE (R414). A twin heartbeat arrives and advances pairing. -/
  | heartbeatReceive (c : Nat) (beat : Heartbeat)
  /-- HELLO_RECEIVE (R420). A hello marks its member present. -/
  | helloReceive (c : Nat) (member : Nat)
  /-- TIME_MESSAGE_RECEIVE (R408). A time exchange completes and CLINK_TIME is written. -/
  | timeMessageReceive (c : Nat) (t1 : Int) (t2 : Int) (t3 : Int) (t4 : Int)
  /-- FLIT_CRC_FAIL (R404). A flit failing its CRC is retried without reordering. -/
  | flitCrcFail (c : Nat)
  /-- CLINK_LINK_DOWN (R406). A Citia Link goes down; unacknowledged transfers are aborted. -/
  | clinkLinkDown (c : Nat)
  /-- CLINK_LINK_UP (R406). A Citia Link comes up and a health event is sent. -/
  | clinkLinkUp (c : Nat)
  /-- XQ_PRODUCER_ADVANCE (R409). The port sees a producer object change and takes new transfer records. -/
  | xqProducerAdvance (c : Nat) (q : Nat)
  /-- TRANSFER_WRITE (R410). A transfer record of op write is checked and sent. -/
  | transferWrite (c : Nat) (q : Nat)
  /-- TRANSFER_LAND (R411). Incoming transfer data lands through a grant and the arrival object is raised. -/
  | transferLand (c : Nat) (xfer : Landing)
  /-- TRANSFER_ACK (R411). The sender writes the outcome and applies the transfer's signal. -/
  | transferAck (c : Nat) (q : Nat) (outcome : Nat) (code : Nat)
  /-- MIRROR_RECEIVE (R415). A mirrored cut image or cell configuration arrives from the twin. -/
  | mirrorReceive (c : Nat) (item : MirrorItem)
  /-- MIRROR_DUMP (R415). A write to CLINK_MIRROR_DUMP writes the twin mirror to host memory. -/
  | mirrorDump (c : Nat) (addr4k : Nat)
  /-- HANDOVER (R419). Moves every ACTIVE cell to the twin at a frame at least 4 ms ahead. -/
  | handover (c : Nat)
  /-- HEALTH_POLL (R388). Every 100 µs the health controller polls every unit. -/
  | healthPoll (unanswered : (List Nat))
  /-- SOFT_RETIREMENT (R389). A unit at or below retire_threshold is retired softly when the rate limit allows,
  otherwise flagged. -/
  | softRetirement (u : Nat)
  /-- VAULT_COPY_END (R391). The copy of a retired core's vault to its spare ends. -/
  | vaultCopyEnd (p : Nat)
  /-- VIGIL_TEST (R396). Vigil runs a known-answer test or pass on an idle unit. -/
  | vigilTest (run : VigilRun)
  /-- VIGIL_REQUEST (R399). A write of go places a targeted Vigil request. -/
  | vigilRequest (value : Nat)
  /-- VIGIL_CANCEL (R399). A write of cancel withdraws the pending request. -/
  | vigilCancel
  /-- VIGIL_STALE (R400). A unit's last pass passes stale_h and stale is raised. -/
  | vigilStale (u : Nat)
  /-- STARTUP_VIGIL_PASS (R401). Vigil runs a full pass of every unit before any cut. -/
  | startupVigilPass (runs : (List VigilRun))
  /-- MONITOR_SAMPLE (R402). Every 100 µs all monitors are sampled and thermal stages applied. -/
  | monitorSample (temps : (List Int)) (volts : (List Nat)) (procs : (List Nat))
  /-- POWER_SAMPLE (R473). Every 100 µs rail power is sampled and compared with the limit. -/
  | powerSample (watts : Nat)
  /-- PWRBRK_ASSERT (R477). PWRBRK_N asserted sets rental duty to 0. -/
  | pwrbrkAssert
  /-- PWRBRK_RELEASE (R477). PWRBRK_N released lets duty recover. -/
  | pwrbrkRelease
  /-- POWER_LIMIT_SET (R473). The PLDM effecter sets the power limit. -/
  | powerLimitSet (watts : Nat)
  /-- RAIL_UNDERVOLTAGE (R470). A rail below tolerance for over 5 µs causes device reset. -/
  | railUndervoltage (rail : Rail)
  /-- VDD_AUX_ON (R465). VDD_AUX entering its range samples the straps. -/
  | vddAuxOn (sbMode : Bool) (sbAddr : Nat) (trefSel : Bool)
  /-- HOT_RESET (R428). A hot reset, link disable or link loss resets the function state. -/
  | hotReset
  /-- HOST_READ_ERROR (R427). A host read with an error or no completion in 50 ms completes as a host error. -/
  | hostReadError (pasid : (Option Nat)) (addr : Nat) (len : Nat)
  /-- DEVICE_RESET (R432). PERST_N low or DEV_RESET stops everything and restarts from step 2 of start-up. -/
  | deviceReset
  /-- DEV_RESET (R432). A write of key 0xD1E5 starts device reset 2 µs later. -/
  | devReset (key : Nat)
  /-- ROM_INIT_DONE (R442). The boot ROM finishes and opens the bootstrap window. -/
  | romInitDone
  /-- BOOT_GO (R438). A write of go starts verification of the boot image. -/
  | bootGo (len : Nat)
  /-- VERIFY_END (R439). Verification ends; stages load and the device moves to VIGIL, or returns to WAIT_IMAGE. -/
  | verifyEnd
  /-- SVN_COMMIT (R440). Blows rollback fuses up to the running security version. -/
  | svnCommit
  /-- ENROL (R449). Fetches and checks an enrolment record. -/
  | enrol
  /-- ENROL_END (R449). The enrolment or revocation ends and the device event is sent. -/
  | enrolEnd
  /-- SPDM_MESSAGE (R444). An SPDM request over DOE or MCTP is answered. -/
  | spdmMessage (sideband : Bool) (request : SpdmRequest)
  /-- MEASUREMENTS (R445). A signed measurements response is returned within 5 ms. -/
  | measurements (sideband : Bool) (indices : (List Nat))
  /-- IDE_KM_KEY (R446). IDE_KM places stream keys in Onyx. -/
  | ideKmKey (stream : Nat) (key : Nat)
  /-- MCTP_MESSAGE (R451). A sideband MCTP message is answered. -/
  | mctpMessage (request : MctpRequest)
  /-- JTAG_INSTRUCTION_LOAD (R454). A boundary-scan instruction load takes effect and is counted. -/
  | jtagInstructionLoad (instr : JtagInstr)
  /-- MSIX_UNMASK (R430). Unmasking a vector with its pending bit set sends one message. -/
  | msixUnmask (fn : Nat) (vector : Nat)
  /-- PLL_RELOCK (R332). The time-clock PLL regains lock to its returned reference, leaves holdover and sets ref_lock
  again. -/
  | pllRelock
  /-- FH_LINK_DOWN (R306). A fronthaul interface loses its link, link_up clears and link_downs increments. -/
  | fhLinkDown (i : Nat)
  /-- FH_LINK_UP (R306). A fronthaul interface gains its link and link_up is set, including the return within 5 ms
  after a spare SerDes is connected. -/
  | fhLinkUp (i : Nat)
  /-- RAIL_RESTORE (R470). Every rail is back within its tolerance and the FN2 starts again at step 2 of start-up. -/
  | railRestore
  /-- VDD_AUX_OFF (R465). VDD_AUX is removed, ending strap latching and interrupting any fuse programming. -/
  | vddAuxOff
  /-- PERST_N_DEASSERT (R442). PERST_N goes high, the device leaves reset and start-up proceeds to PLL lock, while
  EXTEST, CLAMP and HIGHZ stop taking effect. -/
  | perstNDeassert
  /-- THERMTRIP_RELEASE (R479). THERMTRIP_N is released once PERST_N has been low for at least 1 ms after a thermal
  trip. -/
  | thermtripRelease
  /-- POWER_STATE_CHANGE (R426). A function moves between D0 and D3hot, stopping or releasing its requests and
  messages. -/
  | powerStateChange (fn : Nat) (d3 : Bool)
  /-- PCIE_LINK_UP (R428). The PCI Express link trains and returns to L0 after a loss, disable or hot reset. -/
  | pcieLinkUp
  /-- TRANSLATION_COMPLETION (R349). An ATS translation completion arrives and either supplies the translation, raises
  a page request, or tears down the context on Unsupported Request. -/
  | translationCompletion (s : Nat) (page : Nat) (result : AtsResult)
  /-- MIRROR_ACK (R415). The twin acknowledges a mirrored item, and mirror_ok becomes 1 when every sent item has been
  acknowledged. -/
  | mirrorAck (c : Nat)
  /-- HANDOVER_RECEIVE (R419). The twin receives a handover and schedules each cell to start from its mirror at frame
  F, or refuses it. -/
  | handoverReceive (c : Nat) (frame : Nat) (cells : (List Nat))
  /-- HANDOVER_REPLY_RECEIVE (R419). The handing-over device learns each cell's acceptance or refusal, increments
  handover_fail for refusals and sets handover_done when all are settled. -/
  | handoverReplyReceive (c : Nat) (cell : Nat) (accepted : Bool)
deriving DecidableEq, Repr

end Sys2Proof
end

