-- ==== Sys2Proof/Machine/Registers.lean ====
section
/-!
DEFINITION. The registers of the FN2 with their fields (the field tables of every chapter, R455) and
their places in the BARs (chapter 20).  A field keeps the name of its register and its own name, as
the manual spells them.
-/
namespace Sys2Proof.Machine

/-- The access types of R5 that the field tables use. -/
inductive Access where
  | ro | rw | wo | w1c
deriving DecidableEq, Repr

/-- The registers of the summary in chapter 20, each under the manual's own name. -/
inductive Reg where
  /-- CORE_IDENT: 0x0000, 64 bits, PF0 BAR0 core window, per physical core (spec/01_five_levels.md). -/
  | CORE_IDENT
  /-- CLU_CORE_MAP: 0x0000, 64 bits, PF0 BAR0 cluster window, per cluster (spec/01_five_levels.md). -/
  | CLU_CORE_MAP
  /-- DEV_APERTURE_BASE: 0x0000_0200, 64 bits, PF0 BAR0 DEV block, one per device (spec/01_five_levels.md). -/
  | DEV_APERTURE_BASE
  /-- TIME_TICK_STATUS: 0x0030_0200, 64 bits, PF0 BAR0 TIME block, one per device (spec/02_tick_and_lease.md). -/
  | TIME_TICK_STATUS
  /-- TIME_TICK_NUMBER: 0x0030_0208, 64 bits, PF0 BAR0 TIME block, one per device (spec/02_tick_and_lease.md). -/
  | TIME_TICK_NUMBER
  /-- TIME_TICK_BASE: 0x0030_0210, 128 bits as two 64-bit words at 0x0030_0210 and 0x0030_0218, PF0 BAR0 TIME block,
  one per device (spec/02_tick_and_lease.md). -/
  | TIME_TICK_BASE
  /-- CORE_LEASE_CFG: 0x0100, 64 bits, PF0 BAR0 core window, per physical core (spec/02_tick_and_lease.md). -/
  | CORE_LEASE_CFG
  /-- GAR_MAX_INSTR_TIME: 0x0044, 32 bits, PF0 BAR0 core window, per physical core (spec/02_tick_and_lease.md). -/
  | GAR_MAX_INSTR_TIME
  /-- CORE_TICK_OVERRUN: 0x0110, 64 bits, PF0 BAR0 core window, per physical core (spec/02_tick_and_lease.md). -/
  | CORE_TICK_OVERRUN
  /-- CORE_LEASE_STATUS: 0x0108, 64 bits, PF0 BAR0 core window, per physical core (spec/02_tick_and_lease.md). -/
  | CORE_LEASE_STATUS
  /-- CORE_RADIO_SPILL: 0x0118, 32 bits, PF0 BAR0 core window, per physical core (spec/02_tick_and_lease.md). -/
  | CORE_RADIO_SPILL
  /-- CUT_LOAD_ADDR: 0x0010_0000, 64 bits, PF0 BAR0 CUT block, one per device (spec/03_cut_image.md). -/
  | CUT_LOAD_ADDR
  /-- CUT_CTL: 0x0010_0008, 32 bits, PF0 BAR0 CUT block, one per device (spec/03_cut_image.md). -/
  | CUT_CTL
  /-- CUT_STATUS: 0x0010_0010, 64 bits, PF0 BAR0 CUT block, one per device (spec/03_cut_image.md). -/
  | CUT_STATUS
  /-- CUT_GEN: 0x0010_0018, 64 bits, PF0 BAR0 CUT block, one per device (spec/03_cut_image.md). -/
  | CUT_GEN
  /-- CUT_STAGED_TICK: 0x0010_0020, 64 bits, PF0 BAR0 CUT block, one per device (spec/03_cut_image.md). -/
  | CUT_STAGED_TICK
  /-- CUT_EVENT: 0x0010_0028, 32 bits, PF0 BAR0 CUT block, one per device (spec/03_cut_image.md). -/
  | CUT_EVENT
  /-- CUT_CHAIN_DIGEST: 0x0010_0040, 256 bits as four 64-bit words at 0x0040, 0x0048, 0x0050 and 0x0058, PF0 BAR0 CUT
  block, one per device (spec/03_cut_image.md). -/
  | CUT_CHAIN_DIGEST
  /-- CORE_CTX_STATE: 0x0200 + 8 × slot, 64 bits, PF0 BAR0 core window, per physical core, four instances
  (spec/04_command_lists.md). -/
  | CORE_CTX_STATE
  /-- SYNC_OBJ: 0x00E0_0000 + n × 0x10, 128 bits as two 64-bit words, PF0 BAR0 SYNC block, per object n
  (spec/04_command_lists.md). -/
  | SYNC_OBJ
  /-- SYNC_CTL: 0x00E8_0000, 32 bits, PF0 BAR0 SYNC block, one per device (spec/04_command_lists.md). -/
  | SYNC_CTL
  /-- PORTAL_CREDITS: 0x1000, 64 bits, PF0 BAR2 portal page, per slice (spec/04_command_lists.md). -/
  | PORTAL_CREDITS
  /-- PORTAL_STATUS: 0x1008, 64 bits, PF0 BAR2 portal page, per slice (spec/04_command_lists.md). -/
  | PORTAL_STATUS
  /-- PORTAL_CREDIT_MIRROR: 0x1010, 64 bits, PF0 BAR2 portal page, per slice (spec/04_command_lists.md). -/
  | PORTAL_CREDIT_MIRROR
  /-- PORTAL_ERR_RING: 0x1020, 64 bits, PF0 BAR2 portal page, per slice (spec/04_command_lists.md). -/
  | PORTAL_ERR_RING
  /-- PORTAL_ERR_PTR: 0x1028, 64 bits, PF0 BAR2 portal page, per slice (spec/04_command_lists.md). -/
  | PORTAL_ERR_PTR
  /-- GAR_ISSUE_CTL: 0x0040, 32 bits, PF0 BAR0 core window, per physical core (spec/05_garnet_array.md). -/
  | GAR_ISSUE_CTL
  /-- GAR_BANK_STATE: 0x0048, 64 bits, PF0 BAR0 core window, per physical core (spec/05_garnet_array.md). -/
  | GAR_BANK_STATE
  /-- GAR_FAULT: 0x0050, 64 bits, PF0 BAR0 core window, per physical core (spec/05_garnet_array.md). -/
  | GAR_FAULT
  /-- GAR_STREAM_CYCLES: 0x0058, 64 bits, PF0 BAR0 core window, per physical core (spec/05_garnet_array.md). -/
  | GAR_STREAM_CYCLES
  /-- GAR_BUBBLE_CYCLES: 0x0060, 64 bits, PF0 BAR0 core window, per physical core (spec/05_garnet_array.md). -/
  | GAR_BUBBLE_CYCLES
  /-- GAR_SAT_COUNT: 0x0068, 64 bits, PF0 BAR0 core window, per physical core (spec/06_number_formats.md). -/
  | GAR_SAT_COUNT
  /-- OPAL_INFLIGHT: 0x0080, 64 bits, PF0 BAR0 core window, per physical core (spec/07_opal_mover.md). -/
  | OPAL_INFLIGHT
  /-- OPAL_EVENTS: 0x0088, 64 bits, PF0 BAR0 core window, per physical core (spec/07_opal_mover.md). -/
  | OPAL_EVENTS
  /-- CORE_VAULT_ECC: 0x0300, 64 bits, PF0 BAR0 core window, per physical core (spec/08_vaults_and_scratch.md). -/
  | CORE_VAULT_ECC
  /-- CORE_VAULT_SPARE: 0x0308, 64 bits, PF0 BAR0 core window, per physical core (spec/08_vaults_and_scratch.md). -/
  | CORE_VAULT_SPARE
  /-- CORE_SPM_ECC: 0x0310, 64 bits, PF0 BAR0 core window, per physical core (spec/08_vaults_and_scratch.md). -/
  | CORE_SPM_ECC
  /-- CORE_SPM_OWNER: 0x0320 + 8 × slot, 64 bits, PF0 BAR0 core window, per physical core, four instances
  (spec/08_vaults_and_scratch.md). -/
  | CORE_SPM_OWNER
  /-- CLU_CLM_GRANULE: 0x0200 + 4 × g, 32 bits, PF0 BAR0 cluster window, per cluster, 128 instances
  (spec/08_vaults_and_scratch.md). -/
  | CLU_CLM_GRANULE
  /-- CLU_CLM_ECC: 0x0100, 64 bits, PF0 BAR0 cluster window, per cluster (spec/08_vaults_and_scratch.md). -/
  | CLU_CLM_ECC
  /-- CORE_VAULT_PAGE: 0x1000 + 8 × page, 64 bits, PF0 BAR0 core window, per physical core, 576 instances
  (spec/08_vaults_and_scratch.md). -/
  | CORE_VAULT_PAGE
  /-- CORE_CTX_CMD: 0x0220, 32 bits, PF0 BAR0 core window, per physical core (spec/08_vaults_and_scratch.md). -/
  | CORE_CTX_CMD
  /-- PORTAL_OUT_RING: 0x4000, 64 bits, PF0 BAR2 portal page, per slice (spec/09_lamplighter_serving.md). -/
  | PORTAL_OUT_RING
  /-- PORTAL_OUT_PTR: 0x4008, 64 bits, PF0 BAR2 portal page, per slice (spec/09_lamplighter_serving.md). -/
  | PORTAL_OUT_PTR
  /-- PORTAL_OUT_COAL: 0x4010, 32 bits, PF0 BAR2 portal page, per slice (spec/09_lamplighter_serving.md). -/
  | PORTAL_OUT_COAL
  /-- PORTAL_SEQ_CREDITS: 0x2800, 64 bits, PF0 BAR2 portal page, per slice (spec/09_lamplighter_serving.md). -/
  | PORTAL_SEQ_CREDITS
  /-- PORTAL_STEP_BIND: 0x2808, 64 bits, PF0 BAR2 portal page, per slice (spec/09_lamplighter_serving.md). -/
  | PORTAL_STEP_BIND
  /-- PORTAL_SEQ_STATUS: 0x2810, 64 bits, PF0 BAR2 portal page, per slice (spec/09_lamplighter_serving.md). -/
  | PORTAL_SEQ_STATUS
  /-- LAMP_STATUS: 0x0090_0000 + d × 0x8_0000, 64 bits, PF0 BAR0 LAMP block, per Lamplighter
  (spec/09_lamplighter_serving.md). -/
  | LAMP_STATUS
  /-- LAMP_TOKEN_COUNT: 0x0090_0008 + d × 0x8_0000, 64 bits, PF0 BAR0 LAMP block, per Lamplighter
  (spec/09_lamplighter_serving.md). -/
  | LAMP_TOKEN_COUNT
  /-- LAMP_CTX_CFG: 0x0090_0010 + d × 0x8_0000, 32 bits, PF0 BAR0 LAMP block, per Lamplighter
  (spec/09_lamplighter_serving.md). -/
  | LAMP_CTX_CFG
  /-- LAMP_CTX_EVENT: 0x0090_0018 + d × 0x8_0000, 64 bits, PF0 BAR0 LAMP block, per Lamplighter
  (spec/09_lamplighter_serving.md). -/
  | LAMP_CTX_EVENT
  /-- LAMP_SEQ_SEL: 0x0090_0100 + d × 0x8_0000, 32 bits, PF0 BAR0 LAMP block, per Lamplighter
  (spec/09_lamplighter_serving.md). -/
  | LAMP_SEQ_SEL
  /-- LAMP_SEQ_WINDOW: 0x0090_1000 + d × 0x8_0000, 640 bytes as 80 64-bit words, PF0 BAR0 LAMP block, per Lamplighter
  (spec/09_lamplighter_serving.md). -/
  | LAMP_SEQ_WINDOW
  /-- LAMP_SLICE_CFG: 0x0097_0000 + 8 × s, 64 bits, PF0 BAR0 LAMP block, per slice (spec/09_lamplighter_serving.md). -/
  | LAMP_SLICE_CFG
  /-- BER_STATUS: 0x00C0, 64 bits, PF0 BAR0 core window, per physical core (spec/10_beryl_dsp.md). -/
  | BER_STATUS
  /-- BER_SAT: 0x00C8, 64 bits, PF0 BAR0 core window, per physical core (spec/10_beryl_dsp.md). -/
  | BER_SAT
  /-- BER_FAULT: 0x00D0, 64 bits, PF0 BAR0 core window, per physical core (spec/10_beryl_dsp.md). -/
  | BER_FAULT
  /-- BER_VALID: 0x00D8, 128 bits as two 64-bit words at 0x00D8 and 0x00E0, PF0 BAR0 core window, per physical core
  (spec/10_beryl_dsp.md). -/
  | BER_VALID
  /-- BER_ISSUE: 0x00E8, 64 bits, PF0 BAR0 core window, per physical core (spec/10_beryl_dsp.md). -/
  | BER_ISSUE
  /-- BER_STALL: 0x00F0, 64 bits, PF0 BAR0 core window, per physical core (spec/10_beryl_dsp.md). -/
  | BER_STALL
  /-- CLU_CELL_CFG_ADDR: 0x0010_0000 + cell × 0x100, 64 bits, PF1 BAR0, per cell (spec/11_radio_pipeline.md). -/
  | CLU_CELL_CFG_ADDR
  /-- CLU_CELL_CMD: 0x0010_0008 + cell × 0x100, 32 bits, PF1 BAR0, per cell (spec/11_radio_pipeline.md). -/
  | CLU_CELL_CMD
  /-- CLU_CELL_STATE: 0x0010_0010 + cell × 0x100, 64 bits, PF1 BAR0, per cell (spec/11_radio_pipeline.md). -/
  | CLU_CELL_STATE
  /-- CLU_LANT_CTL: 0x0020_0000 + cluster × 0x100, 64 bits, PF1 BAR0, per cluster (spec/11_radio_pipeline.md). -/
  | CLU_LANT_CTL
  /-- CLU_CELL_RING_PTR: 0x0010_0018 + cell × 0x100, 64 bits, PF1 BAR0, per cell (spec/11_radio_pipeline.md). -/
  | CLU_CELL_RING_PTR
  /-- CLU_CELL_CNT: 0x0010_0020 + cell × 0x100, 128 bits as two 64-bit words at 0x20 and 0x28, PF1 BAR0, per cell
  (spec/11_radio_pipeline.md). -/
  | CLU_CELL_CNT
  /-- JSP_RING_STATE: 0x0400 + 8 × j, 64 bits, PF0 BAR0 cluster window, per cluster, 8 instances
  (spec/12_jasper_codec.md). -/
  | JSP_RING_STATE
  /-- JSP_ENGINE: 0x0440 + 8 × e, 64 bits, PF0 BAR0 cluster window, per cluster, 3 instances
  (spec/12_jasper_codec.md). -/
  | JSP_ENGINE
  /-- JSP_CNT: 0x0460, 128 bits as two 64-bit words at 0x0460 and 0x0468, PF0 BAR0 cluster window, per cluster
  (spec/12_jasper_codec.md). -/
  | JSP_CNT
  /-- FIFO_CFG: 0x0800 + 0x20 × q, 32 bits, PF0 BAR0 cluster window, per cluster, 16 instances
  (spec/13_fronthaul_ports.md). -/
  | FIFO_CFG
  /-- FIFO_STATUS: 0x0808 + 0x20 × q, 64 bits, PF0 BAR0 cluster window, per cluster, 16 instances
  (spec/13_fronthaul_ports.md). -/
  | FIFO_STATUS
  /-- FIFO_CMD: 0x0810 + 0x20 × q, 32 bits, PF0 BAR0 cluster window, per cluster, 16 instances
  (spec/13_fronthaul_ports.md). -/
  | FIFO_CMD
  /-- FH_IF_STATUS: 0x0000, 64 bits, PF0 BAR0 FH block, per interface (spec/13_fronthaul_ports.md). -/
  | FH_IF_STATUS
  /-- FH_IF_CNT: 0x0008, 256 bits as four 64-bit words at 0x0008, 0x0010, 0x0018 and 0x0020, PF0 BAR0 FH block, per
  interface (spec/13_fronthaul_ports.md). -/
  | FH_IF_CNT
  /-- FH_LATE_TOLERANCE: 0x0028, 32 bits, PF0 BAR0 FH block, per interface (spec/13_fronthaul_ports.md). -/
  | FH_LATE_TOLERANCE
  /-- FH_LATE_DROP: 0x0030, 64 bits, PF0 BAR0 FH block, per interface (spec/13_fronthaul_ports.md). -/
  | FH_LATE_DROP
  /-- FH_GATE_CTL: 0x0100, 64 bits, PF0 BAR0 FH block, per interface (spec/13_fronthaul_ports.md). -/
  | FH_GATE_CTL
  /-- FH_GATE_BASE: 0x0108, 64 bits, PF0 BAR0 FH block, per interface (spec/13_fronthaul_ports.md). -/
  | FH_GATE_BASE
  /-- FH_GATE_STATUS: 0x0110, 64 bits, PF0 BAR0 FH block, per interface (spec/13_fronthaul_ports.md). -/
  | FH_GATE_STATUS
  /-- FH_GATE_LIST: 0x0800 + 8 × j, 64 bits, PF0 BAR0 FH block, per interface, 256 instances
  (spec/13_fronthaul_ports.md). -/
  | FH_GATE_LIST
  /-- FH_HOST_RING: 0x0200, 64 bits, PF0 BAR0 FH block, per interface (spec/13_fronthaul_ports.md). -/
  | FH_HOST_RING
  /-- FH_HOST_PTR: 0x0208, 64 bits, PF0 BAR0 FH block, per interface (spec/13_fronthaul_ports.md). -/
  | FH_HOST_PTR
  /-- FH_SHAPER: 0x0042_0000 + 8 × node, 64 bits, PF0 BAR0 FH block, per node, 1,408 instances
  (spec/13_fronthaul_ports.md). -/
  | FH_SHAPER
  /-- FH_HIST_SEL: 0x0046_0000, 32 bits, PF0 BAR0 FH block, one per device (spec/13_fronthaul_ports.md). -/
  | FH_HIST_SEL
  /-- FH_HIST_WINDOW: 0x0046_0100, 1,024 bits as 16 64-bit words, PF0 BAR0 FH block, one per device
  (spec/13_fronthaul_ports.md). -/
  | FH_HIST_WINDOW
  /-- TIME_NOW: 0x0030_0000, 128 bits as two 64-bit words at 0x0030_0000 and 0x0030_0008, PF0 BAR0 TIME block, one per
  device (spec/14_device_time.md). -/
  | TIME_NOW
  /-- TIME_TOTAL: 0x0030_0010, 64 bits, PF0 BAR0 TIME block, one per device (spec/14_device_time.md). -/
  | TIME_TOTAL
  /-- TIME_INCREMENT: 0x0030_0020, 64 bits, PF0 BAR0 TIME block, one per device (spec/14_device_time.md). -/
  | TIME_INCREMENT
  /-- TIME_ADJ_VALUE: 0x0030_0030, 128 bits as two 64-bit words at 0x0030_0030 and 0x0030_0038, PF0 BAR0 TIME block,
  one per device (spec/14_device_time.md). -/
  | TIME_ADJ_VALUE
  /-- TIME_ADJ_CTL: 0x0030_0040, 32 bits, PF0 BAR0 TIME block, one per device (spec/14_device_time.md). -/
  | TIME_ADJ_CTL
  /-- TIME_STATUS: 0x0030_0048, 64 bits, PF0 BAR0 TIME block, one per device (spec/14_device_time.md). -/
  | TIME_STATUS
  /-- TIME_PPS_CTL: 0x0030_0100, 32 bits, PF0 BAR0 TIME block, one per device (spec/14_device_time.md). -/
  | TIME_PPS_CTL
  /-- TIME_PPS_IN: 0x0030_0108, 128 bits as two 64-bit words at 0x0030_0108 and 0x0030_0110, PF0 BAR0 TIME block, one
  per device (spec/14_device_time.md). -/
  | TIME_PPS_IN
  /-- TIME_SYNCE_CTL: 0x0030_0118, 32 bits, PF0 BAR0 TIME block, one per device (spec/14_device_time.md). -/
  | TIME_SYNCE_CTL
  /-- SLC_CFG: 0x0000, 64 bits, PF0 BAR0 SLC block, per slice (spec/15_slices_and_tenants.md). -/
  | SLC_CFG
  /-- SLC_STATE: 0x0008, 64 bits, PF0 BAR0 SLC block, per slice (spec/15_slices_and_tenants.md). -/
  | SLC_STATE
  /-- SLC_CMD: 0x0010, 32 bits, PF0 BAR0 SLC block, per slice (spec/15_slices_and_tenants.md). -/
  | SLC_CMD
  /-- SLC_XFER_ADDR: 0x0018, 64 bits, PF0 BAR0 SLC block, per slice (spec/15_slices_and_tenants.md). -/
  | SLC_XFER_ADDR
  /-- SLC_XFER_LEN: 0x0020, 64 bits, PF0 BAR0 SLC block, per slice (spec/15_slices_and_tenants.md). -/
  | SLC_XFER_LEN
  /-- SLC_XFER_DONE: 0x0028, 64 bits, PF0 BAR0 SLC block, per slice (spec/15_slices_and_tenants.md). -/
  | SLC_XFER_DONE
  /-- SLC_LOG_RING: 0x0030, 64 bits, PF0 BAR0 SLC block, per slice (spec/15_slices_and_tenants.md). -/
  | SLC_LOG_RING
  /-- SLC_LOG_PTR: 0x0038, 64 bits, PF0 BAR0 SLC block, per slice (spec/15_slices_and_tenants.md). -/
  | SLC_LOG_PTR
  /-- SLC_LOG_STATUS: 0x0040, 64 bits, PF0 BAR0 SLC block, per slice (spec/15_slices_and_tenants.md). -/
  | SLC_LOG_STATUS
  /-- SLC_MSG: 0x0100 + 0x10 × m, 128 bits as two 64-bit words, PF0 BAR0 SLC block, per slice, 8 instances
  (spec/15_slices_and_tenants.md). -/
  | SLC_MSG
  /-- SLC_CREDIT_TOTAL: 0x00B0_0000, 32 bits, PF0 BAR0 SLC block, one per device (spec/15_slices_and_tenants.md). -/
  | SLC_CREDIT_TOTAL
  /-- SLC_DONE: 0x00B0_0100, 256 bits as four 64-bit words, PF0 BAR0 SLC block, one per device
  (spec/15_slices_and_tenants.md). -/
  | SLC_DONE
  /-- CORE_SCHED: 0x0240 + 8 × slot, 64 bits, PF0 BAR0 core window, per physical core, four instances
  (spec/15_slices_and_tenants.md). -/
  | CORE_SCHED
  /-- CORE_ND_COUNT: 0x0260 + 8 × slot, 64 bits, PF0 BAR0 core window, per physical core, four instances
  (spec/16_reproducibility.md). -/
  | CORE_ND_COUNT
  /-- SLC_ND_TOTAL: 0x0200, 64 bits, PF0 BAR0 SLC block, per slice (spec/16_reproducibility.md). -/
  | SLC_ND_TOTAL
  /-- SLC_ND_CLR: 0x0208, 32 bits, PF0 BAR0 SLC block, per slice (spec/16_reproducibility.md). -/
  | SLC_ND_CLR
  /-- CORE_DIGEST_PTR: 0x0280 + 8 × slot, 64 bits, PF0 BAR0 core window, per physical core, four instances
  (spec/16_reproducibility.md). -/
  | CORE_DIGEST_PTR
  /-- HLTH_CFG: 0x00C0_0000, 64 bits, PF0 BAR0 HLTH block, one per device (spec/17_errors_spares_health.md). -/
  | HLTH_CFG
  /-- HLTH_EVENT: 0x00C0_0008, 64 bits, PF0 BAR0 HLTH block, one per device (spec/17_errors_spares_health.md). -/
  | HLTH_EVENT
  /-- HLTH_VIGIL_RING: 0x00C0_0010, 64 bits, PF0 BAR0 HLTH block, one per device (spec/17_errors_spares_health.md). -/
  | HLTH_VIGIL_RING
  /-- HLTH_VIGIL_PTR: 0x00C0_0018, 64 bits, PF0 BAR0 HLTH block, one per device (spec/17_errors_spares_health.md). -/
  | HLTH_VIGIL_PTR
  /-- HLTH_VIGIL_REQ: 0x00C0_0020, 64 bits, PF0 BAR0 HLTH block, one per device (spec/17_errors_spares_health.md). -/
  | HLTH_VIGIL_REQ
  /-- HLTH_RATE: 0x00C0_0100 + 8 × g, 64 bits, PF0 BAR0 HLTH block, per retirement group, 42 instances
  (spec/17_errors_spares_health.md). -/
  | HLTH_RATE
  /-- HLTH_UNIT: 0x00C0_1000 + 8 × u, 64 bits, PF0 BAR0 HLTH block, per unit, 1,024 instances
  (spec/17_errors_spares_health.md). -/
  | HLTH_UNIT
  /-- HLTH_MON: 0x00C0_4000 + 8 × m, 64 bits, PF0 BAR0 HLTH block, per monitor index, 144 instances
  (spec/17_errors_spares_health.md). -/
  | HLTH_MON
  /-- HLTH_LINK: 0x00C0_5000 + 8 × d, 64 bits, PF0 BAR0 HLTH block, per compute die, 2 instances
  (spec/17_errors_spares_health.md). -/
  | HLTH_LINK
  /-- CLINK_PORT_STATUS: 0x0000, 64 bits, PF0 BAR0 CLINK block, per port (spec/18_citia_link_and_twin.md). -/
  | CLINK_PORT_STATUS
  /-- CLINK_PORT_CNT: 0x0008, 128 bits as two 64-bit words at 0x0008 and 0x0010, PF0 BAR0 CLINK block, per port
  (spec/18_citia_link_and_twin.md). -/
  | CLINK_PORT_CNT
  /-- CLINK_FENCE: 0x0018, 64 bits, PF0 BAR0 CLINK block, per port (spec/18_citia_link_and_twin.md). -/
  | CLINK_FENCE
  /-- CLINK_TIME: 0x0020, 64 bits, PF0 BAR0 CLINK block, per port (spec/18_citia_link_and_twin.md). -/
  | CLINK_TIME
  /-- CLINK_TWIN_STATUS: 0x0100, 64 bits, PF0 BAR0 CLINK block, per port (spec/18_citia_link_and_twin.md). -/
  | CLINK_TWIN_STATUS
  /-- CLINK_TWIN_CTL: 0x0108, 32 bits, PF0 BAR0 CLINK block, per port (spec/18_citia_link_and_twin.md). -/
  | CLINK_TWIN_CTL
  /-- CLINK_MIRROR_DUMP: 0x0110, 64 bits, PF0 BAR0 CLINK block, per port (spec/18_citia_link_and_twin.md). -/
  | CLINK_MIRROR_DUMP
  /-- CLINK_XQ: 0x1000 + 0x10 × q, 128 bits as two 64-bit words, PF0 BAR0 CLINK block, per port, 16 instances
  (spec/18_citia_link_and_twin.md). -/
  | CLINK_XQ
  /-- CLINK_GRANT: 0x2000 + 0x10 × g, 128 bits as two 64-bit words, PF0 BAR0 CLINK block, per port, 64 instances
  (spec/18_citia_link_and_twin.md). -/
  | CLINK_GRANT
  /-- CLINK_GROUP_CFG: 0x0082_0000, 64 bits, PF0 BAR0 CLINK block, one per device (spec/18_citia_link_and_twin.md). -/
  | CLINK_GROUP_CFG
  /-- CLINK_GROUP_MEMBERS: 0x0082_0008, 128 bits as two 64-bit words, PF0 BAR0 CLINK block, one per device
  (spec/18_citia_link_and_twin.md). -/
  | CLINK_GROUP_MEMBERS
  /-- CLINK_ARRIVAL: 0x0082_1000 + 8 × m, 64 bits, PF0 BAR0 CLINK block, per member, 64 instances
  (spec/18_citia_link_and_twin.md). -/
  | CLINK_ARRIVAL
  /-- DEV_BAD_ACCESS: 0x0000_0010, 64 bits, PF0 BAR0 DEV block, one per device (spec/19_host_boot_security.md). -/
  | DEV_BAD_ACCESS
  /-- DEV_RESET: 0x0000_0008, 32 bits, PF0 BAR0 DEV block, one per device (spec/19_host_boot_security.md). -/
  | DEV_RESET
  /-- ONYX_BOOT_CTL: 0x0020_0000, 32 bits, PF0 BAR0 ONYX block, one per device (spec/19_host_boot_security.md). -/
  | ONYX_BOOT_CTL
  /-- ONYX_BOOT_STATUS: 0x0020_0008, 64 bits, PF0 BAR0 ONYX block, one per device (spec/19_host_boot_security.md). -/
  | ONYX_BOOT_STATUS
  /-- ONYX_SVN: 0x0020_0010, 32 bits, PF0 BAR0 ONYX block, one per device (spec/19_host_boot_security.md). -/
  | ONYX_SVN
  /-- DEV_STATUS: 0x0000_0000, 64 bits, PF0 BAR0 DEV block, one per device (spec/19_host_boot_security.md). -/
  | DEV_STATUS
  /-- ONYX_ID_HASH: 0x0020_0020, 256 bits as four 64-bit words at 0x0020_0020, 0x0020_0028, 0x0020_0030 and
  0x0020_0038, PF0 BAR0 ONYX block, one per device (spec/19_host_boot_security.md). -/
  | ONYX_ID_HASH
  /-- ONYX_KEY_SLOT: 0x0020_0100 + 0x40 × k, 512 bits as eight 64-bit words, PF0 BAR0 ONYX block, per slot, 4
  instances (spec/19_host_boot_security.md). -/
  | ONYX_KEY_SLOT
  /-- ONYX_ENROL_ADDR: 0x0020_0040, 64 bits, PF0 BAR0 ONYX block, one per device (spec/19_host_boot_security.md). -/
  | ONYX_ENROL_ADDR
  /-- ONYX_ENROL_CTL: 0x0020_0048, 32 bits, PF0 BAR0 ONYX block, one per device (spec/19_host_boot_security.md). -/
  | ONYX_ENROL_CTL
  /-- DEV_INFO: 0x0000_0018, 64 bits, PF0 BAR0 DEV block, one per device (spec/20_register_summary.md). -/
  | DEV_INFO
  /-- DEV_SCRATCH: 0x0000_0020, 64 bits, PF0 BAR0 DEV block, one per device (spec/20_register_summary.md). -/
  | DEV_SCRATCH
deriving DecidableEq, Repr

/-- The number under which the register file keeps a register. -/
def Reg.code : Reg → Nat
  | .CORE_IDENT => 0
  | .CLU_CORE_MAP => 1
  | .DEV_APERTURE_BASE => 2
  | .TIME_TICK_STATUS => 3
  | .TIME_TICK_NUMBER => 4
  | .TIME_TICK_BASE => 5
  | .CORE_LEASE_CFG => 6
  | .GAR_MAX_INSTR_TIME => 7
  | .CORE_TICK_OVERRUN => 8
  | .CORE_LEASE_STATUS => 9
  | .CORE_RADIO_SPILL => 10
  | .CUT_LOAD_ADDR => 11
  | .CUT_CTL => 12
  | .CUT_STATUS => 13
  | .CUT_GEN => 14
  | .CUT_STAGED_TICK => 15
  | .CUT_EVENT => 16
  | .CUT_CHAIN_DIGEST => 17
  | .CORE_CTX_STATE => 18
  | .SYNC_OBJ => 19
  | .SYNC_CTL => 20
  | .PORTAL_CREDITS => 21
  | .PORTAL_STATUS => 22
  | .PORTAL_CREDIT_MIRROR => 23
  | .PORTAL_ERR_RING => 24
  | .PORTAL_ERR_PTR => 25
  | .GAR_ISSUE_CTL => 26
  | .GAR_BANK_STATE => 27
  | .GAR_FAULT => 28
  | .GAR_STREAM_CYCLES => 29
  | .GAR_BUBBLE_CYCLES => 30
  | .GAR_SAT_COUNT => 31
  | .OPAL_INFLIGHT => 32
  | .OPAL_EVENTS => 33
  | .CORE_VAULT_ECC => 34
  | .CORE_VAULT_SPARE => 35
  | .CORE_SPM_ECC => 36
  | .CORE_SPM_OWNER => 37
  | .CLU_CLM_GRANULE => 38
  | .CLU_CLM_ECC => 39
  | .CORE_VAULT_PAGE => 40
  | .CORE_CTX_CMD => 41
  | .PORTAL_OUT_RING => 42
  | .PORTAL_OUT_PTR => 43
  | .PORTAL_OUT_COAL => 44
  | .PORTAL_SEQ_CREDITS => 45
  | .PORTAL_STEP_BIND => 46
  | .PORTAL_SEQ_STATUS => 47
  | .LAMP_STATUS => 48
  | .LAMP_TOKEN_COUNT => 49
  | .LAMP_CTX_CFG => 50
  | .LAMP_CTX_EVENT => 51
  | .LAMP_SEQ_SEL => 52
  | .LAMP_SEQ_WINDOW => 53
  | .LAMP_SLICE_CFG => 54
  | .BER_STATUS => 55
  | .BER_SAT => 56
  | .BER_FAULT => 57
  | .BER_VALID => 58
  | .BER_ISSUE => 59
  | .BER_STALL => 60
  | .CLU_CELL_CFG_ADDR => 61
  | .CLU_CELL_CMD => 62
  | .CLU_CELL_STATE => 63
  | .CLU_LANT_CTL => 64
  | .CLU_CELL_RING_PTR => 65
  | .CLU_CELL_CNT => 66
  | .JSP_RING_STATE => 67
  | .JSP_ENGINE => 68
  | .JSP_CNT => 69
  | .FIFO_CFG => 70
  | .FIFO_STATUS => 71
  | .FIFO_CMD => 72
  | .FH_IF_STATUS => 73
  | .FH_IF_CNT => 74
  | .FH_LATE_TOLERANCE => 75
  | .FH_LATE_DROP => 76
  | .FH_GATE_CTL => 77
  | .FH_GATE_BASE => 78
  | .FH_GATE_STATUS => 79
  | .FH_GATE_LIST => 80
  | .FH_HOST_RING => 81
  | .FH_HOST_PTR => 82
  | .FH_SHAPER => 83
  | .FH_HIST_SEL => 84
  | .FH_HIST_WINDOW => 85
  | .TIME_NOW => 86
  | .TIME_TOTAL => 87
  | .TIME_INCREMENT => 88
  | .TIME_ADJ_VALUE => 89
  | .TIME_ADJ_CTL => 90
  | .TIME_STATUS => 91
  | .TIME_PPS_CTL => 92
  | .TIME_PPS_IN => 93
  | .TIME_SYNCE_CTL => 94
  | .SLC_CFG => 95
  | .SLC_STATE => 96
  | .SLC_CMD => 97
  | .SLC_XFER_ADDR => 98
  | .SLC_XFER_LEN => 99
  | .SLC_XFER_DONE => 100
  | .SLC_LOG_RING => 101
  | .SLC_LOG_PTR => 102
  | .SLC_LOG_STATUS => 103
  | .SLC_MSG => 104
  | .SLC_CREDIT_TOTAL => 105
  | .SLC_DONE => 106
  | .CORE_SCHED => 107
  | .CORE_ND_COUNT => 108
  | .SLC_ND_TOTAL => 109
  | .SLC_ND_CLR => 110
  | .CORE_DIGEST_PTR => 111
  | .HLTH_CFG => 112
  | .HLTH_EVENT => 113
  | .HLTH_VIGIL_RING => 114
  | .HLTH_VIGIL_PTR => 115
  | .HLTH_VIGIL_REQ => 116
  | .HLTH_RATE => 117
  | .HLTH_UNIT => 118
  | .HLTH_MON => 119
  | .HLTH_LINK => 120
  | .CLINK_PORT_STATUS => 121
  | .CLINK_PORT_CNT => 122
  | .CLINK_FENCE => 123
  | .CLINK_TIME => 124
  | .CLINK_TWIN_STATUS => 125
  | .CLINK_TWIN_CTL => 126
  | .CLINK_MIRROR_DUMP => 127
  | .CLINK_XQ => 128
  | .CLINK_GRANT => 129
  | .CLINK_GROUP_CFG => 130
  | .CLINK_GROUP_MEMBERS => 131
  | .CLINK_ARRIVAL => 132
  | .DEV_BAD_ACCESS => 133
  | .DEV_RESET => 134
  | .ONYX_BOOT_CTL => 135
  | .ONYX_BOOT_STATUS => 136
  | .ONYX_SVN => 137
  | .DEV_STATUS => 138
  | .ONYX_ID_HASH => 139
  | .ONYX_KEY_SLOT => 140
  | .ONYX_ENROL_ADDR => 141
  | .ONYX_ENROL_CTL => 142
  | .DEV_INFO => 143
  | .DEV_SCRATCH => 144

/-- The width of a register in bits. -/
def Reg.width : Reg → Nat
  | .CORE_IDENT => 64
  | .CLU_CORE_MAP => 64
  | .DEV_APERTURE_BASE => 64
  | .TIME_TICK_STATUS => 64
  | .TIME_TICK_NUMBER => 64
  | .TIME_TICK_BASE => 128
  | .CORE_LEASE_CFG => 64
  | .GAR_MAX_INSTR_TIME => 32
  | .CORE_TICK_OVERRUN => 64
  | .CORE_LEASE_STATUS => 64
  | .CORE_RADIO_SPILL => 32
  | .CUT_LOAD_ADDR => 64
  | .CUT_CTL => 32
  | .CUT_STATUS => 64
  | .CUT_GEN => 64
  | .CUT_STAGED_TICK => 64
  | .CUT_EVENT => 32
  | .CUT_CHAIN_DIGEST => 256
  | .CORE_CTX_STATE => 64
  | .SYNC_OBJ => 128
  | .SYNC_CTL => 32
  | .PORTAL_CREDITS => 64
  | .PORTAL_STATUS => 64
  | .PORTAL_CREDIT_MIRROR => 64
  | .PORTAL_ERR_RING => 64
  | .PORTAL_ERR_PTR => 64
  | .GAR_ISSUE_CTL => 32
  | .GAR_BANK_STATE => 64
  | .GAR_FAULT => 64
  | .GAR_STREAM_CYCLES => 64
  | .GAR_BUBBLE_CYCLES => 64
  | .GAR_SAT_COUNT => 64
  | .OPAL_INFLIGHT => 64
  | .OPAL_EVENTS => 64
  | .CORE_VAULT_ECC => 64
  | .CORE_VAULT_SPARE => 64
  | .CORE_SPM_ECC => 64
  | .CORE_SPM_OWNER => 64
  | .CLU_CLM_GRANULE => 32
  | .CLU_CLM_ECC => 64
  | .CORE_VAULT_PAGE => 64
  | .CORE_CTX_CMD => 32
  | .PORTAL_OUT_RING => 64
  | .PORTAL_OUT_PTR => 64
  | .PORTAL_OUT_COAL => 32
  | .PORTAL_SEQ_CREDITS => 64
  | .PORTAL_STEP_BIND => 64
  | .PORTAL_SEQ_STATUS => 64
  | .LAMP_STATUS => 64
  | .LAMP_TOKEN_COUNT => 64
  | .LAMP_CTX_CFG => 32
  | .LAMP_CTX_EVENT => 64
  | .LAMP_SEQ_SEL => 32
  | .LAMP_SEQ_WINDOW => 5120
  | .LAMP_SLICE_CFG => 64
  | .BER_STATUS => 64
  | .BER_SAT => 64
  | .BER_FAULT => 64
  | .BER_VALID => 128
  | .BER_ISSUE => 64
  | .BER_STALL => 64
  | .CLU_CELL_CFG_ADDR => 64
  | .CLU_CELL_CMD => 32
  | .CLU_CELL_STATE => 64
  | .CLU_LANT_CTL => 64
  | .CLU_CELL_RING_PTR => 64
  | .CLU_CELL_CNT => 128
  | .JSP_RING_STATE => 64
  | .JSP_ENGINE => 64
  | .JSP_CNT => 128
  | .FIFO_CFG => 32
  | .FIFO_STATUS => 64
  | .FIFO_CMD => 32
  | .FH_IF_STATUS => 64
  | .FH_IF_CNT => 256
  | .FH_LATE_TOLERANCE => 32
  | .FH_LATE_DROP => 64
  | .FH_GATE_CTL => 64
  | .FH_GATE_BASE => 64
  | .FH_GATE_STATUS => 64
  | .FH_GATE_LIST => 64
  | .FH_HOST_RING => 64
  | .FH_HOST_PTR => 64
  | .FH_SHAPER => 64
  | .FH_HIST_SEL => 32
  | .FH_HIST_WINDOW => 1024
  | .TIME_NOW => 128
  | .TIME_TOTAL => 64
  | .TIME_INCREMENT => 64
  | .TIME_ADJ_VALUE => 128
  | .TIME_ADJ_CTL => 32
  | .TIME_STATUS => 64
  | .TIME_PPS_CTL => 32
  | .TIME_PPS_IN => 128
  | .TIME_SYNCE_CTL => 32
  | .SLC_CFG => 64
  | .SLC_STATE => 64
  | .SLC_CMD => 32
  | .SLC_XFER_ADDR => 64
  | .SLC_XFER_LEN => 64
  | .SLC_XFER_DONE => 64
  | .SLC_LOG_RING => 64
  | .SLC_LOG_PTR => 64
  | .SLC_LOG_STATUS => 64
  | .SLC_MSG => 128
  | .SLC_CREDIT_TOTAL => 32
  | .SLC_DONE => 256
  | .CORE_SCHED => 64
  | .CORE_ND_COUNT => 64
  | .SLC_ND_TOTAL => 64
  | .SLC_ND_CLR => 32
  | .CORE_DIGEST_PTR => 64
  | .HLTH_CFG => 64
  | .HLTH_EVENT => 64
  | .HLTH_VIGIL_RING => 64
  | .HLTH_VIGIL_PTR => 64
  | .HLTH_VIGIL_REQ => 64
  | .HLTH_RATE => 64
  | .HLTH_UNIT => 64
  | .HLTH_MON => 64
  | .HLTH_LINK => 64
  | .CLINK_PORT_STATUS => 64
  | .CLINK_PORT_CNT => 128
  | .CLINK_FENCE => 64
  | .CLINK_TIME => 64
  | .CLINK_TWIN_STATUS => 64
  | .CLINK_TWIN_CTL => 32
  | .CLINK_MIRROR_DUMP => 64
  | .CLINK_XQ => 128
  | .CLINK_GRANT => 128
  | .CLINK_GROUP_CFG => 64
  | .CLINK_GROUP_MEMBERS => 128
  | .CLINK_ARRIVAL => 64
  | .DEV_BAD_ACCESS => 64
  | .DEV_RESET => 32
  | .ONYX_BOOT_CTL => 32
  | .ONYX_BOOT_STATUS => 64
  | .ONYX_SVN => 32
  | .DEV_STATUS => 64
  | .ONYX_ID_HASH => 256
  | .ONYX_KEY_SLOT => 512
  | .ONYX_ENROL_ADDR => 64
  | .ONYX_ENROL_CTL => 32
  | .DEV_INFO => 64
  | .DEV_SCRATCH => 64

/-- One field: its register, lowest bit, width, access type and reset value. -/
structure Fld where
  reg : Reg
  lo : Nat
  width : Nat
  access : Access
  reset : Nat
deriving DecidableEq, Repr

namespace F

def CORE_IDENT_phys_core : Fld := ⟨.CORE_IDENT, 0, 9, .ro, 0⟩
def CORE_IDENT_slot : Fld := ⟨.CORE_IDENT, 12, 4, .ro, 0⟩
def CORE_IDENT_cluster : Fld := ⟨.CORE_IDENT, 16, 5, .ro, 0⟩
def CORE_IDENT_logical_core : Fld := ⟨.CORE_IDENT, 24, 8, .ro, 0⟩
def CORE_IDENT_state : Fld := ⟨.CORE_IDENT, 32, 2, .ro, 0⟩
def CLU_CORE_MAP_core_slot_map : Fld := ⟨.CLU_CORE_MAP, 0, 32, .ro, 0x76543210⟩
def CLU_CORE_MAP_spare_core_slot : Fld := ⟨.CLU_CORE_MAP, 32, 4, .ro, 8⟩
def CLU_CORE_MAP_retired_cores : Fld := ⟨.CLU_CORE_MAP, 36, 9, .ro, 0⟩
def CLU_CORE_MAP_jsp_of_l0 : Fld := ⟨.CLU_CORE_MAP, 45, 2, .ro, 0⟩
def CLU_CORE_MAP_jsp_of_l1 : Fld := ⟨.CLU_CORE_MAP, 47, 2, .ro, 1⟩
def CLU_CORE_MAP_lantern_phys : Fld := ⟨.CLU_CORE_MAP, 49, 1, .ro, 0⟩
def DEV_APERTURE_BASE_base_gib : Fld := ⟨.DEV_APERTURE_BASE, 30, 9, .rw, 0⟩
def TIME_TICK_STATUS_period_code : Fld := ⟨.TIME_TICK_STATUS, 0, 3, .ro, 2⟩
def TIME_TICK_STATUS_period_pending : Fld := ⟨.TIME_TICK_STATUS, 8, 1, .ro, 0⟩
def TIME_TICK_STATUS_pending_code : Fld := ⟨.TIME_TICK_STATUS, 9, 3, .ro, 0⟩
def TIME_TICK_NUMBER_tick_number : Fld := ⟨.TIME_TICK_NUMBER, 0, 48, .ro, 0⟩
def TIME_TICK_BASE_base_ns : Fld := ⟨.TIME_TICK_BASE, 0, 64, .ro, 0⟩
def TIME_TICK_BASE_base_tick : Fld := ⟨.TIME_TICK_BASE, 64, 48, .ro, 0⟩
def CORE_LEASE_CFG_radio_start : Fld := ⟨.CORE_LEASE_CFG, 0, 12, .ro, 0⟩
def CORE_LEASE_CFG_radio_len : Fld := ⟨.CORE_LEASE_CFG, 16, 12, .ro, 0⟩
def CORE_LEASE_CFG_garnet_radio : Fld := ⟨.CORE_LEASE_CFG, 28, 1, .ro, 0⟩
def GAR_MAX_INSTR_TIME_limit_cycles : Fld := ⟨.GAR_MAX_INSTR_TIME, 0, 16, .rw, 1400⟩
def CORE_TICK_OVERRUN_count : Fld := ⟨.CORE_TICK_OVERRUN, 0, 32, .ro, 0⟩
def CORE_TICK_OVERRUN_last_slot : Fld := ⟨.CORE_TICK_OVERRUN, 32, 3, .ro, 0⟩
def CORE_TICK_OVERRUN_last_torn_down : Fld := ⟨.CORE_TICK_OVERRUN, 35, 1, .ro, 0⟩
def CORE_LEASE_STATUS_phase : Fld := ⟨.CORE_LEASE_STATUS, 0, 2, .ro, 0⟩
def CORE_LEASE_STATUS_handed_back : Fld := ⟨.CORE_LEASE_STATUS, 2, 1, .ro, 0⟩
def CORE_LEASE_STATUS_rental_slot : Fld := ⟨.CORE_LEASE_STATUS, 3, 3, .ro, 7⟩
def CORE_LEASE_STATUS_last_yield_cycles : Fld := ⟨.CORE_LEASE_STATUS, 16, 11, .ro, 0⟩
def CORE_RADIO_SPILL_count : Fld := ⟨.CORE_RADIO_SPILL, 0, 32, .ro, 0⟩
def CUT_LOAD_ADDR_addr_4k : Fld := ⟨.CUT_LOAD_ADDR, 12, 52, .rw, 0⟩
def CUT_CTL_len : Fld := ⟨.CUT_CTL, 0, 21, .rw, 0⟩
def CUT_CTL_load : Fld := ⟨.CUT_CTL, 24, 1, .wo, 0⟩
def CUT_CTL_cancel : Fld := ⟨.CUT_CTL, 25, 1, .wo, 0⟩
def CUT_STATUS_state : Fld := ⟨.CUT_STATUS, 0, 2, .ro, 0⟩
def CUT_STATUS_active_valid : Fld := ⟨.CUT_STATUS, 2, 1, .ro, 0⟩
def CUT_STATUS_last_result : Fld := ⟨.CUT_STATUS, 8, 8, .ro, 0⟩
def CUT_STATUS_last_section : Fld := ⟨.CUT_STATUS, 16, 8, .ro, 255⟩
def CUT_STATUS_last_entry : Fld := ⟨.CUT_STATUS, 24, 16, .ro, 0xffff⟩
def CUT_GEN_generation : Fld := ⟨.CUT_GEN, 0, 64, .ro, 0⟩
def CUT_STAGED_TICK_apply_tick : Fld := ⟨.CUT_STAGED_TICK, 0, 48, .ro, 0⟩
def CUT_EVENT_applied : Fld := ⟨.CUT_EVENT, 0, 1, .w1c, 0⟩
def CUT_EVENT_rejected : Fld := ⟨.CUT_EVENT, 1, 1, .w1c, 0⟩
def CUT_EVENT_cancelled : Fld := ⟨.CUT_EVENT, 2, 1, .w1c, 0⟩
def CUT_CHAIN_DIGEST_digest : Fld := ⟨.CUT_CHAIN_DIGEST, 0, 256, .ro, 0⟩
def CORE_CTX_STATE_owner : Fld := ⟨.CORE_CTX_STATE, 0, 9, .ro, 511⟩
def CORE_CTX_STATE_state : Fld := ⟨.CORE_CTX_STATE, 12, 2, .ro, 0⟩
def CORE_CTX_STATE_gar_queued : Fld := ⟨.CORE_CTX_STATE, 16, 7, .ro, 0⟩
def CORE_CTX_STATE_ber_queued : Fld := ⟨.CORE_CTX_STATE, 24, 7, .ro, 0⟩
def CORE_CTX_STATE_opal_queued : Fld := ⟨.CORE_CTX_STATE, 32, 7, .ro, 0⟩
def CORE_CTX_STATE_ctl_queued : Fld := ⟨.CORE_CTX_STATE, 40, 7, .ro, 0⟩
def SYNC_OBJ_value : Fld := ⟨.SYNC_OBJ, 0, 32, .rw, 0⟩
def SYNC_OBJ_owner : Fld := ⟨.SYNC_OBJ, 32, 9, .rw, 511⟩
def SYNC_OBJ_broken : Fld := ⟨.SYNC_OBJ, 41, 1, .w1c, 0⟩
def SYNC_OBJ_waiters : Fld := ⟨.SYNC_OBJ, 64, 16, .ro, 0⟩
def SYNC_OBJ_ops : Fld := ⟨.SYNC_OBJ, 96, 32, .ro, 0⟩
def SYNC_CTL_wait_limit_ms : Fld := ⟨.SYNC_CTL, 0, 16, .rw, 1000⟩
def PORTAL_CREDITS_available : Fld := ⟨.PORTAL_CREDITS, 0, 16, .ro, 0⟩
def PORTAL_CREDITS_limit : Fld := ⟨.PORTAL_CREDITS, 16, 16, .ro, 0⟩
def PORTAL_CREDITS_returned : Fld := ⟨.PORTAL_CREDITS, 32, 32, .ro, 0⟩
def PORTAL_STATUS_accepted : Fld := ⟨.PORTAL_STATUS, 0, 32, .ro, 0⟩
def PORTAL_STATUS_dropped_no_credit : Fld := ⟨.PORTAL_STATUS, 32, 16, .ro, 0⟩
def PORTAL_STATUS_bad_write : Fld := ⟨.PORTAL_STATUS, 48, 8, .ro, 0⟩
def PORTAL_STATUS_err_lost : Fld := ⟨.PORTAL_STATUS, 56, 8, .ro, 0⟩
def PORTAL_CREDIT_MIRROR_enable : Fld := ⟨.PORTAL_CREDIT_MIRROR, 0, 1, .rw, 0⟩
def PORTAL_CREDIT_MIRROR_addr : Fld := ⟨.PORTAL_CREDIT_MIRROR, 3, 61, .rw, 0⟩
def PORTAL_ERR_RING_size_code : Fld := ⟨.PORTAL_ERR_RING, 0, 4, .rw, 0⟩
def PORTAL_ERR_RING_base_4k : Fld := ⟨.PORTAL_ERR_RING, 12, 52, .rw, 0⟩
def PORTAL_ERR_PTR_head : Fld := ⟨.PORTAL_ERR_PTR, 0, 32, .ro, 0⟩
def PORTAL_ERR_PTR_tail : Fld := ⟨.PORTAL_ERR_PTR, 32, 32, .rw, 0⟩
def GAR_ISSUE_CTL_rental_hold : Fld := ⟨.GAR_ISSUE_CTL, 0, 1, .rw, 0⟩
def GAR_ISSUE_CTL_held : Fld := ⟨.GAR_ISSUE_CTL, 1, 1, .ro, 0⟩
def GAR_BANK_STATE_w0_state : Fld := ⟨.GAR_BANK_STATE, 0, 3, .ro, 0⟩
def GAR_BANK_STATE_w0_poison : Fld := ⟨.GAR_BANK_STATE, 3, 1, .ro, 0⟩
def GAR_BANK_STATE_w1_state : Fld := ⟨.GAR_BANK_STATE, 4, 3, .ro, 0⟩
def GAR_BANK_STATE_w1_poison : Fld := ⟨.GAR_BANK_STATE, 7, 1, .ro, 0⟩
def GAR_BANK_STATE_e0_state : Fld := ⟨.GAR_BANK_STATE, 8, 3, .ro, 0⟩
def GAR_BANK_STATE_e0_poison : Fld := ⟨.GAR_BANK_STATE, 11, 1, .ro, 0⟩
def GAR_BANK_STATE_e1_state : Fld := ⟨.GAR_BANK_STATE, 12, 3, .ro, 0⟩
def GAR_BANK_STATE_e1_poison : Fld := ⟨.GAR_BANK_STATE, 15, 1, .ro, 0⟩
def GAR_BANK_STATE_half_mode : Fld := ⟨.GAR_BANK_STATE, 16, 1, .ro, 0⟩
def GAR_BANK_STATE_bank0_slot : Fld := ⟨.GAR_BANK_STATE, 17, 3, .ro, 7⟩
def GAR_BANK_STATE_bank1_slot : Fld := ⟨.GAR_BANK_STATE, 20, 3, .ro, 7⟩
def GAR_FAULT_west_faults : Fld := ⟨.GAR_FAULT, 0, 16, .ro, 0⟩
def GAR_FAULT_east_faults : Fld := ⟨.GAR_FAULT, 16, 16, .ro, 0⟩
def GAR_FAULT_poison_in : Fld := ⟨.GAR_FAULT, 32, 16, .ro, 0⟩
def GAR_FAULT_last_slot : Fld := ⟨.GAR_FAULT, 48, 3, .ro, 7⟩
def GAR_FAULT_last_half : Fld := ⟨.GAR_FAULT, 51, 2, .ro, 0⟩
def GAR_STREAM_CYCLES_count : Fld := ⟨.GAR_STREAM_CYCLES, 0, 64, .ro, 0⟩
def GAR_BUBBLE_CYCLES_count : Fld := ⟨.GAR_BUBBLE_CYCLES, 0, 64, .ro, 0⟩
def GAR_SAT_COUNT_accum_sat : Fld := ⟨.GAR_SAT_COUNT, 0, 16, .ro, 0⟩
def GAR_SAT_COUNT_drain_sat : Fld := ⟨.GAR_SAT_COUNT, 16, 16, .ro, 0⟩
def GAR_SAT_COUNT_drain_special : Fld := ⟨.GAR_SAT_COUNT, 32, 16, .ro, 0⟩
def GAR_SAT_COUNT_last_slot : Fld := ⟨.GAR_SAT_COUNT, 48, 3, .ro, 7⟩
def OPAL_INFLIGHT_rental : Fld := ⟨.OPAL_INFLIGHT, 0, 9, .ro, 0⟩
def OPAL_INFLIGHT_radio : Fld := ⟨.OPAL_INFLIGHT, 16, 7, .ro, 0⟩
def OPAL_INFLIGHT_ordered_wait : Fld := ⟨.OPAL_INFLIGHT, 24, 11, .ro, 0⟩
def OPAL_EVENTS_poison_lines : Fld := ⟨.OPAL_EVENTS, 0, 16, .ro, 0⟩
def OPAL_EVENTS_index_oob : Fld := ⟨.OPAL_EVENTS, 16, 16, .ro, 0⟩
def OPAL_EVENTS_ordered_retry : Fld := ⟨.OPAL_EVENTS, 32, 16, .ro, 0⟩
def OPAL_EVENTS_serial_runs : Fld := ⟨.OPAL_EVENTS, 48, 16, .ro, 0⟩
def CORE_VAULT_ECC_corrected : Fld := ⟨.CORE_VAULT_ECC, 0, 24, .ro, 0⟩
def CORE_VAULT_ECC_uncorrected : Fld := ⟨.CORE_VAULT_ECC, 24, 16, .ro, 0⟩
def CORE_VAULT_ECC_poison_reads : Fld := ⟨.CORE_VAULT_ECC, 40, 16, .ro, 0⟩
def CORE_VAULT_SPARE_rows_remapped : Fld := ⟨.CORE_VAULT_SPARE, 0, 13, .ro, 0⟩
def CORE_VAULT_SPARE_banks_remapped : Fld := ⟨.CORE_VAULT_SPARE, 16, 8, .ro, 0⟩
def CORE_VAULT_SPARE_bank_copy : Fld := ⟨.CORE_VAULT_SPARE, 24, 1, .ro, 0⟩
def CORE_VAULT_SPARE_scrub_passes : Fld := ⟨.CORE_VAULT_SPARE, 32, 16, .ro, 0⟩
def CORE_SPM_ECC_corrected : Fld := ⟨.CORE_SPM_ECC, 0, 24, .ro, 0⟩
def CORE_SPM_ECC_uncorrected : Fld := ⟨.CORE_SPM_ECC, 24, 16, .ro, 0⟩
def CORE_SPM_OWNER_granules : Fld := ⟨.CORE_SPM_OWNER, 0, 64, .ro, 0⟩
def CLU_CLM_GRANULE_owner : Fld := ⟨.CLU_CLM_GRANULE, 0, 9, .ro, 511⟩
def CLU_CLM_GRANULE_zeroing : Fld := ⟨.CLU_CLM_GRANULE, 9, 1, .ro, 0⟩
def CLU_CLM_ECC_corrected : Fld := ⟨.CLU_CLM_ECC, 0, 24, .ro, 0⟩
def CLU_CLM_ECC_uncorrected : Fld := ⟨.CLU_CLM_ECC, 24, 16, .ro, 0⟩
def CLU_CLM_ECC_ordered_wait : Fld := ⟨.CLU_CLM_ECC, 40, 11, .ro, 0⟩
def CORE_VAULT_PAGE_owner : Fld := ⟨.CORE_VAULT_PAGE, 0, 9, .rw, 511⟩
def CORE_VAULT_PAGE_others_rd : Fld := ⟨.CORE_VAULT_PAGE, 9, 1, .rw, 0⟩
def CORE_VAULT_PAGE_others_wr : Fld := ⟨.CORE_VAULT_PAGE, 10, 1, .rw, 0⟩
def CORE_CTX_CMD_slot : Fld := ⟨.CORE_CTX_CMD, 0, 2, .wo, 0⟩
def CORE_CTX_CMD_op : Fld := ⟨.CORE_CTX_CMD, 2, 2, .wo, 0⟩
def CORE_CTX_CMD_busy : Fld := ⟨.CORE_CTX_CMD, 8, 1, .ro, 0⟩
def CORE_CTX_CMD_last_result : Fld := ⟨.CORE_CTX_CMD, 9, 3, .ro, 0⟩
def PORTAL_OUT_RING_size_code : Fld := ⟨.PORTAL_OUT_RING, 0, 4, .rw, 0⟩
def PORTAL_OUT_RING_base_4k : Fld := ⟨.PORTAL_OUT_RING, 12, 52, .rw, 0⟩
def PORTAL_OUT_PTR_head : Fld := ⟨.PORTAL_OUT_PTR, 0, 32, .ro, 0⟩
def PORTAL_OUT_PTR_tail : Fld := ⟨.PORTAL_OUT_PTR, 32, 32, .rw, 0⟩
def PORTAL_OUT_COAL_coal_records : Fld := ⟨.PORTAL_OUT_COAL, 0, 12, .rw, 0⟩
def PORTAL_OUT_COAL_coal_us : Fld := ⟨.PORTAL_OUT_COAL, 16, 12, .rw, 0⟩
def PORTAL_SEQ_CREDITS_seq_available : Fld := ⟨.PORTAL_SEQ_CREDITS, 0, 5, .ro, 16⟩
def PORTAL_SEQ_CREDITS_seq_dropped : Fld := ⟨.PORTAL_SEQ_CREDITS, 16, 16, .ro, 0⟩
def PORTAL_SEQ_CREDITS_seq_bad_write : Fld := ⟨.PORTAL_SEQ_CREDITS, 32, 16, .ro, 0⟩
def PORTAL_SEQ_CREDITS_stall_events : Fld := ⟨.PORTAL_SEQ_CREDITS, 48, 16, .ro, 0⟩
def PORTAL_STEP_BIND_table : Fld := ⟨.PORTAL_STEP_BIND, 6, 38, .rw, 0⟩
def PORTAL_SEQ_STATUS_bind_result : Fld := ⟨.PORTAL_SEQ_STATUS, 0, 8, .ro, 0⟩
def PORTAL_SEQ_STATUS_live : Fld := ⟨.PORTAL_SEQ_STATUS, 8, 13, .ro, 0⟩
def LAMP_STATUS_live : Fld := ⟨.LAMP_STATUS, 0, 13, .ro, 0⟩
def LAMP_STATUS_steps_in_flight : Fld := ⟨.LAMP_STATUS, 16, 5, .ro, 0⟩
def LAMP_STATUS_steps : Fld := ⟨.LAMP_STATUS, 32, 32, .ro, 0⟩
def LAMP_TOKEN_COUNT_emitted : Fld := ⟨.LAMP_TOKEN_COUNT, 0, 40, .ro, 0⟩
def LAMP_TOKEN_COUNT_drafts_accepted : Fld := ⟨.LAMP_TOKEN_COUNT, 40, 24, .ro, 0⟩
def LAMP_CTX_CFG_detect_us : Fld := ⟨.LAMP_CTX_CFG, 0, 10, .rw, 10⟩
def LAMP_CTX_CFG_idle_us : Fld := ⟨.LAMP_CTX_CFG, 16, 16, .rw, 1000⟩
def LAMP_CTX_EVENT_all_blocked : Fld := ⟨.LAMP_CTX_EVENT, 0, 1, .w1c, 0⟩
def LAMP_CTX_EVENT_core : Fld := ⟨.LAMP_CTX_EVENT, 8, 8, .ro, 0⟩
def LAMP_CTX_EVENT_auto_evictions : Fld := ⟨.LAMP_CTX_EVENT, 16, 16, .ro, 0⟩
def LAMP_CTX_EVENT_blocked_events : Fld := ⟨.LAMP_CTX_EVENT, 32, 16, .ro, 0⟩
def LAMP_SEQ_SEL_index : Fld := ⟨.LAMP_SEQ_SEL, 0, 12, .rw, 0⟩
def LAMP_SEQ_WINDOW_entry : Fld := ⟨.LAMP_SEQ_WINDOW, 0, 5120, .ro, 0⟩
def LAMP_SLICE_CFG_seq_limit : Fld := ⟨.LAMP_SLICE_CFG, 0, 13, .rw, 0⟩
def BER_STATUS_bank : Fld := ⟨.BER_STATUS, 0, 1, .ro, 1⟩
def BER_STATUS_run0 : Fld := ⟨.BER_STATUS, 1, 1, .ro, 0⟩
def BER_STATUS_run1 : Fld := ⟨.BER_STATUS, 2, 1, .ro, 0⟩
def BER_STATUS_rental_slot : Fld := ⟨.BER_STATUS, 3, 3, .ro, 7⟩
def BER_STATUS_poison0 : Fld := ⟨.BER_STATUS, 6, 1, .ro, 0⟩
def BER_STATUS_poison1 : Fld := ⟨.BER_STATUS, 7, 1, .ro, 0⟩
def BER_STATUS_pc0 : Fld := ⟨.BER_STATUS, 8, 12, .ro, 0⟩
def BER_STATUS_pc1 : Fld := ⟨.BER_STATUS, 20, 12, .ro, 0⟩
def BER_SAT_acc_sat : Fld := ⟨.BER_SAT, 0, 16, .ro, 0⟩
def BER_SAT_int_sat : Fld := ⟨.BER_SAT, 16, 16, .ro, 0⟩
def BER_SAT_special : Fld := ⟨.BER_SAT, 32, 16, .ro, 0⟩
def BER_SAT_last_slot : Fld := ⟨.BER_SAT, 48, 3, .ro, 7⟩
def BER_FAULT_corrected : Fld := ⟨.BER_FAULT, 0, 16, .ro, 0⟩
def BER_FAULT_uncorrected : Fld := ⟨.BER_FAULT, 16, 16, .ro, 0⟩
def BER_FAULT_poison_sets : Fld := ⟨.BER_FAULT, 32, 16, .ro, 0⟩
def BER_FAULT_last_slot : Fld := ⟨.BER_FAULT, 48, 3, .ro, 7⟩
def BER_VALID_x_valid : Fld := ⟨.BER_VALID, 0, 32, .ro, 0⟩
def BER_VALID_y_valid : Fld := ⟨.BER_VALID, 32, 32, .ro, 0⟩
def BER_VALID_i_valid : Fld := ⟨.BER_VALID, 64, 16, .ro, 0⟩
def BER_ISSUE_count : Fld := ⟨.BER_ISSUE, 0, 64, .ro, 0⟩
def BER_STALL_count : Fld := ⟨.BER_STALL, 0, 64, .ro, 0⟩
def CLU_CELL_CFG_ADDR_addr : Fld := ⟨.CLU_CELL_CFG_ADDR, 6, 58, .rw, 0⟩
def CLU_CELL_CMD_op : Fld := ⟨.CLU_CELL_CMD, 0, 2, .wo, 0⟩
def CLU_CELL_CMD_next : Fld := ⟨.CLU_CELL_CMD, 2, 1, .wo, 0⟩
def CLU_CELL_CMD_at_frame : Fld := ⟨.CLU_CELL_CMD, 16, 10, .wo, 0⟩
def CLU_CELL_STATE_state : Fld := ⟨.CLU_CELL_STATE, 0, 3, .ro, 0⟩
def CLU_CELL_STATE_last_result : Fld := ⟨.CLU_CELL_STATE, 8, 4, .ro, 0⟩
def CLU_CELL_STATE_frame : Fld := ⟨.CLU_CELL_STATE, 16, 10, .ro, 0⟩
def CLU_CELL_STATE_slot : Fld := ⟨.CLU_CELL_STATE, 26, 8, .ro, 0⟩
def CLU_LANT_CTL_entry : Fld := ⟨.CLU_LANT_CTL, 0, 23, .rw, 0⟩
def CLU_LANT_CTL_run : Fld := ⟨.CLU_LANT_CTL, 24, 1, .rw, 0⟩
def CLU_LANT_CTL_running : Fld := ⟨.CLU_LANT_CTL, 25, 1, .ro, 0⟩
def CLU_LANT_CTL_fault : Fld := ⟨.CLU_LANT_CTL, 26, 1, .w1c, 0⟩
def CLU_CELL_RING_PTR_head : Fld := ⟨.CLU_CELL_RING_PTR, 0, 32, .ro, 0⟩
def CLU_CELL_RING_PTR_tail : Fld := ⟨.CLU_CELL_RING_PTR, 32, 32, .rw, 0⟩
def CLU_CELL_CNT_plan_late : Fld := ⟨.CLU_CELL_CNT, 0, 16, .ro, 0⟩
def CLU_CELL_CNT_prach_det : Fld := ⟨.CLU_CELL_CNT, 16, 16, .ro, 0⟩
def CLU_CELL_CNT_prach_overlap : Fld := ⟨.CLU_CELL_CNT, 32, 16, .ro, 0⟩
def CLU_CELL_CNT_rar_unanswered : Fld := ⟨.CLU_CELL_CNT, 48, 16, .ro, 0⟩
def CLU_CELL_CNT_ul_crc_fail : Fld := ⟨.CLU_CELL_CNT, 64, 16, .ro, 0⟩
def CLU_CELL_CNT_ul_late : Fld := ⟨.CLU_CELL_CNT, 80, 16, .ro, 0⟩
def CLU_CELL_CNT_report_lost : Fld := ⟨.CLU_CELL_CNT, 96, 16, .ro, 0⟩
def JSP_RING_STATE_prod_seen : Fld := ⟨.JSP_RING_STATE, 0, 32, .ro, 0⟩
def JSP_RING_STATE_cons : Fld := ⟨.JSP_RING_STATE, 32, 32, .ro, 0⟩
def JSP_ENGINE_state : Fld := ⟨.JSP_ENGINE, 0, 2, .ro, 0⟩
def JSP_ENGINE_busy : Fld := ⟨.JSP_ENGINE, 2, 1, .ro, 0⟩
def JSP_ENGINE_ring : Fld := ⟨.JSP_ENGINE, 3, 3, .ro, 0⟩
def JSP_ENGINE_busy_cycles : Fld := ⟨.JSP_ENGINE, 8, 56, .ro, 0⟩
def JSP_CNT_done : Fld := ⟨.JSP_CNT, 0, 24, .ro, 0⟩
def JSP_CNT_late : Fld := ⟨.JSP_CNT, 24, 16, .ro, 0⟩
def JSP_CNT_aborted : Fld := ⟨.JSP_CNT, 40, 16, .ro, 0⟩
def JSP_CNT_error : Fld := ⟨.JSP_CNT, 56, 16, .ro, 0⟩
def JSP_CNT_cb_crc_fail : Fld := ⟨.JSP_CNT, 72, 24, .ro, 0⟩
def JSP_CNT_ring_overrun : Fld := ⟨.JSP_CNT, 96, 16, .ro, 0⟩
def JSP_CNT_poison : Fld := ⟨.JSP_CNT, 112, 16, .ro, 0⟩
def FIFO_CFG_dir : Fld := ⟨.FIFO_CFG, 0, 2, .ro, 0⟩
def FIFO_CFG_legacy : Fld := ⟨.FIFO_CFG, 2, 1, .ro, 0⟩
def FIFO_CFG_threshold : Fld := ⟨.FIFO_CFG, 3, 12, .ro, 8⟩
def FIFO_STATUS_words : Fld := ⟨.FIFO_STATUS, 0, 12, .ro, 0⟩
def FIFO_STATUS_packets : Fld := ⟨.FIFO_STATUS, 12, 12, .ro, 0⟩
def FIFO_STATUS_parity_err : Fld := ⟨.FIFO_STATUS, 24, 16, .ro, 0⟩
def FIFO_STATUS_dropped : Fld := ⟨.FIFO_STATUS, 40, 16, .ro, 0⟩
def FIFO_STATUS_drop_rest : Fld := ⟨.FIFO_STATUS, 56, 8, .ro, 0⟩
def FIFO_CMD_op : Fld := ⟨.FIFO_CMD, 0, 2, .wo, 0⟩
def FH_IF_STATUS_src_mac : Fld := ⟨.FH_IF_STATUS, 0, 48, .ro, 0⟩
def FH_IF_STATUS_present : Fld := ⟨.FH_IF_STATUS, 48, 1, .ro, 0⟩
def FH_IF_STATUS_link_up : Fld := ⟨.FH_IF_STATUS, 49, 1, .ro, 0⟩
def FH_IF_STATUS_speed : Fld := ⟨.FH_IF_STATUS, 50, 2, .ro, 0⟩
def FH_IF_STATUS_link_downs : Fld := ⟨.FH_IF_STATUS, 56, 8, .ro, 0⟩
def FH_IF_CNT_rx_frames : Fld := ⟨.FH_IF_CNT, 0, 48, .ro, 0⟩
def FH_IF_CNT_rx_fcs_err : Fld := ⟨.FH_IF_CNT, 48, 16, .ro, 0⟩
def FH_IF_CNT_tx_frames : Fld := ⟨.FH_IF_CNT, 64, 48, .ro, 0⟩
def FH_IF_CNT_rx_unmatched : Fld := ⟨.FH_IF_CNT, 112, 16, .ro, 0⟩
def FH_IF_CNT_rx_oversize : Fld := ⟨.FH_IF_CNT, 128, 16, .ro, 0⟩
def FH_IF_CNT_bfp_sat : Fld := ⟨.FH_IF_CNT, 144, 16, .ro, 0⟩
def FH_IF_CNT_oversize_drop : Fld := ⟨.FH_IF_CNT, 160, 16, .ro, 0⟩
def FH_IF_CNT_fifo_full_drop : Fld := ⟨.FH_IF_CNT, 176, 16, .ro, 0⟩
def FH_IF_CNT_seq_gap : Fld := ⟨.FH_IF_CNT, 192, 16, .ro, 0⟩
def FH_IF_CNT_rx_late : Fld := ⟨.FH_IF_CNT, 208, 16, .ro, 0⟩
def FH_IF_CNT_host_rx_drop : Fld := ⟨.FH_IF_CNT, 224, 16, .ro, 0⟩
def FH_IF_CNT_tx_bad_len : Fld := ⟨.FH_IF_CNT, 240, 16, .ro, 0⟩
def FH_LATE_TOLERANCE_tol_ns : Fld := ⟨.FH_LATE_TOLERANCE, 0, 24, .rw, 2000⟩
def FH_LATE_DROP_count : Fld := ⟨.FH_LATE_DROP, 0, 32, .ro, 0⟩
def FH_LATE_DROP_last_late_ns : Fld := ⟨.FH_LATE_DROP, 32, 32, .ro, 0⟩
def FH_GATE_CTL_admin_len : Fld := ⟨.FH_GATE_CTL, 0, 9, .rw, 0⟩
def FH_GATE_CTL_wnc_mode : Fld := ⟨.FH_GATE_CTL, 9, 1, .rw, 0⟩
def FH_GATE_CTL_enable : Fld := ⟨.FH_GATE_CTL, 10, 1, .rw, 0⟩
def FH_GATE_CTL_commit : Fld := ⟨.FH_GATE_CTL, 11, 1, .wo, 0⟩
def FH_GATE_CTL_cancel : Fld := ⟨.FH_GATE_CTL, 12, 1, .wo, 0⟩
def FH_GATE_CTL_cycle_ns : Fld := ⟨.FH_GATE_CTL, 32, 32, .rw, 0⟩
def FH_GATE_BASE_base_wnc : Fld := ⟨.FH_GATE_BASE, 0, 32, .rw, 0⟩
def FH_GATE_BASE_epoch : Fld := ⟨.FH_GATE_BASE, 32, 32, .rw, 0⟩
def FH_GATE_STATUS_pending : Fld := ⟨.FH_GATE_STATUS, 0, 1, .ro, 0⟩
def FH_GATE_STATUS_gate_late_start : Fld := ⟨.FH_GATE_STATUS, 1, 1, .w1c, 0⟩
def FH_GATE_STATUS_oper_enable : Fld := ⟨.FH_GATE_STATUS, 2, 1, .ro, 0⟩
def FH_GATE_STATUS_oper_len : Fld := ⟨.FH_GATE_STATUS, 3, 9, .ro, 0⟩
def FH_GATE_STATUS_cur_entry : Fld := ⟨.FH_GATE_STATUS, 12, 8, .ro, 0⟩
def FH_GATE_STATUS_gate_overrun : Fld := ⟨.FH_GATE_STATUS, 32, 16, .ro, 0⟩
def FH_GATE_LIST_interval_ns : Fld := ⟨.FH_GATE_LIST, 0, 32, .rw, 0⟩
def FH_GATE_LIST_gates : Fld := ⟨.FH_GATE_LIST, 32, 4, .rw, 0⟩
def FH_HOST_RING_rx_code : Fld := ⟨.FH_HOST_RING, 0, 4, .rw, 0⟩
def FH_HOST_RING_tx_code : Fld := ⟨.FH_HOST_RING, 4, 4, .rw, 0⟩
def FH_HOST_RING_base_4k : Fld := ⟨.FH_HOST_RING, 12, 52, .rw, 0⟩
def FH_HOST_PTR_rx_head : Fld := ⟨.FH_HOST_PTR, 0, 16, .ro, 0⟩
def FH_HOST_PTR_rx_tail : Fld := ⟨.FH_HOST_PTR, 16, 16, .rw, 0⟩
def FH_HOST_PTR_tx_head : Fld := ⟨.FH_HOST_PTR, 32, 16, .rw, 0⟩
def FH_HOST_PTR_tx_tail : Fld := ⟨.FH_HOST_PTR, 48, 16, .ro, 0⟩
def FH_SHAPER_rate : Fld := ⟨.FH_SHAPER, 0, 16, .rw, 0⟩
def FH_SHAPER_burst : Fld := ⟨.FH_SHAPER, 16, 16, .rw, 0⟩
def FH_SHAPER_tokens : Fld := ⟨.FH_SHAPER, 32, 32, .ro, 0⟩
def FH_HIST_SEL_queue : Fld := ⟨.FH_HIST_SEL, 0, 12, .rw, 0⟩
def FH_HIST_SEL_clear : Fld := ⟨.FH_HIST_SEL, 12, 1, .wo, 0⟩
def FH_HIST_WINDOW_depth : Fld := ⟨.FH_HIST_WINDOW, 0, 512, .ro, 0⟩
def FH_HIST_WINDOW_delay : Fld := ⟨.FH_HIST_WINDOW, 512, 512, .ro, 0⟩
def TIME_NOW_frac_ns : Fld := ⟨.TIME_NOW, 0, 32, .ro, 0⟩
def TIME_NOW_ns : Fld := ⟨.TIME_NOW, 32, 30, .ro, 0⟩
def TIME_NOW_seconds : Fld := ⟨.TIME_NOW, 64, 48, .ro, 0⟩
def TIME_TOTAL_total : Fld := ⟨.TIME_TOTAL, 0, 64, .ro, 0⟩
def TIME_INCREMENT_incr : Fld := ⟨.TIME_INCREMENT, 0, 40, .rw, 0x100000000⟩
def TIME_ADJ_VALUE_ns : Fld := ⟨.TIME_ADJ_VALUE, 0, 30, .rw, 0⟩
def TIME_ADJ_VALUE_seconds : Fld := ⟨.TIME_ADJ_VALUE, 64, 48, .rw, 0⟩
def TIME_ADJ_CTL_op : Fld := ⟨.TIME_ADJ_CTL, 0, 2, .wo, 0⟩
def TIME_ADJ_CTL_go : Fld := ⟨.TIME_ADJ_CTL, 2, 1, .wo, 0⟩
def TIME_STATUS_time_set : Fld := ⟨.TIME_STATUS, 0, 1, .ro, 0⟩
def TIME_STATUS_inc_clamped : Fld := ⟨.TIME_STATUS, 1, 1, .w1c, 0⟩
def TIME_STATUS_adj_refused : Fld := ⟨.TIME_STATUS, 2, 1, .w1c, 0⟩
def TIME_STATUS_ref_lock : Fld := ⟨.TIME_STATUS, 3, 1, .ro, 0⟩
def TIME_STATUS_steps : Fld := ⟨.TIME_STATUS, 16, 16, .ro, 0⟩
def TIME_STATUS_ticks_skipped : Fld := ⟨.TIME_STATUS, 32, 32, .ro, 0⟩
def TIME_PPS_CTL_out_en : Fld := ⟨.TIME_PPS_CTL, 0, 1, .rw, 0⟩
def TIME_PPS_CTL_in_en : Fld := ⟨.TIME_PPS_CTL, 1, 1, .rw, 0⟩
def TIME_PPS_CTL_width_us : Fld := ⟨.TIME_PPS_CTL, 2, 20, .rw, 100⟩
def TIME_PPS_IN_ns : Fld := ⟨.TIME_PPS_IN, 0, 30, .ro, 0⟩
def TIME_PPS_IN_edges : Fld := ⟨.TIME_PPS_IN, 32, 32, .ro, 0⟩
def TIME_PPS_IN_seconds : Fld := ⟨.TIME_PPS_IN, 64, 48, .ro, 0⟩
def TIME_SYNCE_CTL_rclk_if : Fld := ⟨.TIME_SYNCE_CTL, 0, 5, .rw, 0⟩
def TIME_SYNCE_CTL_rclk_en : Fld := ⟨.TIME_SYNCE_CTL, 5, 1, .rw, 0⟩
def SLC_CFG_credit_limit : Fld := ⟨.SLC_CFG, 0, 16, .rw, 0⟩
def SLC_CFG_ats_en : Fld := ⟨.SLC_CFG, 16, 1, .rw, 0⟩
def SLC_CFG_pri_en : Fld := ⟨.SLC_CFG, 17, 1, .rw, 0⟩
def SLC_STATE_state : Fld := ⟨.SLC_STATE, 0, 3, .ro, 0⟩
def SLC_STATE_confidential : Fld := ⟨.SLC_STATE, 4, 1, .ro, 0⟩
def SLC_STATE_privileged : Fld := ⟨.SLC_STATE, 5, 1, .ro, 0⟩
def SLC_STATE_protect_radio : Fld := ⟨.SLC_STATE, 6, 1, .ro, 0⟩
def SLC_STATE_tdi_state : Fld := ⟨.SLC_STATE, 8, 2, .ro, 0⟩
def SLC_STATE_partition : Fld := ⟨.SLC_STATE, 10, 9, .ro, 511⟩
def SLC_STATE_contexts : Fld := ⟨.SLC_STATE, 19, 9, .ro, 0⟩
def SLC_CMD_op : Fld := ⟨.SLC_CMD, 0, 4, .wo, 0⟩
def SLC_CMD_save_vault : Fld := ⟨.SLC_CMD, 4, 1, .wo, 0⟩
def SLC_CMD_busy : Fld := ⟨.SLC_CMD, 8, 1, .ro, 0⟩
def SLC_CMD_last_result : Fld := ⟨.SLC_CMD, 12, 4, .ro, 0⟩
def SLC_XFER_ADDR_addr_4k : Fld := ⟨.SLC_XFER_ADDR, 12, 52, .rw, 0⟩
def SLC_XFER_LEN_buf_len : Fld := ⟨.SLC_XFER_LEN, 0, 40, .rw, 0⟩
def SLC_XFER_DONE_image_len : Fld := ⟨.SLC_XFER_DONE, 0, 40, .ro, 0⟩
def SLC_LOG_RING_size_code : Fld := ⟨.SLC_LOG_RING, 0, 4, .rw, 0⟩
def SLC_LOG_RING_base_4k : Fld := ⟨.SLC_LOG_RING, 12, 52, .rw, 0⟩
def SLC_LOG_PTR_head : Fld := ⟨.SLC_LOG_PTR, 0, 32, .ro, 0⟩
def SLC_LOG_PTR_tail : Fld := ⟨.SLC_LOG_PTR, 32, 32, .rw, 0⟩
def SLC_LOG_STATUS_logging : Fld := ⟨.SLC_LOG_STATUS, 0, 1, .ro, 0⟩
def SLC_LOG_STATUS_overflow : Fld := ⟨.SLC_LOG_STATUS, 1, 1, .w1c, 0⟩
def SLC_LOG_STATUS_pages_logged : Fld := ⟨.SLC_LOG_STATUS, 32, 32, .ro, 0⟩
def SLC_MSG_addr : Fld := ⟨.SLC_MSG, 0, 64, .rw, 0⟩
def SLC_MSG_data : Fld := ⟨.SLC_MSG, 64, 32, .rw, 0⟩
def SLC_MSG_mask : Fld := ⟨.SLC_MSG, 96, 1, .rw, 1⟩
def SLC_MSG_pending : Fld := ⟨.SLC_MSG, 97, 1, .ro, 0⟩
def SLC_CREDIT_TOTAL_committed : Fld := ⟨.SLC_CREDIT_TOTAL, 0, 15, .ro, 0⟩
def SLC_DONE_done : Fld := ⟨.SLC_DONE, 0, 256, .w1c, 0⟩
def CORE_SCHED_credit : Fld := ⟨.CORE_SCHED, 0, 32, .ro, 0⟩
def CORE_SCHED_picks : Fld := ⟨.CORE_SCHED, 32, 32, .ro, 0⟩
def CORE_ND_COUNT_count : Fld := ⟨.CORE_ND_COUNT, 0, 64, .ro, 0⟩
def SLC_ND_TOTAL_total : Fld := ⟨.SLC_ND_TOTAL, 0, 64, .ro, 0⟩
def SLC_ND_CLR_clear : Fld := ⟨.SLC_ND_CLR, 0, 1, .wo, 0⟩
def CORE_DIGEST_PTR_head : Fld := ⟨.CORE_DIGEST_PTR, 0, 32, .ro, 0⟩
def CORE_DIGEST_PTR_ended : Fld := ⟨.CORE_DIGEST_PTR, 32, 1, .ro, 0⟩
def CORE_DIGEST_PTR_wrapped : Fld := ⟨.CORE_DIGEST_PTR, 33, 1, .ro, 0⟩
def HLTH_CFG_retire_threshold : Fld := ⟨.HLTH_CFG, 0, 8, .rw, 96⟩
def HLTH_CFG_vigil_interval_min : Fld := ⟨.HLTH_CFG, 8, 8, .rw, 60⟩
def HLTH_CFG_stale_h : Fld := ⟨.HLTH_CFG, 16, 8, .rw, 24⟩
def HLTH_CFG_vigil_en : Fld := ⟨.HLTH_CFG, 24, 1, .rw, 1⟩
def HLTH_EVENT_retired : Fld := ⟨.HLTH_EVENT, 0, 1, .w1c, 0⟩
def HLTH_EVENT_flagged : Fld := ⟨.HLTH_EVENT, 1, 1, .w1c, 0⟩
def HLTH_EVENT_vigil_fail : Fld := ⟨.HLTH_EVENT, 2, 1, .w1c, 0⟩
def HLTH_EVENT_failed : Fld := ⟨.HLTH_EVENT, 3, 1, .w1c, 0⟩
def HLTH_EVENT_stale : Fld := ⟨.HLTH_EVENT, 4, 1, .w1c, 0⟩
def HLTH_EVENT_overrun : Fld := ⟨.HLTH_EVENT, 5, 1, .w1c, 0⟩
def HLTH_EVENT_spares_out : Fld := ⟨.HLTH_EVENT, 6, 1, .w1c, 0⟩
def HLTH_EVENT_last_unit : Fld := ⟨.HLTH_EVENT, 16, 10, .ro, 0⟩
def HLTH_EVENT_vigil_lost : Fld := ⟨.HLTH_EVENT, 32, 16, .ro, 0⟩
def HLTH_VIGIL_RING_size_code : Fld := ⟨.HLTH_VIGIL_RING, 0, 4, .rw, 0⟩
def HLTH_VIGIL_RING_base_4k : Fld := ⟨.HLTH_VIGIL_RING, 12, 52, .rw, 0⟩
def HLTH_VIGIL_PTR_head : Fld := ⟨.HLTH_VIGIL_PTR, 0, 32, .ro, 0⟩
def HLTH_VIGIL_PTR_tail : Fld := ⟨.HLTH_VIGIL_PTR, 32, 32, .rw, 0⟩
def HLTH_VIGIL_REQ_unit : Fld := ⟨.HLTH_VIGIL_REQ, 0, 10, .rw, 0⟩
def HLTH_VIGIL_REQ_test : Fld := ⟨.HLTH_VIGIL_REQ, 10, 16, .rw, 0xffff⟩
def HLTH_VIGIL_REQ_temp_target : Fld := ⟨.HLTH_VIGIL_REQ, 26, 12, .rw, 0⟩
def HLTH_VIGIL_REQ_temp_tol : Fld := ⟨.HLTH_VIGIL_REQ, 38, 4, .rw, 4⟩
def HLTH_VIGIL_REQ_load_class : Fld := ⟨.HLTH_VIGIL_REQ, 42, 4, .rw, 0⟩
def HLTH_VIGIL_REQ_class_en : Fld := ⟨.HLTH_VIGIL_REQ, 46, 1, .rw, 0⟩
def HLTH_VIGIL_REQ_temp_en : Fld := ⟨.HLTH_VIGIL_REQ, 47, 1, .rw, 0⟩
def HLTH_VIGIL_REQ_go : Fld := ⟨.HLTH_VIGIL_REQ, 48, 1, .wo, 0⟩
def HLTH_VIGIL_REQ_cancel : Fld := ⟨.HLTH_VIGIL_REQ, 49, 1, .wo, 0⟩
def HLTH_VIGIL_REQ_pending : Fld := ⟨.HLTH_VIGIL_REQ, 50, 1, .ro, 0⟩
def HLTH_RATE_in_window : Fld := ⟨.HLTH_RATE, 0, 4, .ro, 0⟩
def HLTH_RATE_flagged : Fld := ⟨.HLTH_RATE, 4, 8, .ro, 0⟩
def HLTH_RATE_next_free_s : Fld := ⟨.HLTH_RATE, 32, 32, .ro, 0⟩
def HLTH_UNIT_score : Fld := ⟨.HLTH_UNIT, 0, 8, .ro, 255⟩
def HLTH_UNIT_state : Fld := ⟨.HLTH_UNIT, 8, 3, .ro, 0⟩
def HLTH_UNIT_flagged : Fld := ⟨.HLTH_UNIT, 11, 1, .ro, 0⟩
def HLTH_UNIT_stale : Fld := ⟨.HLTH_UNIT, 12, 1, .ro, 0⟩
def HLTH_UNIT_last_pass_ok : Fld := ⟨.HLTH_UNIT, 13, 1, .ro, 0⟩
def HLTH_UNIT_hard : Fld := ⟨.HLTH_UNIT, 14, 1, .ro, 0⟩
def HLTH_UNIT_passes : Fld := ⟨.HLTH_UNIT, 16, 16, .ro, 0⟩
def HLTH_UNIT_vigil_fails : Fld := ⟨.HLTH_UNIT, 32, 16, .ro, 0⟩
def HLTH_UNIT_use_faults : Fld := ⟨.HLTH_UNIT, 48, 16, .ro, 0⟩
def HLTH_MON_temp : Fld := ⟨.HLTH_MON, 0, 16, .ro, 0⟩
def HLTH_MON_volt : Fld := ⟨.HLTH_MON, 16, 16, .ro, 0⟩
def HLTH_MON_proc : Fld := ⟨.HLTH_MON, 32, 16, .ro, 0⟩
def HLTH_LINK_noc_retries : Fld := ⟨.HLTH_LINK, 0, 32, .ro, 0⟩
def HLTH_LINK_d2d_retries : Fld := ⟨.HLTH_LINK, 32, 32, .ro, 0⟩
def CLINK_PORT_STATUS_role : Fld := ⟨.CLINK_PORT_STATUS, 0, 2, .ro, 0⟩
def CLINK_PORT_STATUS_link_up : Fld := ⟨.CLINK_PORT_STATUS, 2, 1, .ro, 0⟩
def CLINK_PORT_STATUS_spare_used : Fld := ⟨.CLINK_PORT_STATUS, 3, 1, .ro, 0⟩
def CLINK_PORT_STATUS_member : Fld := ⟨.CLINK_PORT_STATUS, 4, 6, .ro, 0⟩
def CLINK_PORT_STATUS_group_id : Fld := ⟨.CLINK_PORT_STATUS, 16, 16, .ro, 0⟩
def CLINK_PORT_STATUS_link_downs : Fld := ⟨.CLINK_PORT_STATUS, 32, 16, .ro, 0⟩
def CLINK_PORT_STATUS_fenced_drop : Fld := ⟨.CLINK_PORT_STATUS, 48, 16, .ro, 0⟩
def CLINK_PORT_CNT_retries : Fld := ⟨.CLINK_PORT_CNT, 0, 32, .ro, 0⟩
def CLINK_PORT_CNT_xfer_done : Fld := ⟨.CLINK_PORT_CNT, 32, 32, .ro, 0⟩
def CLINK_PORT_CNT_xfer_aborted : Fld := ⟨.CLINK_PORT_CNT, 64, 16, .ro, 0⟩
def CLINK_PORT_CNT_xfer_error : Fld := ⟨.CLINK_PORT_CNT, 80, 16, .ro, 0⟩
def CLINK_PORT_CNT_late_releases : Fld := ⟨.CLINK_PORT_CNT, 96, 16, .ro, 0⟩
def CLINK_FENCE_allow : Fld := ⟨.CLINK_FENCE, 0, 64, .rw, 0xffffffffffffffff⟩
def CLINK_TIME_offset : Fld := ⟨.CLINK_TIME, 0, 32, .ro, 0⟩
def CLINK_TIME_delay : Fld := ⟨.CLINK_TIME, 32, 31, .ro, 0⟩
def CLINK_TIME_valid : Fld := ⟨.CLINK_TIME, 63, 1, .ro, 0⟩
def CLINK_TWIN_STATUS_state : Fld := ⟨.CLINK_TWIN_STATUS, 0, 2, .ro, 0⟩
def CLINK_TWIN_STATUS_missed : Fld := ⟨.CLINK_TWIN_STATUS, 2, 2, .ro, 0⟩
def CLINK_TWIN_STATUS_mirror_ok : Fld := ⟨.CLINK_TWIN_STATUS, 4, 1, .ro, 0⟩
def CLINK_TWIN_STATUS_handover_done : Fld := ⟨.CLINK_TWIN_STATUS, 5, 1, .w1c, 0⟩
def CLINK_TWIN_STATUS_takeover_fail : Fld := ⟨.CLINK_TWIN_STATUS, 16, 16, .ro, 0⟩
def CLINK_TWIN_STATUS_handover_fail : Fld := ⟨.CLINK_TWIN_STATUS, 32, 16, .ro, 0⟩
def CLINK_TWIN_STATUS_dual_cells : Fld := ⟨.CLINK_TWIN_STATUS, 48, 16, .ro, 0⟩
def CLINK_TWIN_CTL_takeover_en : Fld := ⟨.CLINK_TWIN_CTL, 0, 1, .rw, 1⟩
def CLINK_TWIN_CTL_handover : Fld := ⟨.CLINK_TWIN_CTL, 1, 1, .wo, 0⟩
def CLINK_MIRROR_DUMP_addr_4k : Fld := ⟨.CLINK_MIRROR_DUMP, 12, 52, .wo, 0⟩
def CLINK_XQ_owner : Fld := ⟨.CLINK_XQ, 0, 9, .rw, 511⟩
def CLINK_XQ_ring_code : Fld := ⟨.CLINK_XQ, 9, 4, .rw, 0⟩
def CLINK_XQ_bad_cfg : Fld := ⟨.CLINK_XQ, 13, 1, .ro, 0⟩
def CLINK_XQ_prod_obj : Fld := ⟨.CLINK_XQ, 16, 15, .rw, 0⟩
def CLINK_XQ_ring : Fld := ⟨.CLINK_XQ, 64, 44, .rw, 0⟩
def CLINK_GRANT_base : Fld := ⟨.CLINK_GRANT, 0, 44, .rw, 0⟩
def CLINK_GRANT_enable : Fld := ⟨.CLINK_GRANT, 44, 1, .rw, 0⟩
def CLINK_GRANT_src_member : Fld := ⟨.CLINK_GRANT, 45, 6, .rw, 0⟩
def CLINK_GRANT_slice : Fld := ⟨.CLINK_GRANT, 51, 9, .rw, 511⟩
def CLINK_GRANT_length : Fld := ⟨.CLINK_GRANT, 64, 32, .rw, 0⟩
def CLINK_GRANT_arrive_obj : Fld := ⟨.CLINK_GRANT, 96, 15, .rw, 0⟩
def CLINK_GRANT_arrive_en : Fld := ⟨.CLINK_GRANT, 111, 1, .rw, 0⟩
def CLINK_GROUP_CFG_grp_obj_base : Fld := ⟨.CLINK_GROUP_CFG, 0, 15, .rw, 0⟩
def CLINK_GROUP_CFG_grp_obj_count : Fld := ⟨.CLINK_GROUP_CFG, 16, 15, .rw, 0⟩
def CLINK_GROUP_CFG_release_lead_ns : Fld := ⟨.CLINK_GROUP_CFG, 32, 16, .rw, 2000⟩
def CLINK_GROUP_MEMBERS_present : Fld := ⟨.CLINK_GROUP_MEMBERS, 0, 64, .ro, 0⟩
def CLINK_GROUP_MEMBERS_admitted : Fld := ⟨.CLINK_GROUP_MEMBERS, 64, 64, .rw, 0⟩
def CLINK_ARRIVAL_arrival : Fld := ⟨.CLINK_ARRIVAL, 0, 32, .ro, 0⟩
def CLINK_ARRIVAL_lag_ns : Fld := ⟨.CLINK_ARRIVAL, 32, 32, .ro, 0⟩
def DEV_BAD_ACCESS_count : Fld := ⟨.DEV_BAD_ACCESS, 0, 32, .ro, 0⟩
def DEV_BAD_ACCESS_last_offset : Fld := ⟨.DEV_BAD_ACCESS, 32, 26, .ro, 0⟩
def DEV_BAD_ACCESS_last_bar : Fld := ⟨.DEV_BAD_ACCESS, 58, 2, .ro, 0⟩
def DEV_RESET_key : Fld := ⟨.DEV_RESET, 0, 16, .wo, 0⟩
def ONYX_BOOT_CTL_len : Fld := ⟨.ONYX_BOOT_CTL, 0, 23, .rw, 0⟩
def ONYX_BOOT_CTL_go : Fld := ⟨.ONYX_BOOT_CTL, 24, 1, .wo, 0⟩
def ONYX_BOOT_STATUS_result : Fld := ⟨.ONYX_BOOT_STATUS, 0, 8, .ro, 0⟩
def ONYX_BOOT_STATUS_fail_stage : Fld := ⟨.ONYX_BOOT_STATUS, 8, 4, .ro, 15⟩
def ONYX_BOOT_STATUS_cert_ok : Fld := ⟨.ONYX_BOOT_STATUS, 12, 1, .ro, 0⟩
def ONYX_BOOT_STATUS_attempts : Fld := ⟨.ONYX_BOOT_STATUS, 16, 16, .ro, 0⟩
def ONYX_BOOT_STATUS_verify_us : Fld := ⟨.ONYX_BOOT_STATUS, 32, 32, .ro, 0⟩
def ONYX_SVN_counter : Fld := ⟨.ONYX_SVN, 0, 7, .ro, 0⟩
def ONYX_SVN_commit : Fld := ⟨.ONYX_SVN, 8, 1, .wo, 0⟩
def ONYX_SVN_commit_refused : Fld := ⟨.ONYX_SVN, 9, 1, .w1c, 0⟩
def DEV_STATUS_boot_state : Fld := ⟨.DEV_STATUS, 0, 3, .ro, 0⟩
def DEV_STATUS_ready : Fld := ⟨.DEV_STATUS, 3, 1, .ro, 0⟩
def DEV_STATUS_stepping : Fld := ⟨.DEV_STATUS, 8, 8, .ro, 1⟩
def DEV_STATUS_security_version : Fld := ⟨.DEV_STATUS, 16, 8, .ro, 0⟩
def DEV_STATUS_fw_build : Fld := ⟨.DEV_STATUS, 32, 32, .ro, 0⟩
def ONYX_ID_HASH_digest : Fld := ⟨.ONYX_ID_HASH, 0, 256, .ro, 0⟩
def ONYX_KEY_SLOT_public_key : Fld := ⟨.ONYX_KEY_SLOT, 0, 256, .ro, 0⟩
def ONYX_KEY_SLOT_enrolled : Fld := ⟨.ONYX_KEY_SLOT, 256, 1, .ro, 0⟩
def ONYX_KEY_SLOT_revoked : Fld := ⟨.ONYX_KEY_SLOT, 257, 1, .ro, 0⟩
def ONYX_KEY_SLOT_damaged : Fld := ⟨.ONYX_KEY_SLOT, 258, 1, .ro, 0⟩
def ONYX_ENROL_ADDR_addr_4k : Fld := ⟨.ONYX_ENROL_ADDR, 12, 52, .rw, 0⟩
def ONYX_ENROL_CTL_go : Fld := ⟨.ONYX_ENROL_CTL, 0, 1, .wo, 0⟩
def ONYX_ENROL_CTL_busy : Fld := ⟨.ONYX_ENROL_CTL, 1, 1, .ro, 0⟩
def ONYX_ENROL_CTL_last_result : Fld := ⟨.ONYX_ENROL_CTL, 4, 4, .ro, 0⟩
def DEV_INFO_active_cores : Fld := ⟨.DEV_INFO, 0, 9, .ro, 256⟩
def DEV_INFO_phys_cores : Fld := ⟨.DEV_INFO, 9, 9, .ro, 288⟩
def DEV_INFO_clusters : Fld := ⟨.DEV_INFO, 18, 6, .ro, 32⟩
def DEV_INFO_compute_dies : Fld := ⟨.DEV_INFO, 24, 2, .ro, 2⟩
def DEV_INFO_slices : Fld := ⟨.DEV_INFO, 32, 9, .ro, 256⟩
def DEV_INFO_map_version : Fld := ⟨.DEV_INFO, 48, 16, .ro, 1⟩
def DEV_SCRATCH_value : Fld := ⟨.DEV_SCRATCH, 0, 64, .rw, 0⟩

end F

/-- The fields of a register, in the order of its table. -/
def Reg.fields : Reg → List Fld
  | .CORE_IDENT => [F.CORE_IDENT_phys_core, F.CORE_IDENT_slot, F.CORE_IDENT_cluster, F.CORE_IDENT_logical_core, F.CORE_IDENT_state]
  | .CLU_CORE_MAP => [F.CLU_CORE_MAP_core_slot_map, F.CLU_CORE_MAP_spare_core_slot, F.CLU_CORE_MAP_retired_cores, F.CLU_CORE_MAP_jsp_of_l0, F.CLU_CORE_MAP_jsp_of_l1, F.CLU_CORE_MAP_lantern_phys]
  | .DEV_APERTURE_BASE => [F.DEV_APERTURE_BASE_base_gib]
  | .TIME_TICK_STATUS => [F.TIME_TICK_STATUS_period_code, F.TIME_TICK_STATUS_period_pending, F.TIME_TICK_STATUS_pending_code]
  | .TIME_TICK_NUMBER => [F.TIME_TICK_NUMBER_tick_number]
  | .TIME_TICK_BASE => [F.TIME_TICK_BASE_base_ns, F.TIME_TICK_BASE_base_tick]
  | .CORE_LEASE_CFG => [F.CORE_LEASE_CFG_radio_start, F.CORE_LEASE_CFG_radio_len, F.CORE_LEASE_CFG_garnet_radio]
  | .GAR_MAX_INSTR_TIME => [F.GAR_MAX_INSTR_TIME_limit_cycles]
  | .CORE_TICK_OVERRUN => [F.CORE_TICK_OVERRUN_count, F.CORE_TICK_OVERRUN_last_slot, F.CORE_TICK_OVERRUN_last_torn_down]
  | .CORE_LEASE_STATUS => [F.CORE_LEASE_STATUS_phase, F.CORE_LEASE_STATUS_handed_back, F.CORE_LEASE_STATUS_rental_slot, F.CORE_LEASE_STATUS_last_yield_cycles]
  | .CORE_RADIO_SPILL => [F.CORE_RADIO_SPILL_count]
  | .CUT_LOAD_ADDR => [F.CUT_LOAD_ADDR_addr_4k]
  | .CUT_CTL => [F.CUT_CTL_len, F.CUT_CTL_load, F.CUT_CTL_cancel]
  | .CUT_STATUS => [F.CUT_STATUS_state, F.CUT_STATUS_active_valid, F.CUT_STATUS_last_result, F.CUT_STATUS_last_section, F.CUT_STATUS_last_entry]
  | .CUT_GEN => [F.CUT_GEN_generation]
  | .CUT_STAGED_TICK => [F.CUT_STAGED_TICK_apply_tick]
  | .CUT_EVENT => [F.CUT_EVENT_applied, F.CUT_EVENT_rejected, F.CUT_EVENT_cancelled]
  | .CUT_CHAIN_DIGEST => [F.CUT_CHAIN_DIGEST_digest]
  | .CORE_CTX_STATE => [F.CORE_CTX_STATE_owner, F.CORE_CTX_STATE_state, F.CORE_CTX_STATE_gar_queued, F.CORE_CTX_STATE_ber_queued, F.CORE_CTX_STATE_opal_queued, F.CORE_CTX_STATE_ctl_queued]
  | .SYNC_OBJ => [F.SYNC_OBJ_value, F.SYNC_OBJ_owner, F.SYNC_OBJ_broken, F.SYNC_OBJ_waiters, F.SYNC_OBJ_ops]
  | .SYNC_CTL => [F.SYNC_CTL_wait_limit_ms]
  | .PORTAL_CREDITS => [F.PORTAL_CREDITS_available, F.PORTAL_CREDITS_limit, F.PORTAL_CREDITS_returned]
  | .PORTAL_STATUS => [F.PORTAL_STATUS_accepted, F.PORTAL_STATUS_dropped_no_credit, F.PORTAL_STATUS_bad_write, F.PORTAL_STATUS_err_lost]
  | .PORTAL_CREDIT_MIRROR => [F.PORTAL_CREDIT_MIRROR_enable, F.PORTAL_CREDIT_MIRROR_addr]
  | .PORTAL_ERR_RING => [F.PORTAL_ERR_RING_size_code, F.PORTAL_ERR_RING_base_4k]
  | .PORTAL_ERR_PTR => [F.PORTAL_ERR_PTR_head, F.PORTAL_ERR_PTR_tail]
  | .GAR_ISSUE_CTL => [F.GAR_ISSUE_CTL_rental_hold, F.GAR_ISSUE_CTL_held]
  | .GAR_BANK_STATE => [F.GAR_BANK_STATE_w0_state, F.GAR_BANK_STATE_w0_poison, F.GAR_BANK_STATE_w1_state, F.GAR_BANK_STATE_w1_poison, F.GAR_BANK_STATE_e0_state, F.GAR_BANK_STATE_e0_poison, F.GAR_BANK_STATE_e1_state, F.GAR_BANK_STATE_e1_poison, F.GAR_BANK_STATE_half_mode, F.GAR_BANK_STATE_bank0_slot, F.GAR_BANK_STATE_bank1_slot]
  | .GAR_FAULT => [F.GAR_FAULT_west_faults, F.GAR_FAULT_east_faults, F.GAR_FAULT_poison_in, F.GAR_FAULT_last_slot, F.GAR_FAULT_last_half]
  | .GAR_STREAM_CYCLES => [F.GAR_STREAM_CYCLES_count]
  | .GAR_BUBBLE_CYCLES => [F.GAR_BUBBLE_CYCLES_count]
  | .GAR_SAT_COUNT => [F.GAR_SAT_COUNT_accum_sat, F.GAR_SAT_COUNT_drain_sat, F.GAR_SAT_COUNT_drain_special, F.GAR_SAT_COUNT_last_slot]
  | .OPAL_INFLIGHT => [F.OPAL_INFLIGHT_rental, F.OPAL_INFLIGHT_radio, F.OPAL_INFLIGHT_ordered_wait]
  | .OPAL_EVENTS => [F.OPAL_EVENTS_poison_lines, F.OPAL_EVENTS_index_oob, F.OPAL_EVENTS_ordered_retry, F.OPAL_EVENTS_serial_runs]
  | .CORE_VAULT_ECC => [F.CORE_VAULT_ECC_corrected, F.CORE_VAULT_ECC_uncorrected, F.CORE_VAULT_ECC_poison_reads]
  | .CORE_VAULT_SPARE => [F.CORE_VAULT_SPARE_rows_remapped, F.CORE_VAULT_SPARE_banks_remapped, F.CORE_VAULT_SPARE_bank_copy, F.CORE_VAULT_SPARE_scrub_passes]
  | .CORE_SPM_ECC => [F.CORE_SPM_ECC_corrected, F.CORE_SPM_ECC_uncorrected]
  | .CORE_SPM_OWNER => [F.CORE_SPM_OWNER_granules]
  | .CLU_CLM_GRANULE => [F.CLU_CLM_GRANULE_owner, F.CLU_CLM_GRANULE_zeroing]
  | .CLU_CLM_ECC => [F.CLU_CLM_ECC_corrected, F.CLU_CLM_ECC_uncorrected, F.CLU_CLM_ECC_ordered_wait]
  | .CORE_VAULT_PAGE => [F.CORE_VAULT_PAGE_owner, F.CORE_VAULT_PAGE_others_rd, F.CORE_VAULT_PAGE_others_wr]
  | .CORE_CTX_CMD => [F.CORE_CTX_CMD_slot, F.CORE_CTX_CMD_op, F.CORE_CTX_CMD_busy, F.CORE_CTX_CMD_last_result]
  | .PORTAL_OUT_RING => [F.PORTAL_OUT_RING_size_code, F.PORTAL_OUT_RING_base_4k]
  | .PORTAL_OUT_PTR => [F.PORTAL_OUT_PTR_head, F.PORTAL_OUT_PTR_tail]
  | .PORTAL_OUT_COAL => [F.PORTAL_OUT_COAL_coal_records, F.PORTAL_OUT_COAL_coal_us]
  | .PORTAL_SEQ_CREDITS => [F.PORTAL_SEQ_CREDITS_seq_available, F.PORTAL_SEQ_CREDITS_seq_dropped, F.PORTAL_SEQ_CREDITS_seq_bad_write, F.PORTAL_SEQ_CREDITS_stall_events]
  | .PORTAL_STEP_BIND => [F.PORTAL_STEP_BIND_table]
  | .PORTAL_SEQ_STATUS => [F.PORTAL_SEQ_STATUS_bind_result, F.PORTAL_SEQ_STATUS_live]
  | .LAMP_STATUS => [F.LAMP_STATUS_live, F.LAMP_STATUS_steps_in_flight, F.LAMP_STATUS_steps]
  | .LAMP_TOKEN_COUNT => [F.LAMP_TOKEN_COUNT_emitted, F.LAMP_TOKEN_COUNT_drafts_accepted]
  | .LAMP_CTX_CFG => [F.LAMP_CTX_CFG_detect_us, F.LAMP_CTX_CFG_idle_us]
  | .LAMP_CTX_EVENT => [F.LAMP_CTX_EVENT_all_blocked, F.LAMP_CTX_EVENT_core, F.LAMP_CTX_EVENT_auto_evictions, F.LAMP_CTX_EVENT_blocked_events]
  | .LAMP_SEQ_SEL => [F.LAMP_SEQ_SEL_index]
  | .LAMP_SEQ_WINDOW => [F.LAMP_SEQ_WINDOW_entry]
  | .LAMP_SLICE_CFG => [F.LAMP_SLICE_CFG_seq_limit]
  | .BER_STATUS => [F.BER_STATUS_bank, F.BER_STATUS_run0, F.BER_STATUS_run1, F.BER_STATUS_rental_slot, F.BER_STATUS_poison0, F.BER_STATUS_poison1, F.BER_STATUS_pc0, F.BER_STATUS_pc1]
  | .BER_SAT => [F.BER_SAT_acc_sat, F.BER_SAT_int_sat, F.BER_SAT_special, F.BER_SAT_last_slot]
  | .BER_FAULT => [F.BER_FAULT_corrected, F.BER_FAULT_uncorrected, F.BER_FAULT_poison_sets, F.BER_FAULT_last_slot]
  | .BER_VALID => [F.BER_VALID_x_valid, F.BER_VALID_y_valid, F.BER_VALID_i_valid]
  | .BER_ISSUE => [F.BER_ISSUE_count]
  | .BER_STALL => [F.BER_STALL_count]
  | .CLU_CELL_CFG_ADDR => [F.CLU_CELL_CFG_ADDR_addr]
  | .CLU_CELL_CMD => [F.CLU_CELL_CMD_op, F.CLU_CELL_CMD_next, F.CLU_CELL_CMD_at_frame]
  | .CLU_CELL_STATE => [F.CLU_CELL_STATE_state, F.CLU_CELL_STATE_last_result, F.CLU_CELL_STATE_frame, F.CLU_CELL_STATE_slot]
  | .CLU_LANT_CTL => [F.CLU_LANT_CTL_entry, F.CLU_LANT_CTL_run, F.CLU_LANT_CTL_running, F.CLU_LANT_CTL_fault]
  | .CLU_CELL_RING_PTR => [F.CLU_CELL_RING_PTR_head, F.CLU_CELL_RING_PTR_tail]
  | .CLU_CELL_CNT => [F.CLU_CELL_CNT_plan_late, F.CLU_CELL_CNT_prach_det, F.CLU_CELL_CNT_prach_overlap, F.CLU_CELL_CNT_rar_unanswered, F.CLU_CELL_CNT_ul_crc_fail, F.CLU_CELL_CNT_ul_late, F.CLU_CELL_CNT_report_lost]
  | .JSP_RING_STATE => [F.JSP_RING_STATE_prod_seen, F.JSP_RING_STATE_cons]
  | .JSP_ENGINE => [F.JSP_ENGINE_state, F.JSP_ENGINE_busy, F.JSP_ENGINE_ring, F.JSP_ENGINE_busy_cycles]
  | .JSP_CNT => [F.JSP_CNT_done, F.JSP_CNT_late, F.JSP_CNT_aborted, F.JSP_CNT_error, F.JSP_CNT_cb_crc_fail, F.JSP_CNT_ring_overrun, F.JSP_CNT_poison]
  | .FIFO_CFG => [F.FIFO_CFG_dir, F.FIFO_CFG_legacy, F.FIFO_CFG_threshold]
  | .FIFO_STATUS => [F.FIFO_STATUS_words, F.FIFO_STATUS_packets, F.FIFO_STATUS_parity_err, F.FIFO_STATUS_dropped, F.FIFO_STATUS_drop_rest]
  | .FIFO_CMD => [F.FIFO_CMD_op]
  | .FH_IF_STATUS => [F.FH_IF_STATUS_src_mac, F.FH_IF_STATUS_present, F.FH_IF_STATUS_link_up, F.FH_IF_STATUS_speed, F.FH_IF_STATUS_link_downs]
  | .FH_IF_CNT => [F.FH_IF_CNT_rx_frames, F.FH_IF_CNT_rx_fcs_err, F.FH_IF_CNT_tx_frames, F.FH_IF_CNT_rx_unmatched, F.FH_IF_CNT_rx_oversize, F.FH_IF_CNT_bfp_sat, F.FH_IF_CNT_oversize_drop, F.FH_IF_CNT_fifo_full_drop, F.FH_IF_CNT_seq_gap, F.FH_IF_CNT_rx_late, F.FH_IF_CNT_host_rx_drop, F.FH_IF_CNT_tx_bad_len]
  | .FH_LATE_TOLERANCE => [F.FH_LATE_TOLERANCE_tol_ns]
  | .FH_LATE_DROP => [F.FH_LATE_DROP_count, F.FH_LATE_DROP_last_late_ns]
  | .FH_GATE_CTL => [F.FH_GATE_CTL_admin_len, F.FH_GATE_CTL_wnc_mode, F.FH_GATE_CTL_enable, F.FH_GATE_CTL_commit, F.FH_GATE_CTL_cancel, F.FH_GATE_CTL_cycle_ns]
  | .FH_GATE_BASE => [F.FH_GATE_BASE_base_wnc, F.FH_GATE_BASE_epoch]
  | .FH_GATE_STATUS => [F.FH_GATE_STATUS_pending, F.FH_GATE_STATUS_gate_late_start, F.FH_GATE_STATUS_oper_enable, F.FH_GATE_STATUS_oper_len, F.FH_GATE_STATUS_cur_entry, F.FH_GATE_STATUS_gate_overrun]
  | .FH_GATE_LIST => [F.FH_GATE_LIST_interval_ns, F.FH_GATE_LIST_gates]
  | .FH_HOST_RING => [F.FH_HOST_RING_rx_code, F.FH_HOST_RING_tx_code, F.FH_HOST_RING_base_4k]
  | .FH_HOST_PTR => [F.FH_HOST_PTR_rx_head, F.FH_HOST_PTR_rx_tail, F.FH_HOST_PTR_tx_head, F.FH_HOST_PTR_tx_tail]
  | .FH_SHAPER => [F.FH_SHAPER_rate, F.FH_SHAPER_burst, F.FH_SHAPER_tokens]
  | .FH_HIST_SEL => [F.FH_HIST_SEL_queue, F.FH_HIST_SEL_clear]
  | .FH_HIST_WINDOW => [F.FH_HIST_WINDOW_depth, F.FH_HIST_WINDOW_delay]
  | .TIME_NOW => [F.TIME_NOW_frac_ns, F.TIME_NOW_ns, F.TIME_NOW_seconds]
  | .TIME_TOTAL => [F.TIME_TOTAL_total]
  | .TIME_INCREMENT => [F.TIME_INCREMENT_incr]
  | .TIME_ADJ_VALUE => [F.TIME_ADJ_VALUE_ns, F.TIME_ADJ_VALUE_seconds]
  | .TIME_ADJ_CTL => [F.TIME_ADJ_CTL_op, F.TIME_ADJ_CTL_go]
  | .TIME_STATUS => [F.TIME_STATUS_time_set, F.TIME_STATUS_inc_clamped, F.TIME_STATUS_adj_refused, F.TIME_STATUS_ref_lock, F.TIME_STATUS_steps, F.TIME_STATUS_ticks_skipped]
  | .TIME_PPS_CTL => [F.TIME_PPS_CTL_out_en, F.TIME_PPS_CTL_in_en, F.TIME_PPS_CTL_width_us]
  | .TIME_PPS_IN => [F.TIME_PPS_IN_ns, F.TIME_PPS_IN_edges, F.TIME_PPS_IN_seconds]
  | .TIME_SYNCE_CTL => [F.TIME_SYNCE_CTL_rclk_if, F.TIME_SYNCE_CTL_rclk_en]
  | .SLC_CFG => [F.SLC_CFG_credit_limit, F.SLC_CFG_ats_en, F.SLC_CFG_pri_en]
  | .SLC_STATE => [F.SLC_STATE_state, F.SLC_STATE_confidential, F.SLC_STATE_privileged, F.SLC_STATE_protect_radio, F.SLC_STATE_tdi_state, F.SLC_STATE_partition, F.SLC_STATE_contexts]
  | .SLC_CMD => [F.SLC_CMD_op, F.SLC_CMD_save_vault, F.SLC_CMD_busy, F.SLC_CMD_last_result]
  | .SLC_XFER_ADDR => [F.SLC_XFER_ADDR_addr_4k]
  | .SLC_XFER_LEN => [F.SLC_XFER_LEN_buf_len]
  | .SLC_XFER_DONE => [F.SLC_XFER_DONE_image_len]
  | .SLC_LOG_RING => [F.SLC_LOG_RING_size_code, F.SLC_LOG_RING_base_4k]
  | .SLC_LOG_PTR => [F.SLC_LOG_PTR_head, F.SLC_LOG_PTR_tail]
  | .SLC_LOG_STATUS => [F.SLC_LOG_STATUS_logging, F.SLC_LOG_STATUS_overflow, F.SLC_LOG_STATUS_pages_logged]
  | .SLC_MSG => [F.SLC_MSG_addr, F.SLC_MSG_data, F.SLC_MSG_mask, F.SLC_MSG_pending]
  | .SLC_CREDIT_TOTAL => [F.SLC_CREDIT_TOTAL_committed]
  | .SLC_DONE => [F.SLC_DONE_done]
  | .CORE_SCHED => [F.CORE_SCHED_credit, F.CORE_SCHED_picks]
  | .CORE_ND_COUNT => [F.CORE_ND_COUNT_count]
  | .SLC_ND_TOTAL => [F.SLC_ND_TOTAL_total]
  | .SLC_ND_CLR => [F.SLC_ND_CLR_clear]
  | .CORE_DIGEST_PTR => [F.CORE_DIGEST_PTR_head, F.CORE_DIGEST_PTR_ended, F.CORE_DIGEST_PTR_wrapped]
  | .HLTH_CFG => [F.HLTH_CFG_retire_threshold, F.HLTH_CFG_vigil_interval_min, F.HLTH_CFG_stale_h, F.HLTH_CFG_vigil_en]
  | .HLTH_EVENT => [F.HLTH_EVENT_retired, F.HLTH_EVENT_flagged, F.HLTH_EVENT_vigil_fail, F.HLTH_EVENT_failed, F.HLTH_EVENT_stale, F.HLTH_EVENT_overrun, F.HLTH_EVENT_spares_out, F.HLTH_EVENT_last_unit, F.HLTH_EVENT_vigil_lost]
  | .HLTH_VIGIL_RING => [F.HLTH_VIGIL_RING_size_code, F.HLTH_VIGIL_RING_base_4k]
  | .HLTH_VIGIL_PTR => [F.HLTH_VIGIL_PTR_head, F.HLTH_VIGIL_PTR_tail]
  | .HLTH_VIGIL_REQ => [F.HLTH_VIGIL_REQ_unit, F.HLTH_VIGIL_REQ_test, F.HLTH_VIGIL_REQ_temp_target, F.HLTH_VIGIL_REQ_temp_tol, F.HLTH_VIGIL_REQ_load_class, F.HLTH_VIGIL_REQ_class_en, F.HLTH_VIGIL_REQ_temp_en, F.HLTH_VIGIL_REQ_go, F.HLTH_VIGIL_REQ_cancel, F.HLTH_VIGIL_REQ_pending]
  | .HLTH_RATE => [F.HLTH_RATE_in_window, F.HLTH_RATE_flagged, F.HLTH_RATE_next_free_s]
  | .HLTH_UNIT => [F.HLTH_UNIT_score, F.HLTH_UNIT_state, F.HLTH_UNIT_flagged, F.HLTH_UNIT_stale, F.HLTH_UNIT_last_pass_ok, F.HLTH_UNIT_hard, F.HLTH_UNIT_passes, F.HLTH_UNIT_vigil_fails, F.HLTH_UNIT_use_faults]
  | .HLTH_MON => [F.HLTH_MON_temp, F.HLTH_MON_volt, F.HLTH_MON_proc]
  | .HLTH_LINK => [F.HLTH_LINK_noc_retries, F.HLTH_LINK_d2d_retries]
  | .CLINK_PORT_STATUS => [F.CLINK_PORT_STATUS_role, F.CLINK_PORT_STATUS_link_up, F.CLINK_PORT_STATUS_spare_used, F.CLINK_PORT_STATUS_member, F.CLINK_PORT_STATUS_group_id, F.CLINK_PORT_STATUS_link_downs, F.CLINK_PORT_STATUS_fenced_drop]
  | .CLINK_PORT_CNT => [F.CLINK_PORT_CNT_retries, F.CLINK_PORT_CNT_xfer_done, F.CLINK_PORT_CNT_xfer_aborted, F.CLINK_PORT_CNT_xfer_error, F.CLINK_PORT_CNT_late_releases]
  | .CLINK_FENCE => [F.CLINK_FENCE_allow]
  | .CLINK_TIME => [F.CLINK_TIME_offset, F.CLINK_TIME_delay, F.CLINK_TIME_valid]
  | .CLINK_TWIN_STATUS => [F.CLINK_TWIN_STATUS_state, F.CLINK_TWIN_STATUS_missed, F.CLINK_TWIN_STATUS_mirror_ok, F.CLINK_TWIN_STATUS_handover_done, F.CLINK_TWIN_STATUS_takeover_fail, F.CLINK_TWIN_STATUS_handover_fail, F.CLINK_TWIN_STATUS_dual_cells]
  | .CLINK_TWIN_CTL => [F.CLINK_TWIN_CTL_takeover_en, F.CLINK_TWIN_CTL_handover]
  | .CLINK_MIRROR_DUMP => [F.CLINK_MIRROR_DUMP_addr_4k]
  | .CLINK_XQ => [F.CLINK_XQ_owner, F.CLINK_XQ_ring_code, F.CLINK_XQ_bad_cfg, F.CLINK_XQ_prod_obj, F.CLINK_XQ_ring]
  | .CLINK_GRANT => [F.CLINK_GRANT_base, F.CLINK_GRANT_enable, F.CLINK_GRANT_src_member, F.CLINK_GRANT_slice, F.CLINK_GRANT_length, F.CLINK_GRANT_arrive_obj, F.CLINK_GRANT_arrive_en]
  | .CLINK_GROUP_CFG => [F.CLINK_GROUP_CFG_grp_obj_base, F.CLINK_GROUP_CFG_grp_obj_count, F.CLINK_GROUP_CFG_release_lead_ns]
  | .CLINK_GROUP_MEMBERS => [F.CLINK_GROUP_MEMBERS_present, F.CLINK_GROUP_MEMBERS_admitted]
  | .CLINK_ARRIVAL => [F.CLINK_ARRIVAL_arrival, F.CLINK_ARRIVAL_lag_ns]
  | .DEV_BAD_ACCESS => [F.DEV_BAD_ACCESS_count, F.DEV_BAD_ACCESS_last_offset, F.DEV_BAD_ACCESS_last_bar]
  | .DEV_RESET => [F.DEV_RESET_key]
  | .ONYX_BOOT_CTL => [F.ONYX_BOOT_CTL_len, F.ONYX_BOOT_CTL_go]
  | .ONYX_BOOT_STATUS => [F.ONYX_BOOT_STATUS_result, F.ONYX_BOOT_STATUS_fail_stage, F.ONYX_BOOT_STATUS_cert_ok, F.ONYX_BOOT_STATUS_attempts, F.ONYX_BOOT_STATUS_verify_us]
  | .ONYX_SVN => [F.ONYX_SVN_counter, F.ONYX_SVN_commit, F.ONYX_SVN_commit_refused]
  | .DEV_STATUS => [F.DEV_STATUS_boot_state, F.DEV_STATUS_ready, F.DEV_STATUS_stepping, F.DEV_STATUS_security_version, F.DEV_STATUS_fw_build]
  | .ONYX_ID_HASH => [F.ONYX_ID_HASH_digest]
  | .ONYX_KEY_SLOT => [F.ONYX_KEY_SLOT_public_key, F.ONYX_KEY_SLOT_enrolled, F.ONYX_KEY_SLOT_revoked, F.ONYX_KEY_SLOT_damaged]
  | .ONYX_ENROL_ADDR => [F.ONYX_ENROL_ADDR_addr_4k]
  | .ONYX_ENROL_CTL => [F.ONYX_ENROL_CTL_go, F.ONYX_ENROL_CTL_busy, F.ONYX_ENROL_CTL_last_result]
  | .DEV_INFO => [F.DEV_INFO_active_cores, F.DEV_INFO_phys_cores, F.DEV_INFO_clusters, F.DEV_INFO_compute_dies, F.DEV_INFO_slices, F.DEV_INFO_map_version]
  | .DEV_SCRATCH => [F.DEV_SCRATCH_value]

/-- What a field of `w` bits at bit `lo` holds in `v`. -/
def getBits (v : RegVal) (lo w : Nat) : Nat := (v.toNat >>> lo) % 2 ^ w

/-- `v` with the `w` bits at bit `lo` holding `x` (its low `w` bits). -/
def setBits (v : RegVal) (lo w x : Nat) : RegVal :=
  let mask : RegVal := BitVec.ofNat 512 ((2 ^ w - 1) <<< lo)
  (v &&& ~~~ mask) ||| BitVec.ofNat 512 ((x % 2 ^ w) <<< lo)

/-- The value that the field tables give a register at reset, before the exceptions that depend on the
instance. -/
def Reg.tableReset (r : Reg) : RegVal := r.fields.foldl (fun v f => setBits v f.lo f.width f.reset) 0

/-- Units that are spares under the default map (R386, R12, R306): core slot 8 and its vault, Jasper
engine 2, Lantern 1, SerDes 4 and 5 of an Ethernet port, SerDes 8 of a Citia Link port. -/
def spareUnit (u : Nat) : Bool :=
  if u < 288 then u % 9 = 8
  else if u < 576 then (u - 288) % 9 = 8
  else if u < 672 then (u - 576) % 3 = 2
  else if u < 736 then (u - 672) % 2 = 1
  else if u < 768 then false
  else if u < 816 then 4 ≤ (u - 768) % 6
  else if u < 834 then (u - 816) % 9 = 8
  else false

/-- HLTH_UNIT at reset: score 255, state 1 for spare units. -/
def unitReset (u : Nat) : RegVal :=
  setBits (Reg.tableReset .HLTH_UNIT) 8 3 (if spareUnit u then 1 else 0)

/-- FH_SHAPER at reset: burst 64 for the service nodes from 1,280; a subscriber node holds what the cut
gives, and 0 before any cut (log entry 3). -/
def shaperReset (node : Nat) : RegVal :=
  if 1280 ≤ node then setBits 0 16 16 64 else 0

/-- The Reset column where it depends on the instance `i`: CORE_IDENT (R18, R19), JSP_ENGINE.state,
FH_IF_STATUS.present, HLTH_UNIT.state (the spares of R386), FH_SHAPER (service nodes).  The fused
base of FH_IF_STATUS.src_mac is a DESIGN CHOICE: 0 (log entry 3). -/
def Reg.resetVal (r : Reg) (i : Nat) : RegVal :=
  match r with
  | .CORE_IDENT =>
    let slot := i % 9
    let v := setBits (setBits (setBits 0 0 9 i) 12 4 slot) 16 5 (i / 9)
    if slot < 8 then setBits v 24 8 (8 * (i / 9) + slot) else setBits v 32 2 1
  | .JSP_ENGINE => if i % 3 < 2 then 0 else setBits 0 0 2 1
  | .FH_IF_STATUS => setBits (setBits 0 0 48 i) 48 1 (if i % 4 = 0 then 1 else 0)
  | .HLTH_UNIT => unitReset i
  | .FH_SHAPER => shaperReset i
  | _ => r.tableReset

/-- The register spaces of R455 to R457. -/
inductive Space where
  | pf0Bar0 | pf0Bar2 | pf1Bar0
deriving DecidableEq, Repr

/-- How an address of PF1 BAR0 stands for a register (R457 to R459). -/
inductive View where
  /-- The register itself. -/
  | own
  /-- A mirror, read-only, indexed as the PF0 windows are. -/
  | mirror
  /-- The lease mirror, indexed by logical core (R459). -/
  | leaseMirror
  /-- A mirror whose fields take PF1 writes as R458 says (FIFO_CMD, FH_SHAPER). -/
  | writable
deriving DecidableEq, Repr

/-- A row of the map of chapter 20: windows of `winStride` bytes from `base`, in each of which the
register has `per` instances of `stride` bytes; instance numbers start at `first`. -/
structure Place where
  reg : Reg
  space : Space
  view : View
  base : Nat
  winStride : Nat
  wins : Nat
  stride : Nat
  per : Nat
  first : Nat
deriving DecidableEq, Repr

/-- PF0 BAR0, registers at fixed addresses, part 1. -/
def fixedPlaces1 : List Place :=
  [⟨.DEV_STATUS, .pf0Bar0, .own, 0, 0x10000000000, 1, 0x10000000000, 1, 0⟩,
   ⟨.DEV_RESET, .pf0Bar0, .own, 8, 0x10000000000, 1, 0x10000000000, 1, 0⟩,
   ⟨.DEV_BAD_ACCESS, .pf0Bar0, .own, 16, 0x10000000000, 1, 0x10000000000, 1, 0⟩,
   ⟨.DEV_INFO, .pf0Bar0, .own, 24, 0x10000000000, 1, 0x10000000000, 1, 0⟩,
   ⟨.DEV_SCRATCH, .pf0Bar0, .own, 32, 0x10000000000, 1, 0x10000000000, 1, 0⟩,
   ⟨.DEV_APERTURE_BASE, .pf0Bar0, .own, 512, 0x10000000000, 1, 0x10000000000, 1, 0⟩,
   ⟨.CUT_LOAD_ADDR, .pf0Bar0, .own, 0x100000, 0x10000000000, 1, 0x10000000000, 1, 0⟩,
   ⟨.CUT_CTL, .pf0Bar0, .own, 0x100008, 0x10000000000, 1, 0x10000000000, 1, 0⟩,
   ⟨.CUT_STATUS, .pf0Bar0, .own, 0x100010, 0x10000000000, 1, 0x10000000000, 1, 0⟩,
   ⟨.CUT_GEN, .pf0Bar0, .own, 0x100018, 0x10000000000, 1, 0x10000000000, 1, 0⟩,
   ⟨.CUT_STAGED_TICK, .pf0Bar0, .own, 0x100020, 0x10000000000, 1, 0x10000000000, 1, 0⟩,
   ⟨.CUT_EVENT, .pf0Bar0, .own, 0x100028, 0x10000000000, 1, 0x10000000000, 1, 0⟩,
   ⟨.CUT_CHAIN_DIGEST, .pf0Bar0, .own, 0x100040, 0x10000000000, 1, 0x10000000000, 1, 0⟩,
   ⟨.ONYX_BOOT_CTL, .pf0Bar0, .own, 0x200000, 0x10000000000, 1, 0x10000000000, 1, 0⟩,
   ⟨.ONYX_BOOT_STATUS, .pf0Bar0, .own, 0x200008, 0x10000000000, 1, 0x10000000000, 1, 0⟩,
   ⟨.ONYX_SVN, .pf0Bar0, .own, 0x200010, 0x10000000000, 1, 0x10000000000, 1, 0⟩,
   ⟨.ONYX_ID_HASH, .pf0Bar0, .own, 0x200020, 0x10000000000, 1, 0x10000000000, 1, 0⟩,
   ⟨.ONYX_ENROL_ADDR, .pf0Bar0, .own, 0x200040, 0x10000000000, 1, 0x10000000000, 1, 0⟩,
   ⟨.ONYX_ENROL_CTL, .pf0Bar0, .own, 0x200048, 0x10000000000, 1, 0x10000000000, 1, 0⟩,
   ⟨.ONYX_KEY_SLOT, .pf0Bar0, .own, 0x200100, 0x10000000000, 1, 64, 4, 0⟩,
   ⟨.TIME_NOW, .pf0Bar0, .own, 0x300000, 0x10000000000, 1, 0x10000000000, 1, 0⟩,
   ⟨.TIME_TOTAL, .pf0Bar0, .own, 0x300010, 0x10000000000, 1, 0x10000000000, 1, 0⟩,
   ⟨.TIME_INCREMENT, .pf0Bar0, .own, 0x300020, 0x10000000000, 1, 0x10000000000, 1, 0⟩,
   ⟨.TIME_ADJ_VALUE, .pf0Bar0, .own, 0x300030, 0x10000000000, 1, 0x10000000000, 1, 0⟩]

/-- PF0 BAR0, registers at fixed addresses, part 2. -/
def fixedPlaces2 : List Place :=
  [⟨.TIME_ADJ_CTL, .pf0Bar0, .own, 0x300040, 0x10000000000, 1, 0x10000000000, 1, 0⟩,
   ⟨.TIME_STATUS, .pf0Bar0, .own, 0x300048, 0x10000000000, 1, 0x10000000000, 1, 0⟩,
   ⟨.TIME_PPS_CTL, .pf0Bar0, .own, 0x300100, 0x10000000000, 1, 0x10000000000, 1, 0⟩,
   ⟨.TIME_PPS_IN, .pf0Bar0, .own, 0x300108, 0x10000000000, 1, 0x10000000000, 1, 0⟩,
   ⟨.TIME_SYNCE_CTL, .pf0Bar0, .own, 0x300118, 0x10000000000, 1, 0x10000000000, 1, 0⟩,
   ⟨.TIME_TICK_STATUS, .pf0Bar0, .own, 0x300200, 0x10000000000, 1, 0x10000000000, 1, 0⟩,
   ⟨.TIME_TICK_NUMBER, .pf0Bar0, .own, 0x300208, 0x10000000000, 1, 0x10000000000, 1, 0⟩,
   ⟨.TIME_TICK_BASE, .pf0Bar0, .own, 0x300210, 0x10000000000, 1, 0x10000000000, 1, 0⟩,
   ⟨.FH_SHAPER, .pf0Bar0, .own, 0x420000, 0x10000000000, 1, 8, 1408, 0⟩,
   ⟨.FH_HIST_SEL, .pf0Bar0, .own, 0x460000, 0x10000000000, 1, 0x10000000000, 1, 0⟩,
   ⟨.FH_HIST_WINDOW, .pf0Bar0, .own, 0x460100, 0x10000000000, 1, 0x10000000000, 1, 0⟩,
   ⟨.CLINK_GROUP_CFG, .pf0Bar0, .own, 0x820000, 0x10000000000, 1, 0x10000000000, 1, 0⟩,
   ⟨.CLINK_GROUP_MEMBERS, .pf0Bar0, .own, 0x820008, 0x10000000000, 1, 0x10000000000, 1, 0⟩,
   ⟨.CLINK_ARRIVAL, .pf0Bar0, .own, 0x821000, 0x10000000000, 1, 8, 64, 0⟩,
   ⟨.LAMP_STATUS, .pf0Bar0, .own, 0x900000, 0x10000000000, 1, 0x80000, 2, 0⟩,
   ⟨.LAMP_TOKEN_COUNT, .pf0Bar0, .own, 0x900008, 0x10000000000, 1, 0x80000, 2, 0⟩,
   ⟨.LAMP_CTX_CFG, .pf0Bar0, .own, 0x900010, 0x10000000000, 1, 0x80000, 2, 0⟩,
   ⟨.LAMP_CTX_EVENT, .pf0Bar0, .own, 0x900018, 0x10000000000, 1, 0x80000, 2, 0⟩,
   ⟨.LAMP_SEQ_SEL, .pf0Bar0, .own, 0x900100, 0x10000000000, 1, 0x80000, 2, 0⟩,
   ⟨.LAMP_SEQ_WINDOW, .pf0Bar0, .own, 0x901000, 0x10000000000, 1, 0x80000, 2, 0⟩,
   ⟨.LAMP_SLICE_CFG, .pf0Bar0, .own, 0x970000, 0x10000000000, 1, 8, 256, 0⟩,
   ⟨.SLC_CREDIT_TOTAL, .pf0Bar0, .own, 0xb00000, 0x10000000000, 1, 0x10000000000, 1, 0⟩,
   ⟨.SLC_DONE, .pf0Bar0, .own, 0xb00100, 0x10000000000, 1, 0x10000000000, 1, 0⟩,
   ⟨.HLTH_CFG, .pf0Bar0, .own, 0xc00000, 0x10000000000, 1, 0x10000000000, 1, 0⟩]

/-- PF0 BAR0, registers at fixed addresses, part 3. -/
def fixedPlaces3 : List Place :=
  [⟨.HLTH_EVENT, .pf0Bar0, .own, 0xc00008, 0x10000000000, 1, 0x10000000000, 1, 0⟩,
   ⟨.HLTH_VIGIL_RING, .pf0Bar0, .own, 0xc00010, 0x10000000000, 1, 0x10000000000, 1, 0⟩,
   ⟨.HLTH_VIGIL_PTR, .pf0Bar0, .own, 0xc00018, 0x10000000000, 1, 0x10000000000, 1, 0⟩,
   ⟨.HLTH_VIGIL_REQ, .pf0Bar0, .own, 0xc00020, 0x10000000000, 1, 0x10000000000, 1, 0⟩,
   ⟨.HLTH_RATE, .pf0Bar0, .own, 0xc00100, 0x10000000000, 1, 8, 42, 0⟩,
   ⟨.HLTH_UNIT, .pf0Bar0, .own, 0xc01000, 0x10000000000, 1, 8, 1024, 0⟩,
   ⟨.HLTH_MON, .pf0Bar0, .own, 0xc04000, 0x10000000000, 1, 8, 144, 0⟩,
   ⟨.HLTH_LINK, .pf0Bar0, .own, 0xc05000, 0x10000000000, 1, 8, 2, 0⟩,
   ⟨.SYNC_OBJ, .pf0Bar0, .own, 0xe00000, 0x10000000000, 1, 16, 32768, 0⟩,
   ⟨.SYNC_CTL, .pf0Bar0, .own, 0xe80000, 0x10000000000, 1, 0x10000000000, 1, 0⟩]

/-- PF0 BAR0, registers at fixed addresses. -/
def fixedPlaces : List Place := fixedPlaces1 ++ fixedPlaces2 ++ fixedPlaces3

/-- PF0 BAR0, windowed registers, part 1. -/
def windowPlaces1 : List Place :=
  [⟨.FH_IF_STATUS, .pf0Bar0, .own, 0x400000, 0x1000, 32, 0x10000000000, 1, 0⟩,
   ⟨.FH_IF_CNT, .pf0Bar0, .own, 0x400008, 0x1000, 32, 0x10000000000, 1, 0⟩,
   ⟨.FH_LATE_TOLERANCE, .pf0Bar0, .own, 0x400028, 0x1000, 32, 0x10000000000, 1, 0⟩,
   ⟨.FH_LATE_DROP, .pf0Bar0, .own, 0x400030, 0x1000, 32, 0x10000000000, 1, 0⟩,
   ⟨.FH_GATE_CTL, .pf0Bar0, .own, 0x400100, 0x1000, 32, 0x10000000000, 1, 0⟩,
   ⟨.FH_GATE_BASE, .pf0Bar0, .own, 0x400108, 0x1000, 32, 0x10000000000, 1, 0⟩,
   ⟨.FH_GATE_STATUS, .pf0Bar0, .own, 0x400110, 0x1000, 32, 0x10000000000, 1, 0⟩,
   ⟨.FH_HOST_RING, .pf0Bar0, .own, 0x400200, 0x1000, 32, 0x10000000000, 1, 0⟩,
   ⟨.FH_HOST_PTR, .pf0Bar0, .own, 0x400208, 0x1000, 32, 0x10000000000, 1, 0⟩,
   ⟨.FH_GATE_LIST, .pf0Bar0, .own, 0x400800, 0x1000, 32, 8, 256, 0⟩,
   ⟨.CLINK_PORT_STATUS, .pf0Bar0, .own, 0x800000, 0x10000, 2, 0x10000000000, 1, 0⟩,
   ⟨.CLINK_PORT_CNT, .pf0Bar0, .own, 0x800008, 0x10000, 2, 0x10000000000, 1, 0⟩,
   ⟨.CLINK_FENCE, .pf0Bar0, .own, 0x800018, 0x10000, 2, 0x10000000000, 1, 0⟩,
   ⟨.CLINK_TIME, .pf0Bar0, .own, 0x800020, 0x10000, 2, 0x10000000000, 1, 0⟩,
   ⟨.CLINK_TWIN_STATUS, .pf0Bar0, .own, 0x800100, 0x10000, 2, 0x10000000000, 1, 0⟩,
   ⟨.CLINK_TWIN_CTL, .pf0Bar0, .own, 0x800108, 0x10000, 2, 0x10000000000, 1, 0⟩,
   ⟨.CLINK_MIRROR_DUMP, .pf0Bar0, .own, 0x800110, 0x10000, 2, 0x10000000000, 1, 0⟩,
   ⟨.CLINK_XQ, .pf0Bar0, .own, 0x801000, 0x10000, 2, 16, 16, 0⟩,
   ⟨.CLINK_GRANT, .pf0Bar0, .own, 0x802000, 0x10000, 2, 16, 64, 0⟩,
   ⟨.SLC_CFG, .pf0Bar0, .own, 0xa00000, 0x1000, 256, 0x10000000000, 1, 0⟩,
   ⟨.SLC_STATE, .pf0Bar0, .own, 0xa00008, 0x1000, 256, 0x10000000000, 1, 0⟩,
   ⟨.SLC_CMD, .pf0Bar0, .own, 0xa00010, 0x1000, 256, 0x10000000000, 1, 0⟩,
   ⟨.SLC_XFER_ADDR, .pf0Bar0, .own, 0xa00018, 0x1000, 256, 0x10000000000, 1, 0⟩,
   ⟨.SLC_XFER_LEN, .pf0Bar0, .own, 0xa00020, 0x1000, 256, 0x10000000000, 1, 0⟩]

/-- PF0 BAR0, windowed registers, part 2. -/
def windowPlaces2 : List Place :=
  [⟨.SLC_XFER_DONE, .pf0Bar0, .own, 0xa00028, 0x1000, 256, 0x10000000000, 1, 0⟩,
   ⟨.SLC_LOG_RING, .pf0Bar0, .own, 0xa00030, 0x1000, 256, 0x10000000000, 1, 0⟩,
   ⟨.SLC_LOG_PTR, .pf0Bar0, .own, 0xa00038, 0x1000, 256, 0x10000000000, 1, 0⟩,
   ⟨.SLC_LOG_STATUS, .pf0Bar0, .own, 0xa00040, 0x1000, 256, 0x10000000000, 1, 0⟩,
   ⟨.SLC_MSG, .pf0Bar0, .own, 0xa00100, 0x1000, 256, 16, 8, 0⟩,
   ⟨.SLC_ND_TOTAL, .pf0Bar0, .own, 0xa00200, 0x1000, 256, 0x10000000000, 1, 0⟩,
   ⟨.SLC_ND_CLR, .pf0Bar0, .own, 0xa00208, 0x1000, 256, 0x10000000000, 1, 0⟩,
   ⟨.CORE_IDENT, .pf0Bar0, .own, 0x1000000, 0x10000, 288, 0x10000000000, 1, 0⟩,
   ⟨.GAR_ISSUE_CTL, .pf0Bar0, .own, 0x1000040, 0x10000, 288, 0x10000000000, 1, 0⟩,
   ⟨.GAR_MAX_INSTR_TIME, .pf0Bar0, .own, 0x1000044, 0x10000, 288, 0x10000000000, 1, 0⟩,
   ⟨.GAR_BANK_STATE, .pf0Bar0, .own, 0x1000048, 0x10000, 288, 0x10000000000, 1, 0⟩,
   ⟨.GAR_FAULT, .pf0Bar0, .own, 0x1000050, 0x10000, 288, 0x10000000000, 1, 0⟩,
   ⟨.GAR_STREAM_CYCLES, .pf0Bar0, .own, 0x1000058, 0x10000, 288, 0x10000000000, 1, 0⟩,
   ⟨.GAR_BUBBLE_CYCLES, .pf0Bar0, .own, 0x1000060, 0x10000, 288, 0x10000000000, 1, 0⟩,
   ⟨.GAR_SAT_COUNT, .pf0Bar0, .own, 0x1000068, 0x10000, 288, 0x10000000000, 1, 0⟩,
   ⟨.OPAL_INFLIGHT, .pf0Bar0, .own, 0x1000080, 0x10000, 288, 0x10000000000, 1, 0⟩,
   ⟨.OPAL_EVENTS, .pf0Bar0, .own, 0x1000088, 0x10000, 288, 0x10000000000, 1, 0⟩,
   ⟨.BER_STATUS, .pf0Bar0, .own, 0x10000c0, 0x10000, 288, 0x10000000000, 1, 0⟩,
   ⟨.BER_SAT, .pf0Bar0, .own, 0x10000c8, 0x10000, 288, 0x10000000000, 1, 0⟩,
   ⟨.BER_FAULT, .pf0Bar0, .own, 0x10000d0, 0x10000, 288, 0x10000000000, 1, 0⟩,
   ⟨.BER_VALID, .pf0Bar0, .own, 0x10000d8, 0x10000, 288, 0x10000000000, 1, 0⟩,
   ⟨.BER_ISSUE, .pf0Bar0, .own, 0x10000e8, 0x10000, 288, 0x10000000000, 1, 0⟩,
   ⟨.BER_STALL, .pf0Bar0, .own, 0x10000f0, 0x10000, 288, 0x10000000000, 1, 0⟩,
   ⟨.CORE_LEASE_CFG, .pf0Bar0, .own, 0x1000100, 0x10000, 288, 0x10000000000, 1, 0⟩]

/-- PF0 BAR0, windowed registers, part 3. -/
def windowPlaces3 : List Place :=
  [⟨.CORE_LEASE_STATUS, .pf0Bar0, .own, 0x1000108, 0x10000, 288, 0x10000000000, 1, 0⟩,
   ⟨.CORE_TICK_OVERRUN, .pf0Bar0, .own, 0x1000110, 0x10000, 288, 0x10000000000, 1, 0⟩,
   ⟨.CORE_RADIO_SPILL, .pf0Bar0, .own, 0x1000118, 0x10000, 288, 0x10000000000, 1, 0⟩,
   ⟨.CORE_CTX_STATE, .pf0Bar0, .own, 0x1000200, 0x10000, 288, 8, 4, 0⟩,
   ⟨.CORE_CTX_CMD, .pf0Bar0, .own, 0x1000220, 0x10000, 288, 0x10000000000, 1, 0⟩,
   ⟨.CORE_SCHED, .pf0Bar0, .own, 0x1000240, 0x10000, 288, 8, 4, 0⟩,
   ⟨.CORE_ND_COUNT, .pf0Bar0, .own, 0x1000260, 0x10000, 288, 8, 4, 0⟩,
   ⟨.CORE_DIGEST_PTR, .pf0Bar0, .own, 0x1000280, 0x10000, 288, 8, 4, 0⟩,
   ⟨.CORE_VAULT_ECC, .pf0Bar0, .own, 0x1000300, 0x10000, 288, 0x10000000000, 1, 0⟩,
   ⟨.CORE_VAULT_SPARE, .pf0Bar0, .own, 0x1000308, 0x10000, 288, 0x10000000000, 1, 0⟩,
   ⟨.CORE_SPM_ECC, .pf0Bar0, .own, 0x1000310, 0x10000, 288, 0x10000000000, 1, 0⟩,
   ⟨.CORE_SPM_OWNER, .pf0Bar0, .own, 0x1000320, 0x10000, 288, 8, 4, 0⟩,
   ⟨.CORE_VAULT_PAGE, .pf0Bar0, .own, 0x1001000, 0x10000, 288, 8, 576, 0⟩,
   ⟨.CLU_CORE_MAP, .pf0Bar0, .own, 0x2400000, 0x40000, 32, 0x10000000000, 1, 0⟩,
   ⟨.CLU_CLM_ECC, .pf0Bar0, .own, 0x2400100, 0x40000, 32, 0x10000000000, 1, 0⟩,
   ⟨.CLU_CLM_GRANULE, .pf0Bar0, .own, 0x2400200, 0x40000, 32, 4, 128, 0⟩,
   ⟨.JSP_RING_STATE, .pf0Bar0, .own, 0x2400400, 0x40000, 32, 8, 8, 0⟩,
   ⟨.JSP_ENGINE, .pf0Bar0, .own, 0x2400440, 0x40000, 32, 8, 3, 0⟩,
   ⟨.JSP_CNT, .pf0Bar0, .own, 0x2400460, 0x40000, 32, 0x10000000000, 1, 0⟩,
   ⟨.FIFO_CFG, .pf0Bar0, .own, 0x2400800, 0x40000, 32, 32, 16, 0⟩,
   ⟨.FIFO_STATUS, .pf0Bar0, .own, 0x2400808, 0x40000, 32, 32, 16, 0⟩,
   ⟨.FIFO_CMD, .pf0Bar0, .own, 0x2400810, 0x40000, 32, 32, 16, 0⟩]

/-- PF0 BAR0, windowed registers. -/
def windowPlaces : List Place := windowPlaces1 ++ windowPlaces2 ++ windowPlaces3

/-- PF0 BAR2, the portal pages (R94). -/
def portalPlaces : List Place :=
  [⟨.PORTAL_CREDITS, .pf0Bar2, .own, 0x1000, 0x10000, 256, 0x10000000000, 1, 0⟩,
   ⟨.PORTAL_STATUS, .pf0Bar2, .own, 0x1008, 0x10000, 256, 0x10000000000, 1, 0⟩,
   ⟨.PORTAL_CREDIT_MIRROR, .pf0Bar2, .own, 0x1010, 0x10000, 256, 0x10000000000, 1, 0⟩,
   ⟨.PORTAL_ERR_RING, .pf0Bar2, .own, 0x1020, 0x10000, 256, 0x10000000000, 1, 0⟩,
   ⟨.PORTAL_ERR_PTR, .pf0Bar2, .own, 0x1028, 0x10000, 256, 0x10000000000, 1, 0⟩,
   ⟨.PORTAL_SEQ_CREDITS, .pf0Bar2, .own, 0x2800, 0x10000, 256, 0x10000000000, 1, 0⟩,
   ⟨.PORTAL_STEP_BIND, .pf0Bar2, .own, 0x2808, 0x10000, 256, 0x10000000000, 1, 0⟩,
   ⟨.PORTAL_SEQ_STATUS, .pf0Bar2, .own, 0x2810, 0x10000, 256, 0x10000000000, 1, 0⟩,
   ⟨.PORTAL_OUT_RING, .pf0Bar2, .own, 0x4000, 0x10000, 256, 0x10000000000, 1, 0⟩,
   ⟨.PORTAL_OUT_PTR, .pf0Bar2, .own, 0x4008, 0x10000, 256, 0x10000000000, 1, 0⟩,
   ⟨.PORTAL_OUT_COAL, .pf0Bar2, .own, 0x4010, 0x10000, 256, 0x10000000000, 1, 0⟩]

/-- PF1 BAR0 (R457); instance 256 of a PORTAL register is the radio portal (R99), part 1. -/
def pf1Places1 : List Place :=
  [⟨.PORTAL_CREDITS, .pf1Bar0, .own, 0x1000, 0x10000, 1, 0x10000000000, 1, 256⟩,
   ⟨.PORTAL_STATUS, .pf1Bar0, .own, 0x1008, 0x10000, 1, 0x10000000000, 1, 256⟩,
   ⟨.PORTAL_CREDIT_MIRROR, .pf1Bar0, .own, 0x1010, 0x10000, 1, 0x10000000000, 1, 256⟩,
   ⟨.PORTAL_ERR_RING, .pf1Bar0, .own, 0x1020, 0x10000, 1, 0x10000000000, 1, 256⟩,
   ⟨.PORTAL_ERR_PTR, .pf1Bar0, .own, 0x1028, 0x10000, 1, 0x10000000000, 1, 256⟩,
   ⟨.CLU_CELL_CFG_ADDR, .pf1Bar0, .own, 0x100000, 256, 1024, 0x10000000000, 1, 0⟩,
   ⟨.CLU_CELL_CMD, .pf1Bar0, .own, 0x100008, 256, 1024, 0x10000000000, 1, 0⟩,
   ⟨.CLU_CELL_STATE, .pf1Bar0, .own, 0x100010, 256, 1024, 0x10000000000, 1, 0⟩,
   ⟨.CLU_CELL_RING_PTR, .pf1Bar0, .own, 0x100018, 256, 1024, 0x10000000000, 1, 0⟩,
   ⟨.CLU_CELL_CNT, .pf1Bar0, .own, 0x100020, 256, 1024, 0x10000000000, 1, 0⟩,
   ⟨.CLU_LANT_CTL, .pf1Bar0, .own, 0x200000, 256, 32, 0x10000000000, 1, 0⟩,
   ⟨.CORE_LEASE_CFG, .pf1Bar0, .leaseMirror, 0x300000, 32, 256, 0x10000000000, 1, 0⟩,
   ⟨.CORE_LEASE_STATUS, .pf1Bar0, .leaseMirror, 0x300008, 32, 256, 0x10000000000, 1, 0⟩,
   ⟨.CORE_TICK_OVERRUN, .pf1Bar0, .leaseMirror, 0x300010, 32, 256, 0x10000000000, 1, 0⟩,
   ⟨.CORE_RADIO_SPILL, .pf1Bar0, .leaseMirror, 0x300018, 32, 256, 0x10000000000, 1, 0⟩,
   ⟨.JSP_RING_STATE, .pf1Bar0, .mirror, 0x310000, 256, 32, 8, 8, 0⟩,
   ⟨.JSP_ENGINE, .pf1Bar0, .mirror, 0x310040, 256, 32, 8, 3, 0⟩,
   ⟨.JSP_CNT, .pf1Bar0, .mirror, 0x310060, 256, 32, 0x10000000000, 1, 0⟩,
   ⟨.FIFO_CFG, .pf1Bar0, .mirror, 0x320000, 512, 32, 32, 16, 0⟩,
   ⟨.FIFO_STATUS, .pf1Bar0, .mirror, 0x320008, 512, 32, 32, 16, 0⟩,
   ⟨.FIFO_CMD, .pf1Bar0, .writable, 0x320010, 512, 32, 32, 16, 0⟩,
   ⟨.HLTH_EVENT, .pf1Bar0, .mirror, 0x340008, 0x10000000000, 1, 0x10000000000, 1, 0⟩,
   ⟨.HLTH_UNIT, .pf1Bar0, .mirror, 0x341000, 0x10000000000, 1, 8, 1024, 0⟩,
   ⟨.CLINK_PORT_STATUS, .pf1Bar0, .mirror, 0x350000, 0x1000, 2, 0x10000000000, 1, 0⟩]

/-- PF1 BAR0 (R457); instance 256 of a PORTAL register is the radio portal (R99), part 2. -/
def pf1Places2 : List Place :=
  [⟨.CLINK_TWIN_STATUS, .pf1Bar0, .mirror, 0x350100, 0x1000, 2, 0x10000000000, 1, 0⟩,
   ⟨.FH_SHAPER, .pf1Bar0, .writable, 0x400000, 0x10000000000, 1, 8, 1248, 0⟩]

/-- PF1 BAR0 (R457); instance 256 of a PORTAL register is the radio portal (R99). -/
def pf1Places : List Place := pf1Places1 ++ pf1Places2

/-- Every place of a register. -/
def places : List Place := fixedPlaces ++ windowPlaces ++ portalPlaces ++ pf1Places

/-- Where offset `off` falls in a place: the instance and the byte within the register. -/
def Place.find (q : Place) (sp : Space) (off : Nat) : Option (Nat × Nat) :=
  let o := off - q.base
  let w := o / q.winStride
  let j := o % q.winStride / q.stride
  let b := o % q.winStride % q.stride
  if q.space = sp ∧ q.base ≤ off ∧ w < q.wins ∧ j < q.per ∧ b < q.reg.width / 8 then
    some (q.first + w * q.per + j, b)
  else none

/-- The register that an offset of a space names, with its place, instance and byte (R455). -/
def findReg (sp : Space) (off : Nat) : Option (Place × Nat × Nat) :=
  places.findSome? fun q => (q.find sp off).map fun (i, b) => (q, i, b)

end Sys2Proof.Machine
end

