-- ==== Sys2Proof/Machine/State.lean ====
section
/-!
DEFINITION. The machine's state: the register file, the memories and every piece of state that the
manual gives the block beside its registers, with the queue of waiting commands; the reasons for which
a step can stop; and the state right after reset.
-/
namespace Sys2Proof.Machine

/-- Device time and the time clock (R330, R333, R334, R337, R343, R387). -/
structure TimeBlk where
  sec : Nat
  ns : Nat
  /-- Fraction of a nanosecond, 32 bits. -/
  frac : Nat
  /-- The health clock: time-clock cycles from device reset. -/
  clk : Nat
  /-- The time-clock PLL has locked and device time has started (R36). -/
  running : Bool
  /-- A value of TIME_INCREMENT that takes effect at the next cycle (R334). -/
  pendIncr : Option Nat
  /-- The tick number of the last boundary delivered (R337). -/
  lastTick : Option Nat
  /-- Seconds of a pending TIME_NOW snapshot, per requester (R333). -/
  nowSnap : SMap (Option Nat)
  /-- Seconds of a pending TIME_PPS_IN snapshot, per requester (R333). -/
  ppsSnap : SMap (Option Nat)
  /-- The PPS_OUT pin, and the total nanoseconds at which it falls (R343). -/
  ppsOut : Bool
  ppsFall : Nat
  /-- A second began in this cycle by itself, not by an adjustment past it (R343). -/
  second : Bool
  /-- The cycle of an adjustment that passed tick boundaries, delivered as one in a later cycle (R338). -/
  skip : Option Nat
deriving DecidableEq, Repr

/-- A half of a 64-bit register kept for a requester (R9): latched by a low-half read, or held by a
low-half write. -/
structure HalfWord where
  req : Nat
  bar : Bar
  offset : Nat
  value : Nat
deriving DecidableEq, Repr

/-- A request of the FN2 to the host (R347, R98, R430). -/
inductive HostReq where
  /-- A write of bytes with or without a PASID, perhaps with the poisoned indication. -/
  | write (pasid : Option Nat) (addr : Nat) (data : Bytes) (poison : Bool)
  /-- An MSI-X message of function fn. -/
  | msix (fn : Nat) (vector : Nat)
deriving DecidableEq, Repr

/-- A request held at its source (R368, R426, R428, R349): the requester (slice, 256 the radio function,
257 PF0 itself), the request, and the health-clock cycle at which it was made. -/
structure HeldReq where
  who : Nat
  req : HostReq
  since : Nat
  /-- The core, slot and sequence of the command that made it, flagged when it ends as a host error (R368). -/
  flag : Option (Nat × Nat × Nat)
  /-- A HOST_WRITE, which waits for every earlier host write of its context (R86). -/
  after : Bool
  /-- The slice whose SAVE or log command made it (R359, R362). -/
  job : Option Nat
deriving DecidableEq, Repr

/-- The attributes of a write that leaves for the host: the function whose requester ID it carries, its PASID with the
Execute Requested and Privileged Mode bits (R347), whether its address is translated (R349), and the selective IDE
stream on which it travels with the T bit set (R366). -/
structure ReqAttr where
  fn : Nat
  pasid : Option Nat
  execute : Bool
  privileged : Bool
  translated : Bool
  stream : Option Nat
deriving DecidableEq, Repr

/-- What left the package for the host, oldest first: the model's own record. -/
inductive Sent where
  | write (attr : ReqAttr) (addr : Nat) (data : Bytes) (poison : Bool)
  | msix (fn : Nat) (vector : Nat) (addr : Nat) (data : Nat)
deriving DecidableEq, Repr

/-- One MSI-X table entry (R430); vector control and pending bit as PCI Express defines them. -/
structure MsixEntry where
  addr : Nat
  data : Nat
  masked : Bool
  pending : Bool
deriving DecidableEq, Repr

/-- One PCI Express function (R368, R426). -/
structure Func where
  busMaster : Bool
  d3 : Bool
  /-- The correctable and uncorrectable error status of its AER registers (R427). -/
  aerCor : Nat
  aerUnc : Nat
deriving DecidableEq, Repr

/-- The host side. -/
structure HostBlk where
  /-- Host memory, by PASID and address (`hostKey` in Machine/Ops.lean). -/
  mem : SMap Byte
  /-- Bytes written with the poisoned indication. -/
  poison : SMap Bool
  /-- Ranges that answer reads with an error: first key and length (R427). -/
  fail : List (Nat × Nat)
  sent : List Sent
  held : List HeldReq
  pf0 : Func
  pf1 : Func
  /-- A PF1 function-level reset whose cells stop at the next tick boundary (R274). -/
  flr1 : Bool
  msix : SMap MsixEntry
  /-- The exponent of the size of BAR4 (R32, R429). -/
  bar4Log2 : Nat
  /-- Halves kept for 32-bit accesses (R9). -/
  latched : List HalfWord
  lowHeld : List HalfWord
  linkUp : Bool
deriving DecidableEq, Repr

/-- A command-list descriptor (R90). -/
structure Desc where
  kind : Nat
  flags : Nat
  target : Nat
  count : Nat
  listAddr : Nat
  doneAddr : Nat
  tag : Nat
  doneSync : Nat
  doneValue : Nat
  bufCount : Nat
  bufTable : Nat
  rest : Nat
deriving DecidableEq, Repr

/-- A list of a context: accepted, perhaps not fully fetched (R76, R93). -/
structure CList where
  no : Nat
  desc : Desc
  /-- The slice, or 256, whose portal it came through. -/
  portal : Nat
  fetched : Nat
  /-- Commands completed, or skipped at fetch. -/
  done : Nat
  /-- Code of the first command that completed with an error (R93). -/
  status : Nat
  flagged : Nat
  bufBase : Nat
  bufCount : Nat
  /-- The step number, for a member list that Lamplighter submitted (R219). -/
  step : Option Nat
  /-- The cycle since which its next fetch is held at its source (R368). -/
  hostSince : Option Nat
deriving DecidableEq, Repr

/-- How far a queued command has come. -/
inductive Phase where
  /-- In its queue, not started. -/
  | queued
  /-- Started; its engine work has not ended. -/
  | started
  /-- Its engine work has ended. -/
  | worked
deriving DecidableEq, Repr

/-- A digest that a command has computed (R378): CRC-64, bytes covered, and whether poison was read. -/
structure DigestRec where
  crc : Nat
  bytes : Nat
  poison : Bool
deriving DecidableEq, Repr

/-- A decoded buffer entry (R151). -/
structure Buf where
  index : Nat
  host : Bool
  rd : Bool
  wr : Bool
  base : Nat
  length : Nat
deriving DecidableEq, Repr

/-- A decoded tensor entry (R153). -/
structure Tensor where
  index : Nat
  fmt : Nat
  ndim : Nat
  buf : Buf
  offset : Nat
  extent : List Nat
  stride : List Int
deriving DecidableEq, Repr

/-- The table entries that a command has read at its decode, which later changes of the table do not affect
(R150): buffer entries and tensor entries. -/
structure Plan where
  bufs : List Buf
  tensors : List Tensor
deriving DecidableEq, Repr

/-- An add of a scatter-add to a line of the package (R172, R173): destination line, ordinal and number of contributors
(0 and 1 of an add that no ordinal orders), element format, the elements as (byte offset in the line, value), poison,
the owner of the command, and the command; its slot is 7 once its context has ended.  `stamp` is the place of its
transaction in the order of issue of its core's Opal (R28). -/
structure OrdAdd where
  line : Nat
  ordinal : Nat
  contribs : Nat
  fmt : Nat
  elems : List (Nat × Nat)
  poison : Bool
  owner : Nat
  core : Nat
  slot : Nat
  seq : Nat
  stamp : Nat
deriving DecidableEq, Repr

/-- What a write transaction brings to one line (R161): the line under the keys of Machine/Opal.lean, an add that it
makes there (R172), and each of its bytes as (key, value), 256 added for poison. -/
structure LineOut where
  line : Nat
  bytes : List (Nat × Nat)
  add : Option OrdAdd
deriving DecidableEq, Repr

/-- A write transaction in flight of a context that has ended (R101): its slot and command, its owner, its place in the
order of issue (R28), and its lines. -/
structure Flight where
  slot : Nat
  seq : Nat
  owner : Nat
  stamp : Nat
  lines : List LineOut
deriving DecidableEq, Repr

/-- A command in a queue of a context (R76 to R84). -/
structure QCmd where
  /-- Fetch order in the context. -/
  seq : Nat
  /-- The 256 bits of the command (R78). -/
  raw : BitVec 256
  /-- Its list and its index in the list. -/
  list : Nat
  index : Nat
  phase : Phase
  /-- The health-clock cycle at which it reached the head of its queue (R84). -/
  since : Option Nat
  /-- The header wait is satisfied. -/
  waitOk : Bool
  /-- Conditions of WAIT entries 0 and 1 that have latched (R86). -/
  latch0 : Bool
  latch1 : Bool
  /-- Held at the head of its queue by a granule claim (R194). -/
  claim : Bool
  /-- The granules that the claim needs: of the core's scratchpad, and cluster * 128 + granule. -/
  needs : List Nat
  needsClm : List Nat
  err : Nat
  detail : Nat
  /-- It completes without signalling (R49, R84). -/
  noSignal : Bool
  /-- One transaction in flight at a time (R174, R175). -/
  serial : Bool
  /-- Transactions to issue and in flight (R161). -/
  toIssue : Nat
  inFlight : Nat
  /-- Those of its read transactions that have not ended, and what its write transactions bring, in the order of
  issue. -/
  readsLeft : Nat
  todo : List (List LineOut)
  /-- The places, in the order of issue of its core's Opal, of its write transactions in flight (R28). -/
  stamps : List Nat
  /-- The entries read at decode, once it has been decoded (R121, R150, R162). -/
  plan : Option Plan
  /-- A failure, code and detail, that takes effect once the commands before it have completed (R162) or its own
  transactions have ended (R169). -/
  fault : Option (Nat × Nat)
  digests : List DigestRec
  /-- Bytes read and written by a started Opal command, for R162. -/
  reads : List (Nat × Nat)
  writes : List (Nat × Nat)
  /-- The cycle since which its host reads are held at their source (R368), and the pages for whose
  translation they wait (R349). -/
  hostSince : Option Nat
  pages : List Nat
deriving DecidableEq, Repr

/-- The states of an accumulator bank half (R118). -/
inductive BankState where
  | free | loading | loaded | accum | draining | pending
deriving DecidableEq, Repr

/-- One accumulator bank in one half of the array (R104, R118, R130). -/
structure BankHalf where
  state : BankState
  poison : Bool
  /-- The kind of the values: true for integers. -/
  isInt : Bool
  /-- The context slot that owns the half, 7 when none (R124). -/
  slot : Nat
  /-- 64 rows of 32 columns under key row * 32 + column: 32-bit patterns. -/
  acc : SMap Nat
deriving DecidableEq, Repr

/-- A GMM whose wavefronts are in the array (R115 to R121): its context slot and sequence, bank, half
code of R109, the drain payload it captured with the base of its output buffer (R111, R150), and whether it
completes flagged ERR_POISON (R128, R130).  The slot is 7 once its context has been torn down (R126); `from'` stays the
slot that issued it.  `adds` is zero = 0: it adds to what the bank held. -/
structure InArray where
  slot : Nat
  from' : Nat
  seq : Nat
  bank : Nat
  half : Nat
  drain : Option Nat
  base : Nat
  adds : Bool
  poison : Bool
deriving DecidableEq, Repr

/-- A drain or preload at the drain port (R120), in the order requested; `payload` is that of R111 or
R112, `base` the base of a drain's output buffer.  The slot is 7 once its context has been torn down (R126); `from'`
stays the slot that asked. -/
structure PortReq where
  slot : Nat
  from' : Nat
  seq : Nat
  bank : Nat
  half : Nat
  preload : Bool
  payload : Nat
  base : Nat
  started : Bool
deriving DecidableEq, Repr

/-- An active loop of a Beryl program (R253): its counter, whether it rotates, its stages, its count, the
first bundle of its body, the bundles of the body, and the iteration in progress, from 0. -/
structure BerylLoop where
  lc : Nat
  rot : Bool
  sc : Nat
  count : Nat
  first : Nat
  body : Nat
  iter : Nat
deriving DecidableEq, Repr

/-- A scratchpad window (R244, R256): base and length of its buffer, with its access bits. -/
structure BerylWin where
  /-- The buffer's index in the table of the BRUN that bound it (R102). -/
  index : Nat
  base : Nat
  length : Nat
  rd : Bool
  wr : Bool
deriving DecidableEq, Repr

/-- A Beryl register bank (R238, R239): its registers under the keys of Machine/Beryl.lean, its active
loops, innermost first, its windows, whether a program runs in it and for which command, its poison flag, and
the events of R250 and R251 in the present command. -/
structure BerylBank where
  regs : SMap Nat
  loops : List BerylLoop
  windows : List (Option BerylWin)
  running : Bool
  seq : Nat
  poison : Bool
  seen : Nat
  /-- The digest of the scratchpad stores of the program so far (R378): its CRC-64, the bytes covered, and whether one
  of them was poisoned. -/
  crc : Nat
  stored : Nat
  tainted : Bool
deriving DecidableEq, Repr

/-- A context in a slot (R74). -/
structure Ctx where
  /-- Slice, or 256 for the radio function. -/
  owner : Nat
  queue : List QCmd
  lists : List CList
  nextSeq : Nat
  nextList : Nat
  bufBase : Nat
  bufCount : Nat
  /-- Garnet half-array mode (R113) and drain slots (R111), 128 bits each. -/
  halfMode : Bool
  drainSlots : SMap Nat
  /-- The tick until whose end a tick_align hold lasts (R87). -/
  tickHold : Option Nat
  evicted : Bool
  /-- The health-clock cycle at which it was evicted (R233). -/
  evictedAt : Nat
  /-- The saved granule map of an evicted context (R203). -/
  savedGranules : Nat
  /-- What the bytes of its save area stand for while another context holds the core: the accumulators of the Garnet
  banks, key bank * 2 + half (R125), and Beryl bank 1 (R261), none when nothing of it has been saved. -/
  savedBanks : SMap BankHalf
  savedBeryl : Option BerylBank
  /-- The bytes of its record as it was evicted (R202). -/
  record : Bytes
  /-- The health-clock cycle at which its idle spell began (R234, R484). -/
  idleSince : Option Nat
  /-- The health-clock cycle at which R233 last had it restored. -/
  restoredAt : Option Nat
  /-- The turn at which it last had the core, counted by switches: of two contexts the one with the higher turn ran
  later (R233). -/
  lastRan : Nat
  /-- Device time in total nanoseconds at its creation (R41). -/
  created : Nat
  /-- Frozen with its slice (R361). -/
  frozen : Bool
  /-- Records written to its digest log (R379). -/
  digestPos : Nat
deriving DecidableEq, Repr, Inhabited

/-- A descriptor held for want of a rental slot (R75), with its portal. -/
structure HeldDesc where
  portal : Nat
  desc : Desc
  step : Option Nat
deriving DecidableEq, Repr

/-- An operation on its way to a synchronisation object (R14, R83). -/
structure Signal where
  obj : Nat
  set : Bool
  value : Nat
  /-- The queue it comes from, for the order of R103. -/
  src : Nat
  /-- The slice, or 256, on whose behalf it travels. -/
  owner : Nat
deriving DecidableEq, Repr

/-- A memory request held at its source: its logical core has been retired hard and the next boundary has not come
(R22), or the row of its line is being copied to a spare (R189). -/
inductive MemReq where
  | read (addr : Nat) (found : LineCheck)
  | write (addr : Nat) (data : Bytes) (poison : Bool) (found : LineCheck)
  /-- A request to a scratchpad granule by the context in a slot of another physical core (R195). -/
  | remote (p slot addr : Nat)
  /-- An access of the manager through the vault aperture (R32), or of a Lantern (R275), a write where it has a value.
  -/
  | aperture (addr size : Nat) (value : Option Nat)
  | lantern (addr size : Nat) (value : Option Nat)
deriving DecidableEq, Repr

/-- An eviction or a restore in progress on a core (R203, R204). -/
structure EvictOp where
  slot : Nat
  restore : Bool
deriving DecidableEq, Repr

/-- A copy of a vault row or bank to a spare (R188): bank number (pseudo-channel * 16 + bank), and the
row. -/
structure SpareCopy where
  bank : Nat
  row : Nat
deriving DecidableEq, Repr

/-- The sparing state of a vault (R181, R188 to R190), by bank number pseudo-channel * 16 + bank. -/
structure VaultSpares where
  /-- Spare rows of each bank in use. -/
  rowsUsed : SMap Nat
  /-- Rows redirected, under bank * 4608 + row. -/
  redirected : SMap Bool
  /-- The line of a row in which a correctable error occurred, as line + 1 (R188). -/
  corrLine : SMap Nat
  /-- The bank that took the spare bank of each pseudo-channel, as bank + 1. -/
  spareBank : SMap Nat
  /-- Copies under way or waiting for their turn, oldest first. -/
  rowCopies : List SpareCopy
  bankCopies : List SpareCopy
deriving DecidableEq, Repr

/-- A line that its home serves in ordinal order (R173): the ordinal whose turn it is, the adds that wait,
and the cycle of its last progress; after its wait limit has passed, the adds that have still to come. -/
structure OrdLine where
  line : Nat
  turn : Nat
  waiting : List OrdAdd
  since : Nat
  late : Option Nat
deriving DecidableEq, Repr

/-- The Beryl of a core. -/
structure BerylCore where
  bank0 : BerylBank
  bank1 : BerylBank
  /-- X, Y and I memories, under memory * 2^20 + byte, and the poison bits of their lines. -/
  mem : SMap Byte
  tags : SMap Bool
  /-- Valid bits of the rental blocks (R237): X from bit 0, Y from bit 32, I from bit 64. -/
  valid : Nat
deriving DecidableEq, Repr

/-- A physical core (R12, R13). -/
structure Core where
  ctx : SMap (Option Ctx)
  /-- Descriptors held for want of a rental slot (R75), in acceptance order. -/
  held : List HeldDesc
  /-- Memory requests held, in arrival order (R22, R189). -/
  memHeld : List MemReq
  /-- Engines that have yielded in the present lease, one bit per engine code (R46). -/
  yielded : Nat
  /-- The tick number of the last radio window begun (R339). -/
  lastWindow : Option Nat
  /-- The window of the present tick is open (R40, R44). -/
  windowOpen : Bool
  /-- A rental Garnet instruction issued after the yield request of the present lease (R46). -/
  lateIssue : Bool
  /-- The rental context to which the core goes once the one that it leaves has ended its GMMs and drains
  (R125, R351, R352). -/
  nextSlot : Option Nat
  /-- A write to limit_cycles that waits for the boundary (R47). -/
  pendLimit : Option Nat
  /-- Accumulator halves under bank * 2 + half (west 0, east 1). -/
  banks : SMap BankHalf
  array : List InArray
  port : List PortReq
  /-- Write transactions that Opal has issued (R28), and those in flight whose context has ended (R101). -/
  opalSeq : Nat
  loose : List Flight
  beryl : BerylCore
  /-- Granules being zeroed, one bit each (R196). -/
  zeroing : Nat
  evict : Option EvictOp
  /-- The evicted context for which R233 has evicted another. -/
  evictFor : Option Nat
  spares : VaultSpares
  /-- The spells of R233 and of R234 (a descriptor held): the cycle each began, and whether Lamplighter
  has acted on it (R484). -/
  blockedSpell : Option (Nat × Bool)
  heldSpell : Option (Nat × Bool)
deriving DecidableEq, Repr

/-- The slice side of chapter 15 and of the portal (R97). -/
structure SliceRec where
  /-- Health-clock cycle at which the credit-mirror window closes (R97). -/
  mirrorAt : Option Nat
  /-- Message 2 waits for the mirror write that shows the rise (R97). -/
  rise : Bool
  /-- The slice command in progress (R356): below 16 the result with which it will end, 16 a FREEZE, 17 a
  RESET, 18 a RESTORE whose reads are held at their source since a health-clock cycle (R368), 19 a SAVE whose image has
  left. -/
  command : Option Nat
  since : Option Nat
  /-- Dirty-page filter, oldest page first, and entries not yet written (R359). -/
  filter : List Nat
  logPending : List Nat
  /-- Pages translated, translations awaited, and page requests outstanding (R349). -/
  atc : List Nat
  atsWait : List Nat
  pri : List Nat
  /-- Requests fenced (R357, R358). -/
  fenced : Bool
  /-- Pages still to be zeroed, as core * 576 + page (R481), the manager's deferred write to the page
  being zeroed, and whether the owner is released (R200) or kept (R357). -/
  zeroPages : List Nat
  deferred : Option Nat
  release : Bool
  /-- The IDE stream bound (R366). -/
  stream : Option Nat
deriving DecidableEq, Repr

/-- The cut (R56 to R73). -/
structure CutBlk where
  /-- Entries of the active cut, under type * 2^24 + key, as the bits of the entry (R60). -/
  active : SMap (Option Nat)
  /-- The image in the internal buffer, and whether its fetch failed (R65, R66). -/
  image : Bytes
  fetchFailed : Bool
  /-- The fetch is held at its source since a health-clock cycle, PF0 being unable to issue requests (R368). -/
  waiting : Option Nat
  /-- The tick number at which the staged image applies, of which CUT_STAGED_TICK shows 48 bits (R66). -/
  applyAt : Nat
deriving DecidableEq, Repr

/-- A live entry of a sequence table (R210, R212); token words and node records as the manual lays
them out. -/
structure Seq where
  state : Nat
  keep : Bool
  inStep : Bool
  cancelPending : Bool
  outStall : Bool
  slice : Nat
  seqId : Nat
  n : Nat
  pending : Option Nat
  maxLen : Nat
  promptLeft : Nat
  tokAddr : Nat
  kvDir : Nat
  seed : Nat
  temperature : Nat
  topP : Nat
  topK : Nat
  draftMax : Nat
  stopCount : Nat
  stopIds : List Nat
  tree : List Nat
  lastStep : Nat
  commitMask : Nat
  commitBase : Nat
  emitted : Nat
  /-- Acceptance order of its SEQ_START or SEQ_EXTEND (R222). -/
  order : Nat
deriving DecidableEq, Repr

/-- An entry of a step in flight: table index, kind (1 prefill, 2 decode), first row, row count. -/
structure StepEntry where
  index : Nat
  kind : Nat
  firstRow : Nat
  rows : Nat
deriving DecidableEq, Repr

/-- A step or fixed batch in flight (R219, R232). -/
structure StepRun where
  number : Nat
  entries : List StepEntry
  /-- Records of the output ring reserved for its output (R222, R229). -/
  reserved : Nat
  /-- Member cores whose lists have not completed, and the statuses of those that have, by core. -/
  waiting : List Nat
  status : List (Nat × Nat)
  fixed : Bool
  /-- done_id, done_en, done_value of R231. -/
  doneId : Nat
  doneEn : Bool
  doneValue : Nat
  stepBuf : Nat
  rowsMax : Nat
  draftCap : Nat
  vocab : Nat
deriving DecidableEq, Repr

/-- An ACK record not yet written (R229): op, status, sequence identifier. -/
structure Ack where
  op : Nat
  status : Nat
  seqId : Nat
deriving DecidableEq, Repr

/-- A TOKENS or END record that waits for room in the output ring (R228, R229): its 64 bytes with the phase
bit 0, and the table key that is FREE once it is written (R212). -/
structure OutRec where
  bytes : Bytes
  frees : Option Nat
deriving DecidableEq, Repr

/-- What Lamplighter holds for a slice. -/
structure LampSlice where
  step : Option StepRun
  nextStep : Nat
  nextOrder : Nat
  /-- Queued fixed batches: done_id, done_en, done_value (R231). -/
  batches : List (Nat × Bool × Nat)
  acks : List Ack
  /-- Records that wait for room, oldest first. -/
  out : List OutRec
  /-- Records written since the last message 3, and the cycle of the first (R230). -/
  unsignalled : Nat
  firstAt : Option Nat
  stalled : Bool
deriving DecidableEq, Repr

/-- The pins and straps of chapter 21 (R464, R465). -/
structure Pins where
  perst : Bool
  pwrbrk : Bool
  therm : Bool
  thermtrip : Bool
  auxOn : Bool
  sbMode : Bool
  sbAddr : Nat
  trefSel : Bool
deriving DecidableEq, Repr


/-- A Jasper job that has started (R299): its ring and sequence number, its 64 bytes, the code blocks done,
their output bits and CRC outcomes, and whether poison was read (R303). -/
structure JspRun where
  ring : Nat
  index : Nat
  job : Bytes
  blk : Nat
  bits : List Bool
  pass : List Bool
  poison : Bool
  /-- Blocks of an encode job whose output is poisoned. -/
  bad : List Nat
deriving DecidableEq, Repr

/-- The Jasper side of a cluster: the job running in each physical engine, parked jobs, and jobs complete
beyond cons as (ring, sequence number) (R299, R301). -/
structure JasperRec where
  running : SMap (Option JspRun)
  parked : List JspRun
  complete : List (Nat × Nat)
deriving DecidableEq, Repr

/-- A cell command that waits for its frame (R271): 1 START, 2 STOP, 3 RECONFIG; the instant in total
nanoseconds; the copy of the configuration. -/
structure CellCmd where
  op : Nat
  at' : Nat
  config : Bytes
deriving DecidableEq, Repr

/-- A cell command whose configuration fetch the radio function holds (R428), with the cycle since when. -/
structure CellFetch where
  op : Nat
  next : Bool
  frame : Nat
  since : Nat
deriving DecidableEq, Repr

/-- What the radio pipeline of a cell is given (R264): a configuration in force, the slot and the plan read for it
(no bytes for a late plan), a transport block to send, an uplink packet with the logical core that takes it and the
counted slot that it names. -/
inductive RadioIn where
  | config (b : Bytes)
  | plan (slot : Nat) (b : Bytes)
  | block (slot index : Nat) (b : Bytes)
  | packet (core : Option Nat) (slot : Nat) (b : Bytes)
deriving DecidableEq, Repr

/-- An uplink entry of a plan whose result is not yet written (R276, R277): its slot, counted from frame 0, its
place in the plan, and its 64 bytes. -/
structure UplinkWork where
  slot : Nat
  index : Nat
  entry : Bytes
deriving DecidableEq, Repr

/-- What the pipeline holds for a cell (R264, R271, R276, R284, R285, R287): its configuration, the command whose
fetch is held, the waiting command, the next detection identifier, the last slot whose plan was read with that plan,
and the soft-buffer areas of its jobs; what the pipeline was given since the start, oldest first, the downlink packets
that it has made and the entries, by slot and place, whose coding and precoding has run; the uplink entries without a
result; the PRACH occasions reported, by slot and occasion; the noise of the occasion of each detection, as numerator
and denominator, under its identifier; and the noise periods ended. -/
structure CellRec where
  config : Bytes
  fetch : Option CellFetch
  waiting : Option CellCmd
  nextId : Nat
  lastPlan : Option Nat
  plan : Option Bytes
  harq : List Nat
  inputs : List RadioIn
  made : Nat
  coded : List (Nat × Nat)
  work : List UplinkWork
  heard : List (Nat × Nat)
  noises : SMap (Nat × Nat)
  periods : Option Nat
deriving DecidableEq, Repr

/-- A core retirement whose spare is not yet installed (R391, R392), by physical numbers. -/
structure CoreMove where
  old : Nat
  spare : Option Nat
  hard : Bool
  copied : Bool
deriving DecidableEq, Repr

/-- The health controller (R388 to R401). -/
structure HealthBlk where
  /-- Soft retirements as (group, health-clock cycle), oldest first. -/
  soft : List (Nat × Nat)
  /-- The health-clock cycle of each unit's last full Vigil pass. -/
  lastPass : SMap Nat
  /-- Units whose last full pass was completed after they left service (R72). -/
  passedOut : SMap Bool
  /-- Units that left the last poll unanswered. -/
  missed : List Nat
  moves : List CoreMove
  /-- Retired Jasper engines, Lanterns and SerDes, and retired spares of every kind, with the spare promised to each,
  which is installed at the next boundary. -/
  installs : List (Nat × Option Nat)
  /-- Vaults whose copy goes on after the installation: the retired core, and the logical core (R391). -/
  copying : List (Nat × Nat)
  /-- Clusters whose Lantern had run 1 when it was retired (R393). -/
  ranBefore : List Nat
  /-- Units whose full pass runs ahead of the rotation (R397). -/
  ahead : List Nat
  /-- The unit at which Vigil's rotation stands (R396), and the first failed test of each unit's pass under way
  (R398). -/
  rotation : Nat
  failing : SMap (Option VigilRun)
deriving DecidableEq, Repr

/-- A word of a stream FIFO (R312, R316): its 32 bytes, the end mark of its packet and the poison tag. -/
structure FifoWord where
  data : Bytes
  last : Bool
  poison : Bool
deriving DecidableEq, Repr

/-- A stream FIFO: its words, oldest first, whether a packet is current (R317), and the read buffer of the
Lantern (R318). -/
structure FifoRec where
  words : List FifoWord
  current : Bool
  buffer : Option FifoWord
deriving DecidableEq, Repr

/-- A frame in a leaf queue (R320): its bytes with the FCS not counted, the launch time of C and U frames,
the total nanoseconds at which it was queued, and for a frame of the host ring the position of its first slot
and whether a timestamp was requested (R327). -/
structure FhFrame where
  bytes : Bytes
  launch : Option Nat
  queued : Nat
  ring : Option (Nat × Bool)
deriving DecidableEq, Repr

/-- A gate list of an interface (R324): start in total nanoseconds, cycle, entries as (interval, gates). -/
structure GateList where
  enable : Bool
  start : Nat
  cycle : Nat
  entries : List (Nat × Nat)
deriving DecidableEq, Repr

/-- What the transmitter of an interface sends (R321): the service and the instant in picoseconds at which it
ends. -/
structure TxBusy where
  service : Nat
  until' : Nat
deriving DecidableEq, Repr

/-- An interface: its operating and pending gate lists, what it sends, 1 more than the subscriber node whose turn it
is under deficit round robin in the C and in the U service, and the transmit ring: the position read up to, and frames
read but not passed, as (position, slots, sent) (R327). -/
structure IfRec where
  oper : Option GateList
  pend : Option GateList
  tx : Option TxBusy
  turnC : Nat
  turnU : Nat
  read : Nat
  posted : List (Nat × Nat × Bool)
deriving DecidableEq, Repr

/-- The fronthaul (R305 to R329). -/
structure FronthaulBlk where
  fifos : SMap FifoRec
  /-- Leaf queues by the numbers of R326. -/
  queues : SMap (List FhFrame)
  /-- Deficit counters of the subscriber queues (R320). -/
  deficit : SMap Nat
  ifs : SMap IfRec
  /-- Next SEQ_ID sent, and last received plus 1, per interface * 65536 + eAxC (R319). -/
  seqTx : SMap Nat
  seqRx : SMap Nat
  /-- Writes to shapers that wait for the refill (R323), nodes that hold half a byte beside their tokens, and
  the microsecond of the last refill. -/
  shaper : SMap (Option Nat)
  half : SMap Bool
  refilled : Nat
  /-- Histogram bins under queue * 32 + bin, delay bins from 16 (R326), and the last sample, in 10 µs. -/
  bins : SMap Nat
  sampled : Nat
  /-- The SerDes, 0 to 5, that drives each ball lane, under lane, as number + 1 where it is not the default
  (R306). -/
  lanes : SMap Nat
  /-- Frames sent: interface, bytes and total nanoseconds of the first bit (the model's own record). -/
  sent : List (Nat × Bytes × Nat)
deriving DecidableEq, Repr

/-- A transfer sent and not yet ended: its record index, its record, whether it read poison, and the outcome and code
that it ends with once those before it have ended (R406, R407, R412). -/
structure Flying where
  index : Nat
  bytes : Bytes
  poison : Bool
  ended : Option (Nat × Nat)
deriving DecidableEq, Repr

/-- A transfer queue of a Citia Link port (R409): the producer value seen, the next record, and transfers under way. -/
structure XqRec where
  seen : Nat
  next : Nat
  flying : List Flying
deriving DecidableEq, Repr

/-- The twin pair (R414 to R419). -/
structure TwinBlk where
  /-- Consecutive ticks with a heartbeat, and whether one arrived in the present tick. -/
  consec : Nat
  beat : Bool
  last : Option Heartbeat
  /-- The mirror of the twin: its cut image, its cell configurations and the ticks of its stops + 1. -/
  image : Bytes
  configs : SMap Bytes
  stops : SMap Nat
  /-- Items sent and not yet acknowledged. -/
  unacked : Nat
  /-- Cells marked taken. -/
  taken : List Nat
  /-- Cells of a handover, each with the instant of its frame, and whether the twin has accepted it. -/
  moving : List (Nat × Nat × Bool)
deriving DecidableEq, Repr

/-- A group BARRIER that waits (R421, R424): context slot and sequence, object, target, and the total
nanoseconds at which its add was sent. -/
structure GroupWait where
  core : Nat
  slot : Nat
  seq : Nat
  n : Nat
  target : Nat
  sentAt : Nat
deriving DecidableEq, Repr

/-- A release that has arrived and waits for its start instant (R421). -/
structure GroupRelease where
  n : Nat
  value : Nat
  start : Nat
deriving DecidableEq, Repr

/-- What left a Citia Link port, oldest first: the model's own record (R404). -/
inductive ClinkSent where
  | heartbeat (c : Nat) (beat : Heartbeat)
  | hello (c member : Nat)
  | time (c dest : Nat)
  | barrierAdd (n target : Nat)
  | release (member n value : Nat) (broken : Bool) (start : Nat)
  | refuse (member n : Nat)
  | transfer (c dest queue grant off : Nat) (data : Bytes) (poison : List Bool)
  | landed (c member grant outcome code : Nat)
  | mirror (item : MirrorItem)
  | mirrorAck (c : Nat)
  | handover (c cell frame : Nat)
  | handoverReply (c cell : Nat) (accepted : Bool)
deriving DecidableEq, Repr

/-- Citia Link (chapter 18). -/
structure ClinkBlk where
  /-- Transfer queues under port * 16 + queue. -/
  xq : SMap XqRec
  twin : TwinBlk
  /-- The tick of each member's last hello, + 1. -/
  hello : SMap Nat
  /-- Ports with a time exchange sent and not completed (R408). -/
  exchange : SMap Bool
  /-- Parts of transfers that wait for their memory (R22, R189), with their ports; the transfers of which a part has
  been refused (R413), under `landKey`. -/
  landHeld : List (Nat × Landing)
  refused : SMap Bool
  waits : List GroupWait
  releases : List GroupRelease
  /-- At the root: the total nanoseconds, + 1, at which each member's last add arrived (R424). -/
  lastAdd : SMap Nat
  /-- The SerDes, 0 to 8, that drives each ball lane, under port * 8 + lane, as number + 1 where it is not the
  default. -/
  lanes : SMap Nat
  sent : List ClinkSent
deriving DecidableEq, Repr

/-- Power and temperature (R473 to R479). -/
structure PowerBlk where
  /-- The limit in W, and the last samples, newest first, at most 10. -/
  limit : Nat
  samples : List Nat
  /-- Rental duty and clock multiplier of each compute die, as 16 less their value, under die * 2 + cause: cause
  0 is power, 1 temperature (R478). -/
  dutyOff : SMap Nat
  multOff : SMap Nat
  /-- The health-clock cycle since which stage 1 has held d at 4, and since which the conditions of recovery
  have held, + 1, under the same keys (`calm` of power under 0). -/
  held : SMap Nat
  calm : SMap Nat
  /-- A cause holds the die at stage 2 under the same keys; the die is in stage 3, under the die. -/
  stage2 : SMap Bool
  stage3 : SMap Bool
  /-- Temperature sensors that failed their Vigil test (R478), and dies held at stage 2 until device reset. -/
  excluded : List Nat
  stuck : SMap Bool
  /-- The thermal trip has stopped every clock (R479). -/
  tripped : Bool
  /-- The health-clock cycle at which PERST_N went low last. -/
  perstLow : Nat
  /-- Rails out of range (R470). -/
  down : List Rail
  /-- The set voltage of VDD_CORE0 and VDD_CORE1 in steps of 5 mV under the AVSBus rail address (R467), and the AVSBus
  writes made, as rail, voltage and the clock multiplier of the die at the write. -/
  volts : SMap Nat
  avs : List (Nat × Nat × Nat)
deriving DecidableEq, Repr

/-- An enrolment in progress (R449, R433): the record, since when its fetch is held (R368, R426), whether the fetch
failed, and whether fuse programming has begun. -/
structure EnrolOp where
  record : Bytes
  waiting : Option Nat
  failed : Bool
  begun : Bool
deriving DecidableEq, Repr

/-- Onyx (chapter 19). -/
structure BootBlk where
  /-- The bootstrap window (R437), and the bytes of it under verification. -/
  window : SMap Byte
  len : Nat
  /-- The health-clock cycle at which verification began. -/
  began : Nat
  /-- SHA-256 of the stages of types 1 to 5 of the running image, its fw_version, and the certificate chain. -/
  stages : List Bytes
  fwVersion : Nat
  cert : Bytes
  enrol : Option EnrolOp
  /-- Boundary-scan instructions that took effect since device reset (R454), and the one in the port. -/
  scanLoads : Nat
  scan : JtagInstr
  /-- Open SPDM sessions over DOE and over the sideband (R444). -/
  sessions : Nat
  sideSessions : Nat
  /-- IDE stream keys (R446). -/
  ideKeys : SMap (Option Nat)
  /-- The health-clock cycle at which a written DEV_RESET takes effect. -/
  resetAt : Option Nat
  /-- What Onyx or the sideband answered last (the model's own field). -/
  answer : Bytes
deriving DecidableEq, Repr

/-- The machine. -/
structure State where
  /-- Commands waiting, first in, first out (the model's own field). -/
  pending : List Instr
  /-- The register file: register number, then instance; an unlisted one holds its reset value. -/
  regs : SMap (SMap RegVal)
  time : TimeBlk
  host : HostBlk
  /-- On-package memory by device address (R29), and the poison tag of each 64-byte line. -/
  mem : SMap Byte
  poison : SMap Bool
  cores : SMap Core
  /-- Operations on their way to synchronisation objects, oldest first. -/
  signals : List Signal
  /-- Ordered adds on their way, refused, and the ordered-add tables (R173). -/
  adds : List OrdAdd
  refused : List OrdAdd
  ordered : List OrdLine
  cut : CutBlk
  slices : SMap SliceRec
  lamp : SMap LampSlice
  /-- The sequence tables, under die * 4096 + index. -/
  seqs : SMap (Option Seq)
  /-- Corrected errors counted against a unit's score in an hour of the health clock (R387): under the
  unit, hour * 32 + count. -/
  corrected : SMap Nat
  jasper : SMap JasperRec
  cells : SMap CellRec
  health : HealthBlk
  fh : FronthaulBlk
  clink : ClinkBlk
  power : PowerBlk
  boot : BootBlk
  pins : Pins
  /-- What the last read answered (the model's own field). -/
  lastRead : Nat
  /-- It carried the poisoned indication of PCI Express (the model's own field). -/
  lastPoison : Bool
  /-- Free values taken (the model's own field): the next is `Config.freeValue freeCtr`. -/
  freeCtr : Nat
deriving DecidableEq, Repr

/-- Why a step faults.  No rule of the manual stops the block, so the model has no fault. -/
inductive Fault where
deriving DecidableEq, Repr

/-- Why a step is refused. -/
inductive Refusal where
  /-- Raised by an arm of `exec` whose command has no meaning yet.  Safe: the machine stops. -/
  | notModelled (mnemonic : String)
deriving DecidableEq, Repr

/-- A free accumulator half. -/
def BankHalf.init : BankHalf := { state := .free, poison := false, isInt := false, slot := 7, acc := [] }

/-- A Beryl bank at reset (R239). -/
def BerylBank.init : BerylBank :=
  { regs := [], loops := [], windows := [], running := false, seq := 0, poison := false, seen := 0, crc := 0, stored := 0,
    tainted := false }

/-- A core at reset: every slot empty, every memory of its own zero. -/
def Core.init : Core :=
  { ctx := [], held := [], memHeld := [], yielded := 0, lastWindow := none, windowOpen := false, lateIssue := false,
    nextSlot := none, pendLimit := none, banks := [], array := [], port := [], opalSeq := 0, loose := [],
    beryl := { bank0 := BerylBank.init, bank1 := BerylBank.init, mem := [], tags := [], valid := 0 },
    zeroing := 0, evict := none, evictFor := none,
    spares := { rowsUsed := [], redirected := [], corrLine := [], spareBank := [], rowCopies := [],
                bankCopies := [] },
    blockedSpell := none, heldSpell := none }

/-- A slice's record at reset. -/
def SliceRec.init : SliceRec :=
  { mirrorAt := none, rise := false, command := none, since := none, filter := [], logPending := [],
    atc := [], atsWait := [], pri := [], fenced := false, zeroPages := [], deferred := none,
    release := false, stream := none }

/-- What Lamplighter holds for a slice at reset. -/
def LampSlice.init : LampSlice :=
  { step := none, nextStep := 0, nextOrder := 0, batches := [], acks := [], out := [], unsignalled := 0,
    firstAt := none, stalled := false }

/-- An MSI-X entry at reset: masked, as PCI Express defines it (PRESUMED, log entry 7). -/
def MsixEntry.init : MsixEntry := { addr := 0, data := 0, masked := true, pending := false }


/-- A cluster's Jasper side at reset. -/
def JasperRec.init : JasperRec := { running := [], parked := [], complete := [] }

/-- What the pipeline holds for a cell at reset. -/
def CellRec.init : CellRec :=
  { config := [], fetch := none, waiting := none, nextId := 0, lastPlan := none, plan := none, harq := [],
    inputs := [], made := 0, coded := [], work := [], heard := [], noises := [], periods := none }

/-- An empty stream FIFO. -/
def FifoRec.init : FifoRec := { words := [], current := false, buffer := none }

/-- An interface at reset. -/
def IfRec.init : IfRec := { oper := none, pend := none, tx := none, turnC := 0, turnU := 0, read := 0, posted := [] }

/-- A transfer queue at reset. -/
def XqRec.init : XqRec := { seen := 0, next := 0, flying := [] }

/-- The twin pair at reset. -/
def TwinBlk.init : TwinBlk :=
  { consec := 0, beat := false, last := none, image := [], configs := [], stops := [], unacked := 0,
    taken := [], moving := [] }

/-- The state right after reset (R432): every register at its reset value, memories zero, device time
0; PERST_N is low and VDD_AUX not yet on, and neither function may issue requests (log entry 5). -/
def State.reset : State :=
  { pending := [],
    regs := [],
    time := { sec := 0, ns := 0, frac := 0, clk := 0, running := false, pendIncr := none,
              lastTick := none, nowSnap := [], ppsSnap := [], ppsOut := false, ppsFall := 0, second := false, skip := none },
    host := { mem := [], poison := [], fail := [], sent := [], held := [],
              pf0 := { busMaster := false, d3 := false, aerCor := 0, aerUnc := 0 }
              pf1 := { busMaster := false, d3 := false, aerCor := 0, aerUnc := 0 }
              flr1 := false, msix := [], bar4Log2 := 30,
              latched := [], lowHeld := [], linkUp := false },
    mem := [], poison := [], cores := [], signals := [], adds := [], refused := [], ordered := [],
    cut := { active := [], image := [], fetchFailed := false, waiting := none, applyAt := 0 },
    slices := [], lamp := [], seqs := [],
    corrected := [], jasper := [], cells := [],
    health := { soft := [], lastPass := [], passedOut := [], missed := [], moves := [], installs := [],
                copying := [], ranBefore := [], ahead := [], rotation := 0, failing := [] },
    fh := { fifos := [], queues := [], deficit := [], ifs := [], seqTx := [], seqRx := [], shaper := [], half := [],
            refilled := 0, bins := [], sampled := 0, lanes := [], sent := [] },
    clink := { xq := [], twin := TwinBlk.init, hello := [], exchange := [], landHeld := [], refused := [],
               waits := [], releases := [], lastAdd := [], lanes := [], sent := [] },
    power := { limit := 1200, samples := [], dutyOff := [], multOff := [], held := [], calm := [],
               stage2 := [], stage3 := [], excluded := [], stuck := [], tripped := false, perstLow := 0,
               down := [], volts := [], avs := [] },
    boot := { window := [], len := 0, began := 0, stages := [], fwVersion := 0, cert := [], enrol := none,
              scanLoads := 0, scan := .bypass, sessions := 0, sideSessions := 0, ideKeys := [],
              resetAt := none, answer := [] },
    pins := { perst := false, pwrbrk := true, therm := true, thermtrip := true, auxOn := false,
              sbMode := false, sbAddr := 0, trefSel := false },
    lastRead := 0, lastPoison := false, freeCtr := 0 }

end Sys2Proof.Machine
end

