-- ==== Sys2Proof/Config.lean ====
section
/-!
DEFINITION. What an implementation fixes and what the manual leaves open.  Every constant here is
opaque: it has no body, so no proof can see a value of it (log entries 9 and 10).
-/
namespace Sys2Proof.Config

/-- The free values of the manual (aliasing writes, bytes of a drain cut short, invalid blocks of a save
area and others, log entry 9): the n-th that a run takes. -/
opaque freeValue : Nat → Nat

/-- Whether the copy of a vault (R391) has copied a line, asked at a moment of the free values: how far a copy has
come at an instant is not stated (log entry 171). -/
opaque lineCopied : Nat → Nat → Bool

/-- The conditions of the last test of a unit's full pass at start-up, where the command does not give the unit's run
(R398, log entry 174). -/
opaque startupRun : Nat → VigilRun

/-- next_free_s of HLTH_RATE where no passage of time brings in_window below retire_limit (a limit of 0). -/
opaque rateNever : BitVec 32

/-- SLH-DSA verification under FIPS 205 (R58, R436, R448): parameter set (0 for SHA2-128s, 1 for
SHA2-128f), public key, message, signature. -/
opaque slhVerify : Nat → Nat → Bytes → Bytes → Bool

/-- SLH-DSA signing with the device identity key (R443, R445). -/
opaque slhSign : Bytes → Bytes

/-- The digest that ONYX_ID_HASH holds, derived from the fused seed (R443). -/
opaque identityHash : Nat

/-- SHA-256 of the Aferi vendor public key, held in fuses (R434). -/
opaque vendorKeyHash : Nat

/-- The tables of the 3GPP documents of R292 that the manual does not copy: the parity bits of LDPC from base graph,
lifting size and the bits of a block; the coded bits of a polar job's block; the interleaver parameters of a turbo block
size; the register from which the CRC24C of a polar job starts. -/
opaque ldpcParity : Nat → Nat → List Bool → List Bool
opaque polarCode : Bytes → List Bool → List Bool
opaque qppParam : Nat → Nat × Nat
opaque polarCrcStart : Bytes → Nat

/-- The decoders' arithmetic (R297), which the radio reference model defines: the messages of an LDPC decoder from its
input, after one base-graph row, and the bits that they give; the surviving paths of the polar decoder, best metric
first; one full iteration of max-log-MAP from the block size, the input and the messages, and its bits; the
wrap-around Viterbi decoder. -/
opaque ldpcStart : Bytes → List Int
opaque ldpcRow : Nat → Nat → Nat → List Int → List Int
opaque ldpcBits : List Int → List Bool
opaque polarPaths : Bytes → Bytes → List (List Bool)
opaque turboIteration : Nat → Bytes → List Int → List Int
opaque turboBits : Nat → Bytes → List Int → List Bool
opaque wrapViterbi : Nat → Bytes → List Bool

/-- The bits and bytes of the last byte and the last line of a job's output beyond the output (R186, R297), of the job
and its result: 0 for the byte whose low bits fill the last byte (log entry 68). -/
opaque jobTail : Bytes → List Bool → Nat → Byte

/-! The radio reference model (R264), which Aferi issues with the firmware image and the manual does not contain.  Its
functions take the digest of the radio pipeline's firmware stage and what the pipeline was given; so equal firmware,
cell configuration, slot plans and fronthaul input give equal bits.  Complex values are pairs of rationals. -/

/-- A complex value: real and imaginary part. -/
abbrev Cx := Rat × Rat

/-- What the model's parts for one entry of a plan rest on: firmware, configuration, the radio table of the core that
takes the symbol, the slot, and the entry. -/
structure RadioAt where
  fw : Bytes
  config : Bytes
  table : Bytes
  slot : Nat
  entry : Bytes
deriving DecidableEq, Repr

/-- A section of a C-plane message: its identifier, the every-other-block bit, the blocks, the element mask, the beam
and the frequency offset. -/
structure RadioSection where
  id : Nat
  every : Bool
  start : Nat
  blocks : Nat
  reMask : Nat
  beam : Nat
  offset : Nat
deriving DecidableEq, Repr, Inhabited

/-- What the model decides for a downlink packet: its launch time, antenna port, slot, symbol and filter; for the
U-plane its section; for the C-plane the section type, the direction, the type's own fields and the sections. -/
structure RadioPacket where
  launch : Nat
  port : Nat
  slot : Nat
  symbol : Nat
  filter : Nat
  control : Bool
  kind : Nat
  uplink : Bool
  timeOffset : Nat
  frameStructure : Nat
  cpLength : Nat
  sections : List RadioSection
deriving DecidableEq, Repr, Inhabited

/-- What an uplink entry gives: CRC, no transmission found, SINR in 0.125 dB, timing, the field of bytes 16 to 19 of its
record, and the transport block. -/
structure RadioResult where
  crcOk : Bool
  dtx : Bool
  sinr : Int
  timing : Int
  decoded : Nat
  block : Bytes
deriving DecidableEq, Repr, Inhabited

/-- What the model measures at an uplink entry: no transmission found, SINR and timing. -/
structure RadioQuality where
  dtx : Bool
  sinr : Int
  timing : Int
deriving DecidableEq, Repr, Inhabited

/-- What Beryl makes of a PUCCH: the bits found and whether they hold, or for polar coding the Jasper job with its soft
values. -/
structure RadioPucch where
  found : Bool
  bits : List Bool
  job : Option (Bytes × List Int)
deriving DecidableEq, Repr, Inhabited

/-- The n-th downlink packet of a cell, once what it was given calls for one. -/
opaque radioPacket : Bytes → List Machine.RadioIn → Nat → Option RadioPacket

/-- What the number format of a firmware's model keeps of a value, and the INT16 value that goes out. -/
opaque radioRound : Bytes → Cx → Cx
opaque radioInt : Bytes → Cx → Int × Int

/-- The known DMRS value at an element of an entry (layer, symbol, subcarrier), the resource blocks of a precoding
group, the estimate of an element from which a DMRS residual is taken, whether an element carries data (symbol,
subcarrier), and the constellation with its bits. -/
opaque radioDmrs : RadioAt → Nat → Nat → Nat → Option Cx
opaque radioGroup : RadioAt → Nat
opaque radioFit : Bytes → List (Nat × Cx) → Nat → Cx
opaque radioData : RadioAt → Nat → Nat → Bool
opaque radioPoints : RadioAt → List (List Bool × Cx)

/-- The inverse DFT of a DFT-s-OFDM symbol, and the scrambling bit of a coded bit. -/
opaque radioIdft : Bytes → List Cx → List Cx
opaque radioScramble : RadioAt → Nat → Bool

/-- The matrix and int_shift under an index of a radio table, whose layout the manual does not give (R281). -/
opaque radioMatrix : Bytes → Bytes → Nat → List (List (Int × Int))
opaque radioShift : Bytes → Bytes → Nat → Nat

/-- The Jasper job of an entry (R291), and the bits of the DCI of a PDCCH. -/
opaque radioJob : RadioAt → Bytes
opaque radioDci : RadioAt → Bytes

/-- The measures of an uplink entry; Beryl's part of a PUCCH from the received values of its allocation, none where
nothing arrived; the UCI field of decoded bits. -/
opaque radioQuality : RadioAt → List Machine.RadioIn → RadioQuality
opaque radioPucch : RadioAt → List (Option (Int × Int)) → RadioPucch
opaque radioUci : RadioAt → List Bool → Nat

/-- The value that a port sends at an element that carries no PDSCH data, from the coded bits of the slot's DCIs (port,
symbol, subcarrier): PDCCH, DMRS, PT-RS, CSI-RS, SSB, CRS and the other signals of the configuration. -/
opaque radioSignal : RadioAt → List Machine.RadioIn → List (List Bool) → Nat → Nat → Nat → Int × Int

/-- The power field of a mean energy of zero, or of none (R283), and the ratio field over no noise (R282). -/
opaque zeroLevel : Bytes → List Machine.RadioIn → Nat
opaque zeroRatio : Bytes → List Machine.RadioIn → Nat

/-- PRACH of a configuration (3GPP) under a firmware: the packets that belong to the occasion that a slot ends (frame,
slot, frequency occasion, common header), the reference sequence of an index at a timing advance, the timing window
that the zero-correlation zone permits, and the resource blocks that the occasions of a slot occupy. -/
opaque prachPacket : Bytes → Bytes → Nat → Nat → Nat → Bytes → Bool
opaque prachValue : Bytes → Bytes → Nat → Nat → Nat → Cx
opaque prachWindow : Bytes → Bytes → Nat
opaque prachBlock : Bytes → Bytes → Nat → Nat → Nat → Bool

/-- The voltage, in steps of 5 mV, that the device chooses for a compute die at a clock multiplier from its
ring-oscillator monitors (R467). -/
opaque coreVoltage : Nat → Nat → List Nat → Nat

/-- Whether the leaf certificate of a chain in the SPDM format carries the device identity key (R436). -/
opaque certMatches : Bytes → Bool

/-- What measurement 1 digests (R445), and the bytes of measurements 7 and 10, whose layout the manual does
not give, by index and values. -/
opaque romIdentity : Bytes
opaque measured : Nat → List Nat → Bytes

/-- The answer to an MCTP control message (R451). -/
opaque mctpControl : Bytes

/-- The sealed answers of the SPDM profile (R444), by request code and session. -/
opaque spdmAnswer : Nat → Nat → Bytes

/-- The slice image (R362), whose record headers, context record and engine state the manual does not lay
out: the 64 bytes of a record header from its type and fields, and the type and fields of a header. -/
opaque recordHeader : Nat → List Nat → Nat
opaque recordFields : Bytes → Nat × List Nat

/-- What the context record in a record body of an image gives back: the context, its ND_COUNT and the head and wrapped
fields of its digest log. -/
opaque unpackContext : Bytes → Option (Machine.Ctx × Nat × Nat × Bool)

/-- The save area of R202, whose layout of the context record and of the Garnet banks the manual does not give: the
i-th byte of the banks and of the record, from the context, its ND_COUNT and the head and wrapped fields of its digest
log; and what changed bytes stand for. -/
opaque bankByte : SMap Machine.BankHalf → Nat → Byte
opaque bankBack : Bytes → SMap Machine.BankHalf
opaque recordByte : Machine.Ctx → Nat → Nat → Bool → Nat → Byte
opaque recordBack : Bytes → Machine.Ctx → Machine.Ctx

/-- Bytes of an object and of a step record beyond those that R362 names. -/
opaque objectPad : Nat
opaque stepPad : Nat

end Sys2Proof.Config
end

