-- ==== Sys2Proof/Machine/Ops.lean ====
section
/-!
DEFINITION. The operations that every family shares: sparse maps, byte order, the register file, the
on-package memories with their poison tags, host memory and the requests to it, rings, messages,
numbering of cores, and what the active cut says.
-/
namespace Sys2Proof.Machine

/-! ### Sparse maps -/

/-- What key `k` reads as; `d` where it is not listed. -/
def look {α : Type} (d : α) : SMap α → Nat → α
  | [], _ => d
  | (k', v) :: m, k => if k' = k then v else look d m k

/-- `m` with the pair `(k, v)` put in before the first greater key. -/
def insertKey {α : Type} (k : Nat) (v : α) : SMap α → SMap α
  | [] => [(k, v)]
  | (k', v') :: m => if k < k' then (k, v) :: (k', v') :: m else (k', v') :: insertKey k v m

/-- `m` with key `k` holding `v`; a key that holds its default is not listed. -/
def put {α : Type} [DecidableEq α] (d : α) (m : SMap α) (k : Nat) (v : α) : SMap α :=
  let m' := m.filter fun e => e.1 ≠ k
  if v = d then m' else insertKey k v m'

/-- The canonical form: keys strictly rising, no value that an unlisted key reads as. -/
def mapWf {α : Type} [DecidableEq α] (d : Nat → α) : SMap α → Bool
  | [] => true
  | [(k, v)] => v ≠ d k
  | (k, v) :: (k', v') :: m => decide (v ≠ d k) && decide (k < k') && mapWf d ((k', v') :: m)

/-- The keys and values of `m` whose keys lie in `[lo, lo + n)` dropped. -/
def dropRange {α : Type} (m : SMap α) (lo n : Nat) : SMap α :=
  m.filter fun e => !(decide (lo ≤ e.1) && decide (e.1 < lo + n))

/-! ### Bits and bytes -/

/-- The `w` bits of `n` from bit `lo`. -/
def bits (n lo w : Nat) : Nat := (n >>> lo) % 2 ^ w

/-- Bit `i` of `n`. -/
def bitOf (n i : Nat) : Bool := n.testBit i

/-- The little-endian number that bytes spell (R4). -/
def leNat : Bytes → Nat
  | [] => 0
  | b :: bs => b.toNat + 256 * leNat bs

/-- The low `len` bytes of a number, least significant first (R4). -/
def leBytes : Nat → Nat → Bytes
  | 0, _ => []
  | len + 1, n => BitVec.ofNat 8 n :: leBytes len (n / 256)

/-- The `len` bytes of `bs` from `off` as a number; absent bytes read as zero. -/
def leAt (bs : Bytes) (off len : Nat) : Nat := leNat ((bs.drop off).take len)

/-- `n` as a signed number of `w` bits. -/
def toSigned (w n : Nat) : Int :=
  let m := n % 2 ^ w
  if m < 2 ^ (w - 1) then (m : Int) else (m : Int) - (2 ^ w : Nat)

/-- The `w`-bit pattern of a signed number. -/
def ofSigned (w : Nat) (x : Int) : Nat := (x % (2 ^ w : Nat)).toNat

/-- `x` brought into the range of a signed number of `w` bits. -/
def satSigned (w : Nat) (x : Int) : Int :=
  let hi : Int := (2 ^ (w - 1) : Nat) - 1
  let lo : Int := - (2 ^ (w - 1) : Nat)
  if x > hi then hi else if x < lo then lo else x

/-- The comparison of R79: whether (int32)(value - target) is at or above zero. -/
def reached (value target : Nat) : Bool := decide (0 ≤ toSigned 32 (value + 2 ^ 32 - target % 2 ^ 32))

/-! ### The register file -/

/-- The stored value of instance `i` of a register. -/
def State.reg (s : State) (r : Reg) (i : Nat) : RegVal :=
  look (r.resetVal i) (look [] s.regs r.code) i

/-- The state with that register holding `v`. -/
def State.setReg (s : State) (r : Reg) (i : Nat) (v : RegVal) : State :=
  { s with regs := put [] s.regs r.code (put (r.resetVal i) (look [] s.regs r.code) i v) }

/-- The stored value of a field. -/
def State.fld (s : State) (f : Fld) (i : Nat) : Nat := getBits (s.reg f.reg i) f.lo f.width

/-- The state with a field holding the low bits of `x`. -/
def State.setFld (s : State) (f : Fld) (i x : Nat) : State :=
  s.setReg f.reg i (setBits (s.reg f.reg i) f.lo f.width x)

/-- An event counter that saturates (R6), raised by `n`. -/
def State.count (s : State) (f : Fld) (i n : Nat) : State :=
  s.setFld f i (min (s.fld f i + n) (2 ^ f.width - 1))

/-- A counter that wraps, raised by `n`. -/
def State.countWrap (s : State) (f : Fld) (i n : Nat) : State := s.setFld f i (s.fld f i + n)

/-- A counter that saturates, lowered by `n`. -/
def State.lower (s : State) (f : Fld) (i n : Nat) : State := s.setFld f i (s.fld f i - n)

/-! ### Free values -/

/-- The next free value (log entry 9), and the state after it is taken. -/
def State.free (s : State) : Nat × State :=
  (Config.freeValue s.freeCtr, { s with freeCtr := s.freeCtr + 1 })

/-! ### Device addresses and on-package memory -/

/-- What a device address names (R29). -/
inductive Place3 where
  | vault (core off : Nat)
  | spm (core off : Nat)
  | clm (cluster off : Nat)
  | reserved
deriving DecidableEq, Repr

/-- The layout of R29; the unpopulated part of a vault window counts as reserved. -/
def locate (a : Nat) : Place3 :=
  if a < 0x8000000000 then
    if a % 0x80000000 < 0x48000000 then .vault (a / 0x80000000) (a % 0x80000000) else .reserved
  else if 0x10000000000 ≤ a ∧ a < 0x10040000000 then
    .spm ((a - 0x10000000000) / 0x400000) (a % 0x400000)
  else if 0x10100000000 ≤ a ∧ a < 0x10110000000 then
    .clm ((a - 0x10100000000) / 0x800000) (a % 0x800000)
  else .reserved

/-- The device address of vault offset `off` of logical core `n`. -/
def vaultAddr (n off : Nat) : Nat := n * 0x80000000 + off

/-- The device address of scratchpad offset `off` of logical core `n`. -/
def spmAddr (n off : Nat) : Nat := 0x10000000000 + n * 0x400000 + off

/-- The device address of cluster-memory offset `off` of cluster `k`. -/
def clmAddr (k off : Nat) : Nat := 0x10100000000 + k * 0x800000 + off

/-- Whether any byte of the range lies in a reserved range or an unpopulated part (R30).  Regions are
aligned to 4 KiB at least, so one byte of each 4 KiB and the last byte decide. -/
def touchesReserved (a len : Nat) : Bool :=
  if len = 0 then false
  else
    let last := a + len - 1
    match locate a, locate last with
    | .vault n o, .vault n' o' => !(n = n' ∧ o ≤ o')
    | .spm _ _, .spm _ _ => false
    | .clm _ _, .clm _ _ => false
    | _, _ => true

/-- A byte of on-package memory. -/
def State.byte (s : State) (a : Nat) : Byte := look 0 s.mem a

/-- The state with one byte written. -/
def State.setByte (s : State) (a : Nat) (b : Byte) : State := { s with mem := put 0 s.mem a b }

/-- `n` bytes from address `a`. -/
def State.bytesAt (s : State) (a n : Nat) : Bytes := (List.range n).map fun i => s.byte (a + i)

/-- The state with bytes written from address `a`, poison tags left alone. -/
def State.setBytes (s : State) (a : Nat) : Bytes → State
  | [] => s
  | b :: bs => (s.setByte a b).setBytes (a + 1) bs

/-- The poison tag stored for the line that holds address `a` (R186). -/
def State.tagged (s : State) (a : Nat) : Bool := look false s.poison (a / 64)

/-- Whether `[a, a + n)` touches the memory of a cluster whose cluster memory has failed: such a memory delivers poison,
whatever is written to it (R394). -/
def State.clmFailed (s : State) (a n : Nat) : Bool :=
  decide (0x10100000000 < a + n) && decide (a < 0x10110000000) && decide (0 < n)
    && (List.range 32).any fun k =>
      decide (a < clmAddr (k + 1) 0) && decide (clmAddr k 0 < a + n) && s.fld F.HLTH_UNIT_state (736 + k) = 4

/-- Whether a read of the line that holds address `a` delivers poison (R186, R394). -/
def State.poisoned (s : State) (a : Nat) : Bool := s.tagged a || s.clmFailed a 1

/-- The state with the tag of the line that holds `a` set or cleared. -/
def State.setPoison (s : State) (a : Nat) (t : Bool) : State :=
  { s with poison := put false s.poison (a / 64) t }

/-- Whether any line of `[a, a + n)` is read poisoned. -/
def State.anyPoison (s : State) (a n : Nat) : Bool :=
  (s.poison.any fun e => decide (a / 64 ≤ e.1) && decide (e.1 * 64 < a + n) && decide (0 < n)) || s.clmFailed a n

/-- The tag of each line that `[a, a + n)` touches after a write with tag `t`: a write with the tag
poisons, a write of the whole line without it clears, a partial write leaves it (R186). -/
def State.tagWrite (s : State) (a n : Nat) (t : Bool) : State :=
  (List.range (if n = 0 then 0 else (a + n - 1) / 64 - a / 64 + 1)).foldl
    (fun s i =>
      let l := (a / 64 + i) * 64
      if t then s.setPoison l true
      else if a ≤ l ∧ l + 64 ≤ a + n then s.setPoison l false
      else s) s

/-- A write to on-package memory (R186). -/
def State.writeMem (s : State) (a : Nat) (bs : Bytes) (t : Bool) : State :=
  (s.setBytes a bs).tagWrite a bs.length t

/-- The range written to zero with its poison cleared (R196, R198, R200, R432). -/
def State.zeroRange (s : State) (a n : Nat) : State :=
  { s with mem := dropRange s.mem a n, poison := dropRange s.poison (a / 64) (n / 64) }

/-- What the register file stores, as a number. -/
def State.stored (s : State) (r : Reg) (i : Nat) : Nat := (s.reg r i).toNat

/-- A stored value with one of its fields replaced. -/
def withFld (v : Nat) (f : Fld) (x : Nat) : Nat := v - bits v f.lo f.width * 2 ^ f.lo + x % 2 ^ f.width * 2 ^ f.lo

/-- The instances of a register that are listed in the register file. -/
def State.listed (s : State) (r : Reg) : List Nat := (look [] s.regs r.code).map (·.1)

/-! ### Cores, clusters and the map (R18 to R24) -/

/-- The record of physical core `p`. -/
def State.core (s : State) (p : Nat) : Core := look Core.init s.cores p

/-- The state with that record replaced. -/
def State.setCore (s : State) (p : Nat) (c : Core) : State :=
  { s with cores := put Core.init s.cores p c }

/-- The context in a slot of a physical core. -/
def State.ctx (s : State) (p slot : Nat) : Option Ctx := look none (s.core p).ctx slot

/-- The state with the slot holding `x`. -/
def State.setCtx (s : State) (p slot : Nat) (x : Option Ctx) : State :=
  s.setCore p { s.core p with ctx := put none (s.core p).ctx slot x }

/-- A change of the context in a slot, where there is one. -/
def State.onCtx (s : State) (p slot : Nat) (f : Ctx → Ctx) : State :=
  match s.ctx p slot with
  | some x => s.setCtx p slot (some (f x))
  | none => s

/-- The physical slot that serves logical slot `j` of cluster `k`: 15 when unmapped (R23). -/
def State.slotMap (s : State) (k j : Nat) : Nat := bits (s.fld F.CLU_CORE_MAP_core_slot_map k) (4 * j) 4

/-- The physical core that serves logical core `n` (R19, R22). -/
def State.physOf (s : State) (n : Nat) : Option Nat :=
  let e := s.slotMap (n / 8) (n % 8)
  if e < 9 then some (9 * (n / 8) + e) else none

/-- The logical core that physical core `p` serves. -/
def State.logicalOf (s : State) (p : Nat) : Option Nat :=
  ((List.range 8).find? fun j => s.slotMap (p / 9) j = p % 9).map fun j => 8 * (p / 9) + j

/-- The physical Jasper engine that serves as logical engine `l` of cluster `k`; 3 when none. -/
def State.jasperOf (s : State) (k l : Nat) : Nat :=
  if l = 0 then s.fld F.CLU_CORE_MAP_jsp_of_l0 k else s.fld F.CLU_CORE_MAP_jsp_of_l1 k

/-! ### The active cut (R56 to R61) -/

/-- The entry of a section and key in the active cut. -/
def State.entry (s : State) (ty key : Nat) : Option Nat := look none s.cut.active (ty * 2 ^ 24 + key)

/-- A field of an entry, 0 where there is no entry. -/
def State.cutBits (s : State) (ty key lo w : Nat) : Nat :=
  match s.entry ty key with
  | some e => bits e lo w
  | none => 0

/-- A read that delivers poisoned vault lines of `[a, a + n)` is counted for each (R186). -/
def State.readPoison (s : State) (a n : Nat) : State :=
  match locate a with
  | .vault m _ =>
    match s.physOf m with
    | some p => s.count F.CORE_VAULT_ECC_poison_reads p
        (s.poison.filter fun e => decide (a / 64 ≤ e.1) && decide (e.1 * 64 < a + n) && decide (0 < n)).length
    | none => s
  | _ => s

/-- Whether logical core `n` has role radio. -/
def State.isRadio (s : State) (n : Nat) : Bool := s.cutBits 2 n 32 2 = 1

/-- garnet_radio of logical core `n`. -/
def State.garnetRadio (s : State) (n : Nat) : Bool := s.cutBits 2 n 58 1 = 1

/-- The partition of a slice, none when unbound or absent. -/
def State.partitionOf (s : State) (sl : Nat) : Option Nat :=
  match s.entry 6 sl with
  | some e => if bits e 52 9 = 0x1FF then none else some (bits e 52 9)
  | none => none

/-- The PASID of a requester: that of the slice, or none for the radio function. -/
def State.pasidOf (s : State) (owner : Nat) : Option Nat :=
  if owner < 256 then some (s.cutBits 6 owner 32 20) else none

/-- Whether logical core `n` is a member of partition `q`. -/
def State.isMember (s : State) (q n : Nat) : Bool := s.cutBits 5 q (256 + n) 1 = 1

/-- The member cores of a partition, in ascending order. -/
def State.members (s : State) (q : Nat) : List Nat := (List.range 256).filter fun n => s.isMember q n

/-- The partition, if any, of which a core is a member. -/
def State.partitionAt (s : State) (n : Nat) : Option Nat :=
  (List.range 255).find? fun q => s.isMember q n

/-- Steady mode of a requester: that of its partition; radio contexts follow steady mode (R171, R180). -/
def State.steady (s : State) (owner : Nat) : Bool :=
  if owner = 256 then true
  else match s.partitionOf owner with
    | some q => s.cutBits 5 q 72 1 = 1
    | none => false

/-- The share of a slice (R351). -/
def State.share (s : State) (sl : Nat) : Nat := s.cutBits 6 sl 64 16

/-- The keys of a section of the active cut. -/
def State.keys (s : State) (ty : Nat) : List Nat :=
  (s.cut.active.filter fun e => e.1 / 2 ^ 24 = ty).map fun e => e.1 % 2 ^ 24

/-- The regions of a kind on a logical core, as (base, length) in bytes (R61). -/
def State.regions (s : State) (kind n : Nat) : List (Nat × Nat) :=
  ((s.keys 7).filter fun r => s.cutBits 7 r 32 4 = kind ∧ s.cutBits 7 r 48 8 = n).map
    fun r => (s.cutBits 7 r 64 32 * 4096, s.cutBits 7 r 96 32 * 4096)

/-- The granules that a scratchpad radio region of logical core `n` covers, one bit each (R194). -/
def State.radioGranules (s : State) (n : Nat) : Nat :=
  (List.range 64).foldl (fun m g =>
    if (s.regions 1 n).any fun (b, l) => decide (b < (g + 1) * 0x10000) && decide (g * 0x10000 < b + l)
    then m + 2 ^ g else m) 0

/-! ### Time (R35, R36) -/

/-- Total nanoseconds (R331). -/
def State.total (s : State) : Nat := s.time.sec * 1000000000 + s.time.ns

/-- The tick period of a code in nanoseconds (R35). -/
def tickPeriod (code : Nat) : Nat := 31250 * 2 ^ code

/-- The current period. -/
def State.period (s : State) : Nat := tickPeriod (s.fld F.TIME_TICK_STATUS_period_code 0)

/-- The tick number of an instant (R36). -/
def State.tickAt (s : State) (total : Nat) : Nat :=
  s.fld F.TIME_TICK_BASE_base_tick 0 + (total - s.fld F.TIME_TICK_BASE_base_ns 0) / s.period

/-- The instant of a tick boundary (R36). -/
def State.tickInstant (s : State) (n : Nat) : Nat :=
  s.fld F.TIME_TICK_BASE_base_ns 0 + (n - s.fld F.TIME_TICK_BASE_base_tick 0) * s.period

/-- The number of the current tick (TIME_TICK_NUMBER). -/
def State.tickNo (s : State) : Nat := s.fld F.TIME_TICK_NUMBER_tick_number 0

/-- An instant that the manual gives to within `e` ns (R344, R345): total nanoseconds with an error that is
a free value. -/
def State.within (s : State) (e : Nat) : Nat × State :=
  let (v, s1) := s.free
  (s.total + v % (2 * e + 1) - e, s1)

/-! ### Host memory and requests to the host -/

/-- The key of a byte of host memory under a PASID, or without one. -/
def hostKey (pasid : Option Nat) (addr : Nat) : Nat :=
  (match pasid with | none => 0 | some p => p + 1) * 2 ^ 64 + addr % 2 ^ 64

/-- A byte of host memory; zero where nothing was placed (DESIGN CHOICE, log entry 6). -/
def State.hostByte (s : State) (pasid : Option Nat) (a : Nat) : Byte := look 0 s.host.mem (hostKey pasid a)

/-- `n` bytes of host memory. -/
def State.hostBytes (s : State) (pasid : Option Nat) (a n : Nat) : Bytes :=
  (List.range n).map fun i => s.hostByte pasid (a + i)

/-- Bytes placed in host memory. -/
def hostStore (m : SMap Byte) (key : Nat) : Bytes → SMap Byte
  | [] => m
  | b :: bs => hostStore (put 0 m key b) (key + 1) bs

/-- Whether a read of the range ends in a host error (R427). -/
def State.hostError (s : State) (pasid : Option Nat) (a n : Nat) : Bool :=
  let k := hostKey pasid a
  s.host.fail.any (fun (lo, len) => decide (lo < k + n) && decide (k < lo + len))
    || s.host.poison.any fun e => decide (k ≤ e.1) && decide (e.1 < k + n)

/-- The record of a slice. -/
def State.slice (s : State) (i : Nat) : SliceRec := look SliceRec.init s.slices i

/-- The state with that record replaced. -/
def State.setSlice (s : State) (i : Nat) (r : SliceRec) : State :=
  { s with slices := put SliceRec.init s.slices i r }

/-- What Lamplighter holds for a slice. -/
def State.lampSlice (s : State) (i : Nat) : LampSlice := look LampSlice.init s.lamp i

/-- The state with that replaced. -/
def State.setLamp (s : State) (i : Nat) (r : LampSlice) : State :=
  { s with lamp := put LampSlice.init s.lamp i r }

/-- The pages of 4 KiB that `[a, a + n)` touches. -/
def pages4k (a n : Nat) : List Nat :=
  if n = 0 then [] else (List.range ((a + n - 1) / 4096 - a / 4096 + 1)).map fun i => a / 4096 + i

/-- R359: an accepted host write of a logging slice makes an entry for each page that the filter does
not hold. -/
def State.logDirty (s : State) (who a n : Nat) : State :=
  if who < 256 ∧ s.fld F.SLC_LOG_STATUS_logging who = 1 then
    (pages4k a n).foldl (fun s pg =>
      let r := s.slice who
      if r.filter.contains pg then s
      else
        let flt := (if r.filter.length < 4096 then r.filter else r.filter.drop 1) ++ [pg]
        (s.setSlice who { r with filter := flt, logPending := r.logPending ++ [pg] }).countWrap
          F.SLC_LOG_STATUS_pages_logged who 1) s
  else s

/-- Whether TDISP has locked the configuration of a slice: CONFIG_LOCKED or RUN (R365). -/
def State.tdiLocked (s : State) (sl : Nat) : Bool :=
  sl < 256 && (s.fld F.SLC_STATE_tdi_state sl = 1 || s.fld F.SLC_STATE_tdi_state sl = 2)

/-- Whether a write to the portal page of a slice may arrive as it does: in RUN only on the IDE stream bound
to the interface, with the T bit set (R366). -/
def State.viaOk (s : State) (sl : Nat) (via : Option Nat) : Bool :=
  256 ≤ sl || s.fld F.SLC_STATE_tdi_state sl ≠ 2 || (via.isSome && via = (s.slice sl).stream)

/-- Whether function `fn` may issue requests now (R368, R426, R428). -/
def State.canIssue (s : State) (fn : Nat) : Bool :=
  let f := if fn = 1 then s.host.pf1 else s.host.pf0
  f.busMaster && !f.d3

/-- Whether a request that its function holds since the given cycle has been held longer than the wait limit
(R368), or than 1 ms for the radio function (R428). -/
def State.heldOut (s : State) (who : Nat) (since : Option Nat) : Bool :=
  let l := if who = 256 then 1 else s.fld F.SYNC_CTL_wait_limit_ms 0
  l ≠ 0 && since.any fun t => decide (t + l * 1000000 < s.time.clk)

/-- The function under whose identity a requester's requests travel. -/
def fnOf (who : Nat) : Nat := if who = 256 then 1 else 0

/-- The key of an MSI-X table entry. -/
def msixKey (fn v : Nat) : Nat := fn * 4096 + v

/-- One MSI-X entry. -/
def State.msixEntry (s : State) (fn v : Nat) : MsixEntry := look MsixEntry.init s.host.msix (msixKey fn v)

/-- The state with that entry replaced. -/
def State.setMsix (s : State) (fn v : Nat) (e : MsixEntry) : State :=
  { s with host := { s.host with msix := put MsixEntry.init s.host.msix (msixKey fn v) e } }

/-- The attributes with which a requester's write leaves (R347, R349, R366). -/
def State.reqAttr (s : State) (who : Nat) (pasid : Option Nat) : ReqAttr :=
  { fn := fnOf who, pasid := pasid, execute := false, privileged := false
    translated := who < 256 && pasid.isSome && s.fld F.SLC_CFG_ats_en who = 1
    stream := if who < 256 ∧ s.fld F.SLC_STATE_tdi_state who = 2 then (s.slice who).stream else none }

/-- A request accepted by the PCIe controller: a write lands in host memory; a message is sent, or sets
its pending bit while its vector is masked (R430). -/
def State.issue (s : State) (who : Nat) (q : HostReq) : State :=
  match q with
  | .write pasid a data t =>
    let k := hostKey pasid a
    let h := { s.host with
      mem := hostStore s.host.mem k data,
      poison := (List.range data.length).foldl (fun m i => put false m (k + i) t) s.host.poison,
      sent := s.host.sent ++ [.write (s.reqAttr who pasid) a data t] }
    ({ s with host := h }).logDirty who a data.length
  | .msix fn v =>
    let e := s.msixEntry fn v
    if e.masked then s.setMsix fn v { e with pending := true }
    else { s with host := { s.host with sent := s.host.sent ++ [.msix fn v e.addr e.data] } }

/-- Pages of a slice's request that wait for a translation (R349). -/
def State.untranslated (s : State) (who : Nat) (pasid : Option Nat) (a n : Nat) : List Nat :=
  if who < 256 ∧ pasid ≠ none ∧ s.fld F.SLC_CFG_ats_en who = 1 then
    (pages4k a n).filter fun pg => !(s.slice who).atc.contains pg
  else []

/-- The page translations that a slice must now ask for (R349). -/
def State.askTranslation (s : State) (who : Nat) (pgs : List Nat) : State :=
  pgs.foldl (fun s pg =>
    let r := s.slice who
    if r.atsWait.contains pg || r.pri.contains pg then s
    else s.setSlice who { r with atsWait := r.atsWait ++ [pg] }) s

/-- Whether two writes under one PASID share a 64-byte line. -/
def HostReq.meets : HostReq → HostReq → Bool
  | .write p a d _, .write p' a' d' _ =>
    decide (p = p') && decide (a / 64 * 64 < a' + d'.length) && decide (a' / 64 * 64 < a + d.length)
  | _, _ => false

/-- Whether a held request of the same requester must go before a later one: both are records or messages of the FN2,
which leave in their order (R93, R97, R102); or the later is a HOST_WRITE and both are writes of one context (R86); or
both write to one line (R28). -/
def HeldReq.before (h r : HeldReq) : Bool :=
  h.who = r.who && ((h.flag.isNone && r.flag.isNone)
    || (r.after && h.flag.map (fun f => (f.1, f.2.1)) = r.flag.map fun f => (f.1, f.2.1))
    || h.req.meets r.req)

/-- The pages for whose translation a request waits (R349). -/
def State.heldPages (s : State) (h : HeldReq) : List Nat :=
  match h.req with
  | .write pasid a data _ => s.untranslated h.who pasid a data.length
  | .msix _ _ => []

/-- A request tried: issued, or held at its source while its function may not issue (R368, R426), a translation is
missing (R349) or a held request must go before it. -/
def State.tryRequest (s : State) (h : HeldReq) : State :=
  let hold (s : State) : State := { s with host := { s.host with held := s.host.held ++ [h] } }
  if !s.canIssue (fnOf h.who) then hold s
  else if s.heldPages h ≠ [] then (hold s).askTranslation h.who (s.heldPages h)
  else if s.host.held.any fun g => g.before h then hold s
  else s.issue h.who h.req

/-- A request made for a command, an ordered one (R86), or for a slice command; dropped when its slice is fenced
(R357). -/
def State.requestAs (s : State) (who : Nat) (q : HostReq) (flag : Option (Nat × Nat × Nat)) (after : Bool)
    (job : Option Nat) : State :=
  if who < 256 ∧ (s.slice who).fenced then s else s.tryRequest ⟨who, q, s.time.clk, flag, after, job⟩

/-- A request of a requester to the host. -/
def State.request (s : State) (who : Nat) (q : HostReq) (flag : Option (Nat × Nat × Nat)) : State :=
  s.requestAs who q flag false none

/-- Held requests tried again, in order (R368). -/
def State.retryHeld (s : State) : State :=
  s.host.held.foldl State.tryRequest { s with host := { s.host with held := [] } }

/-- A write of a record by the FN2 for a requester, with its PASID. -/
def State.hostWrite (s : State) (who a : Nat) (data : Bytes) : State :=
  s.request who (.write (s.pasidOf who) a data false) none

/-- A write under the PF0 requester ID without PASID. -/
def State.pf0Write (s : State) (a : Nat) (data : Bytes) : State :=
  s.request 257 (.write none a data false) none

/-- The same for a slice's SAVE or log command. -/
def State.pf0WriteFor (s : State) (sl a : Nat) (data : Bytes) : State :=
  s.requestAs 257 (.write none a data false) none false (some sl)

/-- A message of PF0 or PF1 (R431). -/
def State.message (s : State) (fn v : Nat) : State :=
  s.request (if fn = 1 then 256 else 257) (.msix fn v) none

/-- The events that PF0 reports by message (R431). -/
def State.cutEvent (s : State) : State := s.message 0 0
def State.managerEvent (s : State) : State := s.message 0 1
def State.sliceEvent (s : State) : State := s.message 0 2
def State.timeEvent (s : State) : State := s.message 0 4
def State.twinEvent (s : State) : State := (s.message 0 5).message 1 4
def State.deviceEvent (s : State) : State := s.message 0 6

/-- Portal message `m` of an owner (R98, R99): a 4-byte write with the PF0 requester ID and without
PASID, pending while masked; for the radio portal, a PF1 vector. -/
def State.portalMessage (s : State) (owner m : Nat) : State :=
  if owner = 256 then s.message 1 m
  else if (s.slice owner).fenced then s
  else
    let i := owner * 8 + m
    if s.fld F.SLC_MSG_mask i = 1 then s.setFld F.SLC_MSG_pending i 1
    else s.request owner
      (.write none (s.fld F.SLC_MSG_addr i) (leBytes 4 (s.fld F.SLC_MSG_data i)) false) none

/-! ### Rings (R482) -/

/-- The entries of a ring whose size code is `code` and whose code 1 gives 2 ^ (base + 1). -/
def ringEntries (code base : Nat) : Nat := if 1 ≤ code ∧ code ≤ 12 then 2 ^ (code + base) else 0

/-- Whether a ring of `n` entries has room (R482). -/
def ringRoom (head tail n : Nat) : Bool := decide ((head + 2 ^ 32 - tail % 2 ^ 32) % 2 ^ 32 < n)

/-! ### Bad accesses -/

/-- DEV_BAD_ACCESS counts an access (R7, R8). -/
def State.badAccess (s : State) (bar offset : Nat) : State :=
  ((s.count F.DEV_BAD_ACCESS_count 0 1).setFld F.DEV_BAD_ACCESS_last_offset 0 offset).setFld
    F.DEV_BAD_ACCESS_last_bar 0 bar

/-- Whether PF1 BAR0 holds registers: it is reserved space until ready is 1 (R442). -/
def State.pf1Ready (s : State) : Bool := s.fld F.DEV_STATUS_ready 0 = 1

/-! ### The time clock (R330) -/

/-- Device time as one number of 2^-32 ns. -/
def TimeBlk.fixed (b : TimeBlk) : Nat := (b.sec * 1000000000 + b.ns) * 2 ^ 32 + b.frac

/-- The block holding a device time given in 2^-32 ns. -/
def TimeBlk.withFixed (b : TimeBlk) (v : Nat) : TimeBlk :=
  { b with sec := v / 2 ^ 32 / 1000000000, ns := v / 2 ^ 32 % 1000000000, frac := v % 2 ^ 32 }

/-- The increment in use from the next cycle on (R334). -/
def State.incr (s : State) : Nat :=
  match s.time.pendIncr with
  | some v => v
  | none => s.fld F.TIME_INCREMENT_incr 0

/-- One time-clock cycle: the health clock counts it (R387); once device time runs, the increment is
added (R330), a written increment being in use from this cycle on (R334), and PPS_OUT falls after its
width (R343). -/
def State.cycle (s : State) : State :=
  if s.time.running then
    let b := s.time.withFixed (s.time.fixed + s.incr)
    let s1 := s.setFld F.TIME_INCREMENT_incr 0 s.incr
    let out := s.time.ppsOut && decide (b.sec * 1000000000 + b.ns < s.time.ppsFall)
    { s1 with time := { b with clk := s.time.clk + 1, pendIncr := none, ppsOut := out
                               second := b.sec ≠ s.time.sec } }
  else { s with time := { s.time with clk := s.time.clk + 1 } }

/-! ### Outcomes -/

/-- A command's effect, always a next state. -/
def done (s : State) : Host.Outcome State Fault Refusal := .next s

end Sys2Proof.Machine
end

