-- ==== Sys2Proof/Machine/Time.lean ====
section
/-!
DEFINITION. Device time (chapter 14): snapshots, the increment, the time-clock PLL and 1PPS.  The
adjustments of R335 are in Machine/Adjust.lean, because they may deliver a tick boundary.
-/
namespace Sys2Proof.Machine

/-- The low 64-bit word of TIME_NOW: fraction and nanoseconds. -/
def State.nowLow (s : State) : Nat := s.time.frac % 2 ^ 32 + s.time.ns * 2 ^ 32

/-- The low 64-bit word of TIME_PPS_IN: nanoseconds and edges. -/
def State.ppsLow (s : State) : Nat :=
  s.fld F.TIME_PPS_IN_ns 0 + s.fld F.TIME_PPS_IN_edges 0 * 2 ^ 32

/-- A read of the low word (R333): a snapshot of the whole register for the requester, which replaces one
that it already holds. -/
def State.lowSnap (s : State) (req : Nat) (pps : Bool) : State :=
  if pps then
    { s with time := { s.time with ppsSnap := put none s.time.ppsSnap req (some (s.fld F.TIME_PPS_IN_seconds 0)) },
             lastRead := s.ppsLow,
             lastPoison := false }
  else
    { s with time := { s.time with nowSnap := put none s.time.nowSnap req (some s.time.sec) },
             lastRead := s.nowLow,
             lastPoison := false }

/-- A read of the high word (R333): the seconds of the snapshot, which it uses up, or the current ones. -/
def State.highSnap (s : State) (req : Nat) (pps : Bool) : State :=
  if pps then
    { s with time := { s.time with ppsSnap := put none s.time.ppsSnap req none },
             lastRead := (look none s.time.ppsSnap req).getD (s.fld F.TIME_PPS_IN_seconds 0),
             lastPoison := false }
  else
    { s with time := { s.time with nowSnap := put none s.time.nowSnap req none },
             lastRead := (look none s.time.nowSnap req).getD s.time.sec,
             lastPoison := false }

/-- TIME_NOW_LOW_READ (R333). -/
def execTimeNowLowRead (req : Nat) (pps : Bool) (s : State) : Host.Outcome State Fault Refusal :=
  done (s.lowSnap req pps)

/-- TIME_NOW_HIGH_READ (R333). -/
def execTimeNowHighRead (req : Nat) (pps : Bool) (s : State) : Host.Outcome State Fault Refusal :=
  done (s.highSnap req pps)

/-- The limits of the increment: 1.0 ns within 1,000 ppm (R334). -/
def incrMin : Nat := 0x00FFBE76C9
def incrMax : Nat := 0x0100418937

/-- A write of incr: clamped, and in use from the next cycle on (R334). -/
def State.incrWrite (s : State) (v : Nat) : State :=
  let v := v % 2 ^ 40
  let w := if v < incrMin then incrMin else if incrMax < v then incrMax else v
  let s := if w = v then s else s.setFld F.TIME_STATUS_inc_clamped 0 1
  { s with time := { s.time with pendIncr := some w } }

/-- TIME_INCREMENT_WRITE (R334). -/
def execTimeIncrementWrite (value : Nat) (s : State) : Host.Outcome State Fault Refusal :=
  done (s.incrWrite value)

/-- PLL_LOCK (R36, R442, step 3 of start-up): with PERST_N high the PLL locks, the time clock starts and
device time with it, at 0 s. -/
def execPllLock (s : State) : Host.Outcome State Fault Refusal :=
  done <|
    if s.pins.perst ∧ !s.time.running ∧ !s.power.tripped ∧ s.power.down = [] then
      let s := s.setFld F.TIME_STATUS_ref_lock 0 1
      { s with time := { s.time with running := true, lastTick := none } }
    else s

/-- PLL_LOCK_LOSS (R332): the time clock runs on from its holdover oscillator. -/
def execPllLockLoss (s : State) : Host.Outcome State Fault Refusal :=
  done <|
    if s.time.running ∧ s.fld F.TIME_STATUS_ref_lock 0 = 1 then (s.setFld F.TIME_STATUS_ref_lock 0 0).timeEvent
    else s

/-- PLL_RELOCK (R332, R472): the PLL leaves holdover. -/
def execPllRelock (s : State) : Host.Outcome State Fault Refusal :=
  done <|
    if s.time.running ∧ s.fld F.TIME_STATUS_ref_lock 0 = 0 then s.setFld F.TIME_STATUS_ref_lock 0 1 else s

/-- PPS_OUT_PULSE (R343, R336): in the first cycle of a second, PPS_OUT rises for width_us of device time. -/
def execPpsOutPulse (s : State) : Host.Outcome State Fault Refusal :=
  done <|
    if s.time.running ∧ s.fld F.TIME_PPS_CTL_out_en 0 = 1 ∧ s.time.second ∧ !s.time.ppsOut then
      { s with time := { s.time with
          ppsOut := true, second := false,
          ppsFall := s.time.sec * 1000000000 + s.fld F.TIME_PPS_CTL_width_us 0 * 1000 } }
    else s

/-- PPS_IN_EDGE (R344): the capture is within 2 ns of the edge. -/
def execPpsInEdge (s : State) : Host.Outcome State Fault Refusal :=
  done <|
    if s.fld F.TIME_PPS_CTL_in_en 0 = 1 then
      let (t, s) := s.within 2
      let s := s.setFld F.TIME_PPS_IN_ns 0 (t % 1000000000)
      let s := s.setFld F.TIME_PPS_IN_seconds 0 (t / 1000000000)
      s.countWrap F.TIME_PPS_IN_edges 0 1
    else s

/-- A write of TIME_PPS_CTL (R343): a width of 0 is ignored, and PPS_OUT is low while out_en is 0. -/
def State.ppsCtlWrite (s : State) (v : Nat) : State :=
  let s := (s.setFld F.TIME_PPS_CTL_out_en 0 (bits v 0 1)).setFld F.TIME_PPS_CTL_in_en 0 (bits v 1 1)
  let s := if bits v 2 20 = 0 then s else s.setFld F.TIME_PPS_CTL_width_us 0 (bits v 2 20)
  if bits v 0 1 = 0 then { s with time := { s.time with ppsOut := false } } else s

end Sys2Proof.Machine
end

