-- ==== Sys2Proof/Machine/Adjust.lean ====
section
/-!
DEFINITION. Adjustments of device time (R335 to R340).
-/
namespace Sys2Proof.Machine

/-- The total nanoseconds that device time never reaches: 2^48 ticks of 31,250 ns (R335). -/
def timeLimit : Nat := 8796093022208000000

/-- The value of TIME_ADJ_VALUE in nanoseconds. -/
def State.adjValue (s : State) : Nat :=
  s.fld F.TIME_ADJ_VALUE_seconds 0 * 1000000000 + s.fld F.TIME_ADJ_VALUE_ns 0

/-- The outcome of an operation on the total nanoseconds `t` of the cycle; none when R335 refuses it. -/
def adjusted (op t v ns : Nat) : Option Nat :=
  if 1000000000 ≤ ns then none
  else match op with
    | 0 => if t + v < timeLimit then some (t + v) else none
    | 1 => if v ≤ t then some (t - v) else none
    | 2 => if v < timeLimit then some v else none
    | _ => none

/-- The first boundary not yet delivered. -/
def State.nextTick (s : State) : Nat := match s.time.lastTick with
  | some m => m + 1
  | none => 0

/-- The tick boundary that is due: its instant has come and it has not been delivered (R36, R337); the last of those
that an adjustment passed, from the cycle after it (R338). -/
def State.tickDue (s : State) : Option Nat :=
  if !s.time.running then none
  else match s.time.skip with
    | some k => if k < s.time.clk then some (s.tickAt s.total) else none
    | none => if s.time.lastTick = none then some 0
      else if s.nextTick ≤ s.tickAt s.total then some s.nextTick else none

/-- R338: whether an adjustment from `before` has passed boundaries, to be delivered as one in the cycle after it;
none are left to deliver where the time is back before the next (R339). -/
def State.skipTo (s : State) (before : Nat) : State :=
  { s with time := { s.time with
      skip := if s.tickAt s.total < s.nextTick then none
        else if before < s.total then some s.time.clk
        else s.time.skip } }

/-- A write of TIME_ADJ_CTL with go = 1 (R335): the next cycle is counted, then adjusted; PPS_OUT falls in it when the
adjusted time has reached the instant of its fall (R336).  A second that an adjustment passes has no pulse; one at whose
start it lands has (R343; DESIGN CHOICE, log entry 182). -/
def State.adjust (s : State) (op : Nat) : State :=
  let c := s.cycle
  match adjusted op c.total s.adjValue (s.fld F.TIME_ADJ_VALUE_ns 0) with
  | none => s.setFld F.TIME_STATUS_adj_refused 0 1
  | some t =>
    if !s.time.running then s
    else
      let out := s.time.ppsOut && decide (t < s.time.ppsFall)
      let d := { c with time := { c.time.withFixed (t * 2 ^ 32) with ppsOut := out, second := t % 1000000000 = 0 } }
      let d := d.count F.TIME_STATUS_steps 0 1
      let d := if op = 2 then d.setFld F.TIME_STATUS_time_set 0 1 else d
      d.skipTo c.total

/-- TIME_ADJ_ADD (R335). -/
def execTimeAdjAdd (s : State) : Host.Outcome State Fault Refusal := done (s.adjust 0)

/-- TIME_ADJ_SUBTRACT (R335). -/
def execTimeAdjSubtract (s : State) : Host.Outcome State Fault Refusal := done (s.adjust 1)

/-- TIME_ADJ_SET (R335). -/
def execTimeAdjSet (s : State) : Host.Outcome State Fault Refusal := done (s.adjust 2)

end Sys2Proof.Machine
end

