-- ==== Sys2Proof/Machine/Hash.lean ====
section
/-!
DEFINITION. CRC-64 (R177) and SHA-256 (R57, R67).
-/
namespace Sys2Proof.Machine

/-- One bit of the CRC: the register shifted left, the polynomial added when its top bit left. -/
def crcBit (c : Nat) : Nat :=
  if c.testBit 63 then ((c * 2) ^^^ 0x42F0E1EBA9EA3693) % 2 ^ 64 else c * 2

/-- One byte of the CRC, most significant bit first. -/
def crcByte (c : Nat) (b : Byte) : Nat :=
  crcBit (crcBit (crcBit (crcBit (crcBit (crcBit (crcBit (crcBit (c ^^^ (b.toNat * 2 ^ 56)))))))))

/-- CRC-64 of bytes, continuing from `c` (R177). -/
def crc64From (c : Nat) (bs : Bytes) : Nat := bs.foldl crcByte c

/-- CRC-64 of bytes (R177). -/
def crc64 (bs : Bytes) : Nat := crc64From 0 bs

/-! ### SHA-256

The manual names the function only (R57, R67, R438, R443, R445).  Its constants are computed here from what they
are: 32 fraction bits of the cube roots and the square roots of the first primes. -/

/-- The largest `r` below 2^36 with r ^ d at most `n`, found bit by bit from the top. -/
def rootFloor (d n : Nat) : Nat :=
  (List.range 36).foldl (fun r i => if (r + 2 ^ (35 - i)) ^ d ≤ n then r + 2 ^ (35 - i) else r) 0

/-- 32 bits of the fraction of the `d`-th root of `p`. -/
def rootFraction (d p : Nat) : Nat := rootFloor d (p * 2 ^ (32 * d)) % 2 ^ 32

/-- The first 64 primes: the numbers below 312 that no number from 2 to 17 divides but themselves. -/
def shaPrimes : List Nat :=
  (List.range 312).filter fun n => decide (2 ≤ n) && (List.range 18).all fun m => m < 2 || m = n || n % m ≠ 0

/-- A 32-bit word turned right by `n` places. -/
def turn (n x : Nat) : Nat := x / 2 ^ n + x % 2 ^ n * 2 ^ (32 - n)

/-- Three words added without carry. -/
def xor3 (x y z : Nat) : Nat := x ^^^ y ^^^ z

/-- The working words as the last four values of the two words that a round makes, the latest first. -/
structure ShaWords where
  near : List Nat
  far : List Nat
deriving DecidableEq, Repr

/-- A round with `x`, the sum of its constant and its schedule word: both new words take the mix of the far side;
the near one its own mix as well, the far one the oldest near word. -/
def ShaWords.round (v : ShaWords) (x : Nat) : ShaWords :=
  match v.near, v.far with
  | [n0, n1, n2, n3], [f0, f1, f2, f3] =>
    let mixed := f3 + x + xor3 (turn 6 f0) (turn 11 f0) (turn 25 f0) + (f2 ^^^ (f0 &&& (f1 ^^^ f2)))
    let own := xor3 (turn 2 n0) (turn 13 n0) (turn 22 n0) + ((n0 &&& (n1 ||| n2)) ||| (n1 &&& n2))
    { near := [(mixed + own) % 2 ^ 32, n0, n1, n2], far := [(n3 + mixed) % 2 ^ 32, f0, f1, f2] }
  | _, _ => v

/-- The schedule as a window of sixteen words that moves on by one. -/
def shaMove (w : List Nat) : List Nat :=
  match w with
  | w0 :: rest =>
    let early := rest.getD 0 0
    let late := rest.getD 13 0
    let next := w0 + xor3 (turn 7 early) (turn 18 early) (early / 2 ^ 3) + rest.getD 8 0
      + xor3 (turn 17 late) (turn 19 late) (late / 2 ^ 10)
    rest ++ [next % 2 ^ 32]
  | [] => []

/-- The rounds of a block over the primes whose cube roots give their constants. -/
def shaRounds : List Nat → List Nat → ShaWords → ShaWords
  | [], _, v => v
  | p :: ps, w, v => shaRounds ps (shaMove w) (v.round (rootFraction 3 p + w.headD 0))

/-- The low `n` bytes of a number, most significant first. -/
def beBytes (n x : Nat) : Bytes := (leBytes n x).reverse

/-- The sixteen words of a block of 64 bytes, most significant byte first. -/
def shaWordsOf (blk : Bytes) : List Nat :=
  (List.range 16).map fun i => leNat ((blk.drop (4 * i)).take 4).reverse

/-- A block taken into the hash value. -/
def shaAbsorb (v : ShaWords) (blk : Bytes) : ShaWords :=
  let r := shaRounds shaPrimes (shaWordsOf blk) v
  let add (x y : List Nat) : List Nat := (x.zip y).map fun q => (q.1 + q.2) % 2 ^ 32
  { near := add v.near r.near, far := add v.far r.far }

/-- The hash value before the first block: square roots of the first eight primes. -/
def shaStart : ShaWords :=
  let h := (shaPrimes.take 8).map (rootFraction 2)
  { near := h.take 4, far := h.drop 4 }

/-- The message closed by a 1 bit, zeros and its length in bits, to whole blocks. -/
def shaClosed (bs : Bytes) : Bytes :=
  bs ++ 0x80 :: List.replicate ((119 - bs.length % 64) % 64) 0 ++ beBytes 8 (8 * bs.length)

/-- SHA-256 of bytes: 32 bytes. -/
def sha256 (bs : Bytes) : Bytes :=
  let m := shaClosed bs
  let v := (List.range (m.length / 64)).foldl (fun v i => shaAbsorb v ((m.drop (64 * i)).take 64)) shaStart
  (v.near ++ v.far).flatMap (beBytes 4)

end Sys2Proof.Machine
end

