-- ==== Sys2Proof/Machine/Units.lean ====
section
/-!
DEFINITION. The scores of the health units (R386, R387).
-/
namespace Sys2Proof.Machine

/-- Unit numbers (R386). -/
def vaultUnit (p : Nat) : Nat := 288 + p
def jasperUnit (k e : Nat) : Nat := 576 + 3 * k + e
def lanternUnit (k l : Nat) : Nat := 672 + 2 * k + l
def clmUnit (k : Nat) : Nat := 736 + k
def ethUnit (port ser : Nat) : Nat := 768 + 6 * port + ser
def clinkUnit (c ser : Nat) : Nat := 816 + 9 * c + ser

/-- A unit's score lowered, not below 0. -/
def State.scoreDown (s : State) (u n : Nat) : State := s.lower F.HLTH_UNIT_score u n

/-- A unit's score raised, not above 255; one that rises above retire_threshold clears the unit's flag
(R390). -/
def State.scoreUp (s : State) (u n : Nat) : State :=
  let s := s.count F.HLTH_UNIT_score u n
  if s.fld F.HLTH_CFG_retire_threshold 0 < s.fld F.HLTH_UNIT_score u then s.setFld F.HLTH_UNIT_flagged u 0 else s

/-- The hour of the health clock, which counts time-clock cycles. -/
def State.hour (s : State) : Nat := s.time.clk / 3600000000000

/-- A corrected error: one off the score, at most 16 times per unit per hour. -/
def State.correctedError (s : State) (u : Nat) : State :=
  let v := look 0 s.corrected u
  let k := if v / 32 = s.hour then v % 32 else 0
  if 16 ≤ k then s
  else { s.scoreDown u 1 with corrected := put 0 s.corrected u (s.hour * 32 + k + 1) }

/-- A full pass of a unit scheduled ahead of Vigil's rotation (R397). -/
def State.passAhead (s : State) (u : Nat) : State :=
  if s.health.ahead.contains u then s else { s with health := { s.health with ahead := s.health.ahead ++ [u] } }

/-- A parity or residue fault found in use (R387), of a unit other than a Jasper engine (R397). -/
def State.useFault (s : State) (u : Nat) : State :=
  ((s.count F.HLTH_UNIT_use_faults u 1).scoreDown u 32).passAhead u

/-- An uncorrectable memory error. -/
def State.uncorrectable (s : State) (u : Nat) : State := s.scoreDown u 16

/-- The cluster in which a unit lies. -/
def clusterOf (u : Nat) : Option Nat :=
  if u < 288 then some (u / 9)
  else if u < 576 then some ((u - 288) / 9)
  else if u < 672 then some ((u - 576) / 3)
  else if u < 736 then some ((u - 672) / 2)
  else if u < 768 then some (u - 736)
  else none

/-- Whether a cluster has a radio core. -/
def State.radioCluster (s : State) (k : Nat) : Bool := (List.range 8).any fun j => s.isRadio (8 * k + j)

/-- A health event of a unit (R383): messages go when the bit becomes 1. -/
def State.healthEvent (s : State) (f : Fld) (u : Nat) : State :=
  let was := s.fld f 0
  let s := (s.setFld f 0 1).setFld F.HLTH_EVENT_last_unit 0 u
  if was = 1 then s
  else
    let s := s.message 0 3
    if (clusterOf u).any s.radioCluster ∨ (768 ≤ u ∧ u < 816) then s.message 1 3 else s

end Sys2Proof.Machine
end

