-- ==== Sys2Proof/Machine/Operands.lean ====
section
/-!
DEFINITION. Every operand form that commands carry: the fields of a command (R78), the descriptor (R90),
buffer and tensor entries (R150 to R158), and the reach of a context into memory (R89, R194 to R199).
-/
namespace Sys2Proof.Machine

/-- The shared error codes (R100). -/
def eOob : Nat := 1
def eLen : Nat := 2
def eStride : Nat := 3
def eFmt : Nat := 4
def ePoison : Nat := 5
def ePerm : Nat := 6
def eAlign : Nat := 7
def eOverrun : Nat := 8
def eOpcode : Nat := 9
def eTimeout : Nat := 10

/-- A failed check: the code, and the detail of R102. -/
abbrev Fail := Nat × Nat

/-! ### The command (R78) -/

/-- The `w` bits of a command from bit `lo`. -/
def QCmd.f (c : QCmd) (lo w : Nat) : Nat := bits c.raw.toNat lo w

/-- The `w` bits of its payload from payload bit `lo`. -/
def QCmd.pay (c : QCmd) (lo w : Nat) : Nat := bits c.raw.toNat (128 + lo) w

def QCmd.opcode (c : QCmd) : Nat := c.f 0 8
def QCmd.engine (c : QCmd) : Nat := c.f 8 2
def QCmd.waitId (c : QCmd) : Nat := c.f 10 15
def QCmd.signalId (c : QCmd) : Nat := c.f 25 15
def QCmd.waitEn (c : QCmd) : Bool := c.f 40 1 = 1
def QCmd.sigEn (c : QCmd) : Bool := c.f 41 1 = 1
def QCmd.sigSet (c : QCmd) : Bool := c.f 42 1 = 1
def QCmd.fence (c : QCmd) : Bool := c.f 43 1 = 1
def QCmd.digest (c : QCmd) : Bool := c.f 44 1 = 1
def QCmd.reserved (c : QCmd) : Nat := c.f 45 3
def QCmd.tag (c : QCmd) : Nat := c.f 48 16
def QCmd.waitValue (c : QCmd) : Nat := c.f 64 32
def QCmd.signalValue (c : QCmd) : Nat := c.f 96 32

/-- A Control SIGNAL, WAIT or BARRIER (R86). -/
def QCmd.isSignal (c : QCmd) : Bool := c.engine = 3 ∧ c.opcode = 1
def QCmd.isWait (c : QCmd) : Bool := c.engine = 3 ∧ c.opcode = 2
def QCmd.isBarrier (c : QCmd) : Bool := c.engine = 3 ∧ c.opcode = 5

/-- An entry of SIGNAL or WAIT (R86): object, enable, set, value. -/
structure CtlEntry where
  id : Nat
  enable : Bool
  set : Bool
  value : Nat
deriving DecidableEq, Repr

/-- Entry `k` (0 or 1) of a SIGNAL or WAIT payload. -/
def QCmd.entry (c : QCmd) (k : Nat) : CtlEntry :=
  { id := c.pay (64 * k) 15, enable := c.pay (64 * k + 15) 1 = 1, set := c.pay (64 * k + 16) 1 = 1,
    value := c.pay (64 * k + 32) 32 }

/-! ### Descriptors (R90) -/

/-- The fields of a 64-byte descriptor; `rest` gathers the reserved bits that no other field holds. -/
def Desc.ofBytes (b : Bytes) : Desc :=
  { kind := leAt b 0 1, flags := leAt b 1 1, target := leAt b 2 2, count := leAt b 4 4,
    listAddr := leAt b 8 8, doneAddr := leAt b 0x10 8, tag := leAt b 0x18 4, doneSync := leAt b 0x1C 2,
    doneValue := leAt b 0x20 4, bufCount := leAt b 0x24 4, bufTable := leAt b 0x28 8,
    rest := leAt b 0x1E 2 + leAt b 0x30 16 }

def Desc.listHost (d : Desc) : Bool := bits d.flags 0 1 = 1
def Desc.irqDone (d : Desc) : Bool := bits d.flags 1 1 = 1
def Desc.serial (d : Desc) : Bool := bits d.flags 2 1 = 1
def Desc.core (d : Desc) : Nat := bits d.target 0 8
def Desc.cmds (d : Desc) : Nat := bits d.count 0 24
def Desc.bufs (d : Desc) : Nat := bits d.bufCount 0 13
def Desc.syncId (d : Desc) : Nat := bits d.doneSync 0 15
def Desc.syncEn (d : Desc) : Bool := bits d.doneSync 15 1 = 1

/-- Whether a reserved bit of the descriptor is set. -/
def Desc.reservedSet (d : Desc) : Bool :=
  d.kind ≠ 1 || bits d.flags 3 5 ≠ 0 || bits d.target 8 8 ≠ 0 || bits d.count 24 8 ≠ 0
    || bits d.bufCount 13 19 ≠ 0 || d.rest ≠ 0

/-! ### Reach (R89, R194 to R199) -/

/-- Whether a synchronisation object may be used by an owner (R82). -/
def State.permitted (s : State) (n owner : Nat) : Bool := s.fld F.SYNC_OBJ_owner n = owner

/-- Whether ranges (base, length) together cover every byte from `lo` to `hi`; `fuel` bounds the walk. -/
def covered (rs : List (Nat × Nat)) : Nat → Nat → Nat → Bool
  | 0, lo, hi => decide (hi ≤ lo)
  | fuel + 1, lo, hi =>
    if hi ≤ lo then true
    else match rs.find? fun r => decide (r.1 ≤ lo) && decide (lo < r.1 + r.2) with
      | some r => covered rs fuel (r.1 + r.2) hi
      | none => false

/-- Granules that a scratchpad or cluster-memory range `[off, off + len)` touches. -/
def granules (off len : Nat) : List Nat :=
  if len = 0 then [] else (List.range ((off + len - 1) / 0x10000 - off / 0x10000 + 1)).map fun i => off / 0x10000 + i

/-- A list of granules as a mask. -/
def maskOf (gs : List Nat) : Nat := gs.foldl (fun m g => m ||| 2 ^ g) 0

/-- The granules of a context slot (CORE_SPM_OWNER); slot 0 shows the radio granules (R194). -/
def State.owned (s : State) (p slot : Nat) : Nat :=
  if slot = 0 then
    match s.logicalOf p with
    | some n => if s.isRadio n then s.radioGranules n else 0
    | none => 0
  else s.fld F.CORE_SPM_OWNER_granules (p * 4 + slot)

/-- The slot of a core whose rental context owns granule `g`: an evicted context owns none until its restore
claims them (R204). -/
def State.granuleSlot (s : State) (p g : Nat) : Option Nat :=
  [1, 2, 3].find? fun sl =>
    bitOf (s.owned p sl) g && match s.ctx p sl with
      | some x => !x.evicted || (s.core p).evict.any fun e => e.restore && decide (e.slot = sl)
      | none => true

/-- The vault pages of a slice (R199, R200): whether a slice may read or write page `pg` of core `n`. -/
def State.pageAllows (s : State) (p sl pg : Nat) (write : Bool) : Bool :=
  let i := p * 576 + pg
  let o := s.fld F.CORE_VAULT_PAGE_owner i
  o = sl || o = 0x1FF
    || (if write then s.fld F.CORE_VAULT_PAGE_others_wr i = 1 else s.fld F.CORE_VAULT_PAGE_others_rd i = 1)

/-- Whether a vault range lies in the partition range of partition `q` on a member core (R199). -/
def State.inPartition (s : State) (q n off len : Nat) : Bool :=
  s.isMember q n && decide (s.cutBits 5 q 32 16 * 0x200000 ≤ off)
    && decide (off + len ≤ (s.cutBits 5 q 32 16 + s.cutBits 5 q 48 16) * 0x200000)

/-- Whether page `pg` of the vault of physical core `p` lies in the partition range of a partition: other page entries
have no effect (R200). -/
def State.pageInRange (s : State) (p pg : Nat) : Bool :=
  (s.logicalOf p).any fun n => (s.partitionAt n).any fun q =>
    decide (s.cutBits 5 q 32 16 ≤ pg) && decide (pg < s.cutBits 5 q 32 16 + s.cutBits 5 q 48 16)

/-- The radio granules of cluster memory `k`: those below clm_radio (R197). -/
def State.clmRadio (s : State) (k : Nat) : Nat := s.cutBits 3 k 40 8 * 0x10000

/-- The parts of a range of `len` bytes at offset `o` of a space of memories of `unit` bytes each: memory, offset in
it and length. -/
def splitRange (unit o len : Nat) : List (Nat × Nat × Nat) :=
  (List.range (if len = 0 then 0 else (o + len - 1) / unit - o / unit + 1)).map fun i =>
    let m := o / unit + i
    let lo := max o (m * unit)
    let hi := min (o + len) ((m + 1) * unit)
    (m, lo - m * unit, hi - lo)

/-- The parts of a range of scratchpads: logical core, offset and length (R29). -/
def spmParts (a len : Nat) : List (Nat × Nat × Nat) := splitRange 0x400000 (a - 0x10000000000) len

/-- The parts of a range of cluster memories: cluster, offset and length (R29). -/
def clmParts (a len : Nat) : List (Nat × Nat × Nat) := splitRange 0x800000 (a - 0x10100000000) len

/-- Whether the context of `owner` on logical core `n` may reach a part of the scratchpad of core `m` (R194, R195):
the radio function the radio granules of a radio core; a rental context every other granule of its own scratchpad,
whose claim its engines make, and the granules of its slice's contexts in any other. -/
def State.reachSpm (s : State) (owner n m off len : Nat) : Bool :=
  match s.physOf m with
  | none => false
  | some p =>
    if owner = 256 then s.isRadio m && (granules off len).all fun g => bitOf (s.radioGranules m) g
    else if m = n then (granules off len).all fun g => !bitOf (s.radioGranules m) g
    else (granules off len).all fun g =>
      match s.granuleSlot p g with
      | some sl => (s.ctx p sl).any fun x => x.owner = owner
      | none => false

/-- Whether it may reach a part of the memory of cluster `k` (R197, R198). -/
def State.reachClm (s : State) (owner n k off len : Nat) : Bool :=
  if owner = 256 then decide (k = n / 8) && decide (off + len ≤ s.clmRadio k)
  else decide (s.clmRadio k ≤ off) && (granules off len).all fun g =>
    let o := s.fld F.CLU_CLM_GRANULE_owner (k * 128 + g)
    o = owner || o = 0x1FF

/-- Whether the context of `owner` on logical core `n` may reach `[a, a + len)`; the range lies in no
reserved place (R89, R194, R195, R197, R198, R199, R200), and it may run on from one scratchpad or cluster memory
into the next.  No memory of an unmapped core is in reach (R23). -/
def State.mayReach (s : State) (owner n a len : Nat) (write : Bool) : Bool :=
  if len = 0 then true
  else match locate a with
    | .vault m off =>
      if owner = 256 then
        (s.physOf m).isSome && s.isRadio m && covered (s.regions 2 m ++ s.regions 3 m) 4096 off (off + len)
      else match s.partitionOf owner, s.physOf m with
        | some q, some p =>
          s.inPartition q m off len
            && (List.range ((off + len - 1) / 0x200000 - off / 0x200000 + 1)).all fun i =>
                s.pageAllows p owner (off / 0x200000 + i) write
        | _, _ => false
    | .spm _ _ => (spmParts a len).all fun (m, off, l) => s.reachSpm owner n m off l
    | .clm _ _ => (clmParts a len).all fun (k, off, l) => s.reachClm owner n k off l
    | .reserved => false

/-- Whether no context of another slice owns a granule of a part of core `n`'s own scratchpad (R194). -/
def State.ownGranules (s : State) (owner n off len : Nat) : Bool :=
  (s.physOf n).all fun p => (granules off len).all fun g =>
    match s.granuleSlot p g with
    | some sl => (s.ctx p sl).any fun x => x.owner = owner
    | none => true

/-- Whether a context of `owner` on core `n` may reach a device address that it names in no buffer (R89): as
`mayReach`; in its own scratchpad a granule of another slice's context is outside its reach, and a free granule is
used without a claim, since R194 claims for buffers (DESIGN CHOICE, log entry 155). -/
def State.mayName (s : State) (owner n a len : Nat) (write : Bool) : Bool :=
  s.mayReach owner n a len write && match locate a with
    | .spm _ _ => owner = 256 || (spmParts a len).all fun (m, off, l) => m ≠ n || s.ownGranules owner n off l
    | _ => true

/-- The checks of a device address in a Control payload or an ODIGEST (R89): reserved, then reach, then
alignment. -/
def State.addressCheck (s : State) (owner n a len align : Nat) (write : Bool) : Except Fail Unit :=
  if touchesReserved a len then .error (eOob, 0)
  else if !s.mayName owner n a len write then .error (ePerm, 0)
  else if a % align ≠ 0 then .error (eAlign, 0)
  else .ok ()

/-! ### Requests that wait (R22, R189) -/

/-- The bank of a vault offset: pseudo-channel * 16 + bank (R182). -/
def vaultBank (off : Nat) : Nat := bits off 6 3 * 16 + (bits off 9 4 ^^^ bits off 18 4)

/-- Whether a bank's row is being copied: its requests are held (R189). -/
def VaultSpares.copying (v : VaultSpares) (bank : Nat) : Bool := v.rowCopies.head?.any fun c => c.bank = bank

/-- Whether a physical core has left service and its spare is not yet installed: requests to it are held
(R22, R392). -/
def State.coreDown (s : State) (p : Nat) : Bool := decide (3 ≤ s.fld F.HLTH_UNIT_state p)

/-- Whether a request to a vault line waits: for the spare of its core (R22), or for the end of a row copy (R189). -/
def State.vaultWaits (s : State) (p off : Nat) : Bool := s.coreDown p || (s.core p).spares.copying (vaultBank off)

/-- Whether a logical core has been retired hard and its spare is not yet there: requests to it are held (R22). -/
def State.logicalDown (s : State) (m : Nat) : Bool := (s.physOf m).any s.coreDown

/-- Whether requests to some line of a range of device addresses are held (R22, R189). -/
def State.rangeHeld (s : State) (a len : Nat) : Bool :=
  len ≠ 0 && match locate a with
  | .vault m off => (s.physOf m).any fun p => s.coreDown p
      || ((s.core p).spares.rowCopies ≠ []
        && (List.range ((off + len + 63) / 64 - off / 64)).any fun i =>
          (s.core p).spares.copying (vaultBank ((off / 64 + i) * 64)))
  | .spm _ _ => (spmParts a len).any fun x => s.logicalDown x.1
  | _ => false

/-- The logical cores whose memories a range of device addresses lies in. -/
def coresAt (a len : Nat) : List Nat :=
  match locate a with
  | .vault m _ => [m]
  | .spm _ _ => (spmParts a len).map (·.1)
  | _ => []

/-- Whether a range lies in the memory of a logical core that has no physical one: requests to it fail (R23). -/
def State.rangeLost (s : State) (a len : Nat) : Bool := (coresAt a len).any fun m => (s.physOf m).isNone

/-! ### Buffer-descriptor table (R150 to R153) -/

/-- The 64 bytes of an entry of the table (R150); a poisoned line ends the decode, and its address goes with the code
(`State.failCmd`), and so does a table whose core has been unmapped (R23). -/
def State.tableEntry (s : State) (base i : Nat) : Except Fail Bytes :=
  let a := base + 64 * i
  if s.rangeLost a 64 then .error (ePerm, 0)
  else if s.anyPoison a 64 then .error (ePoison, a) else .ok (s.bytesAt a 64)

/-- A buffer entry; `code` is the engine's code for an index at or above the count, with the index as its detail unless
the code is ERR_OPCODE, which has none (R102). -/
def State.bufEntry (s : State) (base count i code : Nat) : Except Fail Buf := do
  if count ≤ i then .error (code, if code = eOpcode then 0 else i)
  let b ← s.tableEntry base i
  let k := leAt b 0 1
  if k ≠ 1 ∧ k ≠ 2 then .error (eOpcode, 0)
  if bits (leAt b 1 1) 2 6 ≠ 0 ∨ leAt b 2 6 ≠ 0 ∨ leAt b 0x18 40 ≠ 0 ∨ bits (leAt b 0x10 8) 40 24 ≠ 0
      ∨ (k = 1 ∧ bits (leAt b 8 8) 44 20 ≠ 0) then .error (eOpcode, 0)
  return { index := i, host := k = 2, rd := bitOf (leAt b 1 1) 0, wr := bitOf (leAt b 1 1) 1,
           base := if k = 1 then bits (leAt b 8 8) 0 44 else leAt b 8 8, length := bits (leAt b 0x10 8) 0 40 }

/-- A tensor entry with its buffer entry (R153). -/
def State.tensorEntry (s : State) (base count i : Nat) : Except Fail Tensor := do
  if count ≤ i then .error (eOpcode, 0)
  let b ← s.tableEntry base i
  if leAt b 0 1 ≠ 3 then .error (eOpcode, 0)
  let nd := leAt b 2 1
  if nd = 0 ∨ 5 < nd then .error (eOpcode, 0)
  if leAt b 3 1 ≠ 0 ∨ bits (leAt b 4 2) 12 4 ≠ 0 ∨ leAt b 6 2 ≠ 0 ∨ bits (leAt b 8 8) 40 24 ≠ 0
      ∨ leAt b 0x3D 3 ≠ 0 then .error (eOpcode, 0)
  let buf ← s.bufEntry base count (bits (leAt b 4 2) 0 12) eOpcode
  return { index := i, fmt := leAt b 1 1, ndim := nd, buf := buf, offset := bits (leAt b 8 8) 0 40,
           extent := (List.range 5).map fun d => if d < nd then leAt b (0x10 + 4 * d) 4 else 1,
           stride := (List.range 5).map fun d =>
             if d < nd then toSigned 40 (leAt b (0x24 + 5 * d) 5) else 0 }

/-- A buffer entry that a command names: as it was read at the command's decode, once that has been made (R150). -/
def State.planBuf (s : State) (c : QCmd) (base count i code : Nat) : Except Fail Buf :=
  match c.plan.bind fun d => d.bufs.find? fun b => b.index = i with
  | some b => .ok b
  | none => s.bufEntry base count i code

/-- A tensor entry that a command names, likewise. -/
def State.planTensor (s : State) (c : QCmd) (base count i : Nat) : Except Fail Tensor :=
  match c.plan.bind fun d => d.tensors.find? fun t => t.index = i with
  | some t => .ok t
  | none => s.tensorEntry base count i

/-- The check of a buffer against reserved ranges (R30, R152). -/
def Buf.reservedCheck (b : Buf) : Except Fail Unit :=
  if !b.host && touchesReserved b.base b.length then .error (eOob, b.index) else .ok ()

/-- The check of a buffer against the context's reach and its access bits (R152). -/
def State.bufPerm (s : State) (owner n : Nat) (b : Buf) (write : Bool) : Except Fail Unit :=
  if (if write then !b.wr else !b.rd) then .error (ePerm, 0)
  else if b.host then .ok ()
  else if s.mayReach owner n b.base b.length write then .ok ()
  else .error (ePerm, 0)

/-- The granules of cluster memories that a range covers, as cluster * 128 + granule (R198). -/
def clmGranules (a len : Nat) : List Nat :=
  (clmParts a len).flatMap fun (k, off, l) => (granules off l).map fun g => k * 128 + g

/-- The rental granules of the core's own scratchpad, and those of cluster memories as
cluster * 128 + granule, that device buffers cover (R194, R198). -/
def claimSets (n : Nat) (bs : List Buf) : List Nat × List Nat :=
  bs.foldl (fun (own, clm) b =>
    if b.host ∨ b.length = 0 then (own, clm)
    else match locate b.base with
      | .spm _ _ => (own ++ ((spmParts b.base b.length).filter fun x => x.1 = n).flatMap fun (_, off, l) =>
          granules off l, clm)
      | .clm _ _ => (own, clm ++ clmGranules b.base b.length)
      | _ => (own, clm)) ([], [])

/-- The granules of cluster memories that an address named in no buffer covers (R198). -/
def clmNamed (a len : Nat) : List Nat := match locate a with | .clm _ _ => clmGranules a len | _ => []

/-- Whether every granule that a command needs is free or its own (R194, R198). -/
def State.claimable (s : State) (p slot owner : Nat) (own clm : List Nat) : Bool :=
  own.all (fun g =>
    !bitOf (s.core p).zeroing g && match s.granuleSlot p g with
      | some sl => decide (sl = slot)
      | none => true)
  && clm.all fun i =>
    let o := s.fld F.CLU_CLM_GRANULE_owner i
    s.fld F.CLU_CLM_GRANULE_zeroing i = 0 && (o = owner || o = 0x1FF)

/-- The claim itself (R194, R198). -/
def State.claimAll (s : State) (p slot owner : Nat) (own clm : List Nat) : State :=
  let i := p * 4 + slot
  let s := s.setFld F.CORE_SPM_OWNER_granules i (s.fld F.CORE_SPM_OWNER_granules i ||| maskOf own)
  clm.foldl (fun s g => s.setFld F.CLU_CLM_GRANULE_owner g owner) s

/-- The Lamplighter that serves a slice: that of the die of its partition's lowest core (R15). -/
def State.lampDie (s : State) (sl : Nat) : Nat :=
  match s.partitionOf sl with
  | some q => (s.members q).headD 0 / 128
  | none => 0

end Sys2Proof.Machine
end

