-- ==== Sys2Proof/Machine/SaveArea.lean ====
section
/-!
DEFINITION. What engines leave in memory on behalf of a context: the Opal write transactions in flight, and the
save area of R202 with the Garnet banks (R125), the Beryl state (R261, R262) and the context record (R203).
-/
namespace Sys2Proof.Machine

/-! ### Write transactions of Opal (R161) -/

/-- The write transactions of a command that have been issued: its reads are issued first. -/
def QCmd.issued (c : QCmd) : List (List LineOut) := c.todo.take (c.inFlight - c.readsLeft)

/-- An add that waits for its turn at the home of its line (R173): it travels by itself. -/
def LineOut.ordered (l : LineOut) : Option OrdAdd := l.add.filter fun a => decide (1 < a.contribs)

/-! ### Beryl registers (R239) -/

/-- Keys of the registers of a bank: C by physical number, then A, K, S, P, N, ML, LC, VRB, STAT, PC. -/
def kA (i : Nat) : Nat := 64 + i
def kK (i : Nat) : Nat := 72 + i
def kS (i : Nat) : Nat := 80 + i
def kP (i : Nat) : Nat := 96 + i
def kN (i : Nat) : Nat := 112 + i
def kML (i : Nat) : Nat := 128 + i
def kLC (i : Nat) : Nat := 144 + i
def kVRB : Nat := 148
def kSTAT : Nat := 149
def kPC : Nat := 150

/-- The value of a register. -/
def BerylBank.get (b : BerylBank) (k : Nat) : Nat := look 0 b.regs k

/-- The bank with a register written. -/
def BerylBank.set (b : BerylBank) (k v : Nat) : BerylBank := { b with regs := put 0 b.regs k v }

/-- Bytes of the radio part of a Beryl memory (0 X, 1 Y, 2 I), from offset 0; empty on a rental core (R236). -/
def State.berylRadio (s : State) (p m : Nat) : Nat :=
  match s.logicalOf p with
  | some n => if s.isRadio n then s.cutBits 2 n (80 + 8 * m) 8 * 4096 else 0
  | none => 0

/-- Whether a byte of the Beryl memories, under memory * 2^20 + byte, belongs to the rental part. -/
def State.berylRental (s : State) (p key : Nat) : Bool := decide (s.berylRadio p (key / 2 ^ 20) ≤ key % 2 ^ 20)

/-- Beryl without what the rental context held: bank 1 zero, no valid block, no byte of the rental part
(R237, R261, R263). -/
def State.berylCleared (s : State) (p : Nat) (b : BerylCore) : BerylCore :=
  { b with bank1 := BerylBank.init, valid := 0
           mem := b.mem.filter fun e => !s.berylRental p e.1
           tags := b.tags.filter fun e => !s.berylRental p (e.1 * 64) }

/-- Beryl without what the radio context held: bank 0 zero, no byte of the radio part, so that no value of one
context reaches another (R263). -/
def State.berylRadioCleared (s : State) (p : Nat) (b : BerylCore) : BerylCore :=
  { b with bank0 := BerylBank.init
           mem := b.mem.filter fun e => s.berylRental p e.1
           tags := b.tags.filter fun e => s.berylRental p (e.1 * 64) }

/-- Beryl of a core whose radio parts were those of `old`: bytes that have changed side are gone, with the valid bits of
their blocks (R236, R263). -/
def State.berylResized (s old : State) (p : Nat) (b : BerylCore) : BerylCore :=
  [0, 1, 2].foldl (fun (b : BerylCore) m =>
    let lo := min (old.berylRadio p m) (s.berylRadio p m)
    let n := max (old.berylRadio p m) (s.berylRadio p m) - lo
    if n = 0 then b
    else
      let blocks := (List.range (n / 4096)).map fun i => 32 * m + lo / 4096 + i
      { b with mem := dropRange b.mem (m * 2 ^ 20 + lo) n
               tags := dropRange b.tags ((m * 2 ^ 20 + lo) / 64) (n / 64)
               valid := b.valid - (b.valid &&& maskOf blocks) }) b

/-! ### The save area (R202) -/

/-- The offset of the save area of a slot in the vault (R202). -/
def saveArea (slot : Nat) : Nat := 0x44000000 + slot * 0x1000000

/-- Offsets in the area of the Garnet banks and of the Beryl state (R202). -/
def bankArea : Nat := 0x4000
def berylArea : Nat := 0x14000

/-- An entry of the loop stack in 16 bytes (R262; the order of its fields is the model's, DESIGN CHOICE, log entry
11): flags, first bundle, body, count and iteration. -/
def BerylLoop.bytes (l : BerylLoop) : Bytes :=
  leBytes 1 (128 + l.lc + (if l.rot then 4 else 0) + 8 * (l.sc - 1)) ++ leBytes 2 l.first ++ leBytes 2 l.body
    ++ leBytes 5 l.count ++ leBytes 5 l.iter ++ leBytes 1 0

/-- The entry that 16 bytes hold, none where it is empty. -/
def BerylLoop.ofBytes (b : Bytes) : Option BerylLoop :=
  let f := leAt b 0 1
  if f < 128 then none
  else some { lc := f % 4, rot := bitOf f 2, sc := bits f 3 2 + 1, count := leAt b 5 5, first := leAt b 1 2,
              body := leAt b 3 2, iter := leAt b 10 5 }

/-- A window in 16 bytes: base, length, the buffer's index and access (R262; the places inside are the model's, log
entry 11). -/
def winBytes : Option BerylWin → Bytes
  | none => leBytes 16 0
  | some w => leBytes 8 w.base ++ leBytes 5 w.length ++ leBytes 2 w.index
      ++ leBytes 1 (128 + (if w.rd then 1 else 0) + (if w.wr then 2 else 0))

/-- The window that 16 bytes hold. -/
def winOf (b : Bytes) : Option BerylWin :=
  let f := leAt b 15 1
  if f < 128 then none else some { base := leAt b 0 8, length := leAt b 8 5, index := leAt b 13 2, rd := bitOf f 0, wr := bitOf f 1 }

/-- The registers of a bank that R262 keeps in one run: offset in the Beryl part, first key, number and bytes of
each. -/
def regRuns : List (Nat × Nat × Nat × Nat) :=
  [(0, 0, 64, 64), (0x1000, kA 0, 8, 160), (0x1500, kP 0, 48, 4), (0x15C0, kS 0, 16, 4), (0x1600, kK 0, 8, 8),
   (0x1640, kLC 0, 4, 4)]

/-- The bytes of a bank as R262 lays them out: (offset in the Beryl part, bytes). -/
def BerylBank.image (b : BerylBank) : List (Nat × Bytes) :=
  (regRuns.map fun (off, k, n, w) => (off, (List.range n).flatMap fun i => leBytes w (b.get (k + i))))
    ++ [(0x1650, (List.range 4).flatMap fun i => match b.loops[i]? with
          | some l => l.bytes
          | none => leBytes 16 0),
        (0x1700, (List.range 8).flatMap fun i => winBytes (b.windows.getD i none)),
        (0x1780, leBytes 4 (b.get kPC) ++ leBytes 2 (b.get kVRB) ++ leBytes 2 (b.get kSTAT)
          ++ leBytes 1 (if b.poison then 1 else 0) ++ leBytes 1 (if b.running then 1 else 0) ++ leBytes 6 0)]

/-- The bank that bytes laid out so hold; the command that it runs, with the events seen and the stores digested of
it, comes from the record, as it was saved in `kept`. -/
def BerylBank.ofImage (at_ : Nat → Nat → Bytes) (kept : BerylBank) : BerylBank :=
  let n (off len : Nat) : Nat := leNat (at_ off len)
  let regs := regRuns.foldl (fun m (off, k, cnt, w) =>
    (List.range cnt).foldl (fun m i => put 0 m (k + i) (n (off + w * i) w)) m) []
  let regs := put 0 (put 0 (put 0 regs kPC (n 0x1780 4)) kVRB (n 0x1784 2)) kSTAT (n 0x1786 2)
  { regs := regs
    loops := (List.range 4).filterMap fun i => BerylLoop.ofBytes (at_ (0x1650 + 16 * i) 16)
    windows := (List.range 8).map fun i => winOf (at_ (0x1700 + 16 * i) 16)
    running := n 0x1789 1 % 2 = 1, seq := kept.seq, poison := n 0x1788 1 % 2 = 1, seen := kept.seen, crc := kept.crc,
    stored := kept.stored, tainted := kept.tainted }

/-- The key of block `i` of the Beryl memories by the number of its valid bit: X from 0, Y from 32, I from 64
(R237). -/
def blockKey (i : Nat) : Nat := i / 32 * 2 ^ 20 + i % 32 * 4096

/-- Its offset in the Beryl part (R262). -/
def blockOff (i : Nat) : Nat :=
  (if i < 32 then 0x2000 else if i < 64 then 0x22000 else 0x42000) + i % 32 * 4096

/-- The 8 KiB of registers that a switch moves (R261): the bytes that no run names are zero (DESIGN CHOICE, log entry
11). -/
def BerylBank.imageBytes (b : BerylBank) : Bytes :=
  let runs := b.image
  (List.range 0x2000).map fun i =>
    (runs.findSome? fun x => if x.1 ≤ i then x.2[i - x.1]? else none).getD 0

/-- The Beryl state of the rental context saved (R261, R262), in whole lines (R186): bank 1, the valid bits and each
valid block with the poison of its lines. -/
def State.saveBeryl (s : State) (a : Nat) (b : BerylCore) : State :=
  let s := s.writeMem a b.bank1.imageBytes false
  let s := s.writeMem (a + 0x52000) (leBytes 64 b.valid) false
  ((List.range 80).filter fun i => bitOf b.valid i).foldl (fun s i =>
    (List.range 64).foldl (fun s j =>
      let k := blockKey i + 64 * j
      s.writeMem (a + blockOff i + 64 * j) ((List.range 64).map fun q => look 0 b.mem (k + q))
        (look false b.tags (k / 64))) s) s

/-- The Beryl state restored: the bank, and the valid blocks that lie in the rental part, with their poison.  A
register line that arrives poisoned leaves the bank's poison flag set (R205, R260). -/
def State.loadBeryl (s : State) (p a : Nat) (kept : BerylBank) (b : BerylCore) : BerylCore :=
  let bank := BerylBank.ofImage (fun off len => s.bytesAt (a + off) len) kept
  let bank := if s.anyPoison a 0x2000 || s.anyPoison (a + 0x52000) 16 then { bank with poison := true } else bank
  let valid := leNat (s.bytesAt (a + 0x52000) 10)
  let blocks := (List.range 80).filter fun i => bitOf valid i && s.berylRental p (blockKey i)
  { b with
    bank1 := bank
    valid := maskOf blocks
    mem := blocks.foldl (fun m i => (List.range 4096).foldl (fun m q =>
      put 0 m (blockKey i + q) (s.byte (a + blockOff i + q))) m) b.mem
    tags := blocks.foldl (fun m i => (List.range 64).foldl (fun m j =>
      put false m (blockKey i / 64 + j) (s.poisoned (a + blockOff i + 64 * j))) m) b.tags }

/-- The bytes of Garnet banks in the save area, whose layout the manual does not give (log entry 11). -/
def bankImage (m : SMap BankHalf) : Bytes := (List.range 0x10000).map fun i => Config.bankByte m i

/-- The bytes of a context record, likewise. -/
def recordImage (x : Ctx) (nd head : Nat) (wrapped : Bool) : Bytes :=
  (List.range 0x4000).map fun i => Config.recordByte { x with record := [] } nd head wrapped i

/-- The runs of bytes that the Beryl part holds for given valid bits: offset in the part, and length (R261, R262). -/
def berylRuns (valid : Nat) : List (Nat × Nat) :=
  [(0, 0x2000), (0x52000, 16)]
    ++ ((List.range 80).filter fun i => bitOf valid i).map fun i => (blockOff i, 4096)

/-- Garnet banks restored (R125): those that were saved, unless the bytes have changed since; a poisoned line poisons
each (R205), and a bank saved poisoned stays so (R385). -/
def State.loadBanks (s : State) (a : Nat) (saved : SMap BankHalf) : SMap BankHalf :=
  if saved = [] then []
  else
    let b := s.bytesAt a 0x10000
    let m := if b = bankImage saved then saved else Config.bankBack b
    m.map fun e => (e.1, { e.2 with
      poison := e.2.poison || s.anyPoison a 0x10000 || (look BankHalf.init saved e.1).poison })

/-- The context that a record holds: as it was saved, with what has been accepted for it since, unless its bytes have
changed.  The queued commands of a record with a poisoned line have consumed it, and complete flagged (R186, R205, R385;
DESIGN CHOICE, log entry 11). -/
def State.loadRecord (s : State) (a : Nat) (x : Ctx) : Ctx :=
  let b := s.bytesAt a 0x4000
  let y := if b = x.record then x else Config.recordBack b x
  if s.anyPoison a 0x4000 then
    { y with queue := y.queue.map fun (c : QCmd) => if c.err = 0 then { c with err := ePoison } else c }
  else y

end Sys2Proof.Machine
end

