-- ==== Sys2Proof/Machine/Contexts.lean ====
section
/-!
DEFINITION. Contexts and their queues (chapter 4): what stands at a queue's head, broken objects, error
records, teardown, completion of commands and lists, credits, and the choice of the rental context
(R233, R351, R352).
-/
namespace Sys2Proof.Machine

/-! ### Queues -/

/-- The commands of one engine's queue, not yet completed, in order (R76). -/
def Ctx.queueOf (x : Ctx) (e : Nat) : List QCmd := x.queue.filter fun c => c.engine = e

/-- A command that has started ahead of its issue: decoded, its granules claimed, not yet issued (R121). -/
def QCmd.ahead (c : QCmd) : Bool := c.phase = .queued && c.plan.isSome && !c.claim

/-- The Garnet command that stands before issue: the first that has not issued, where it has started (R121). -/
def Ctx.issuing (x : Ctx) : Option QCmd :=
  ((x.queueOf 0).find? fun c => c.phase = .queued).bind fun c => if c.ahead then some c else none

/-- The command of an engine's queue that is next to start.  Garnet holds two started ahead of issue, the first that
has not issued and the one behind it (R121), which a GDCFG or GMODE precedes in its own cycles; Opal overlaps a
command with the next (R162); Beryl and Control take one at a time (R77, R86). -/
def Ctx.head (x : Ctx) (e : Nat) : Option QCmd :=
  let q := x.queueOf e
  if e = 0 then
    if x.issuing.any fun c => c.opcode = 4 || c.opcode = 5 then none
    else ((q.filter fun c => c.phase = .queued).take 2).find? fun c => !c.ahead
  else if e = 2 then q.find? fun c => c.phase = .queued
  else match q with
    | c :: _ => if c.phase = .queued then some c else none
    | [] => none

/-- A change of the command with sequence `seq`. -/
def Ctx.upd (x : Ctx) (seq : Nat) (f : QCmd → QCmd) : Ctx :=
  { x with queue := x.queue.map fun c => if c.seq = seq then f c else c }

/-- The command with sequence `seq`. -/
def Ctx.cmd (x : Ctx) (seq : Nat) : Option QCmd := x.queue.find? fun c => c.seq = seq

/-- A change of one command in a slot. -/
def State.onCmd (s : State) (p slot seq : Nat) (f : QCmd → QCmd) : State :=
  s.onCtx p slot fun x => x.upd seq f

/-- The list of a command. -/
def Ctx.listOf (x : Ctx) (c : QCmd) : Option CList := x.lists.find? fun l => l.no = c.list

/-- The tag of a command's list. -/
def Ctx.tagOf (x : Ctx) (c : QCmd) : Nat := match x.listOf c with | some l => l.desc.tag | none => 0

/-- Whether a command waits for every earlier command of its context: fence (R81), the first command of
a serial list (R91), HAND_BACK (R50). -/
def Ctx.fenced (x : Ctx) (c : QCmd) : Bool :=
  c.fence || (c.index = 0 && (x.listOf c).any fun l => l.desc.serial) || (c.engine = 3 ∧ c.opcode = 4)

/-- Whether that wait is over. -/
def Ctx.fenceOpen (x : Ctx) (c : QCmd) : Bool :=
  !x.fenced c || x.queue.all fun c' => decide (c.seq ≤ c'.seq)

/-- A new context (R74). -/
def Ctx.init (owner clk total : Nat) : Ctx :=
  { owner := owner, queue := [], lists := [], nextSeq := 0, nextList := 0, bufBase := 0, bufCount := 0,
    halfMode := false, drainSlots := [], tickHold := none, evicted := false, evictedAt := 0, savedGranules := 0,
    savedBanks := [], savedBeryl := none, record := [], idleSince := some clk, restoredAt := none,
    lastRan := 0, created := total, frozen := false, digestPos := 0 }

/-- The objects that a command would have signalled (R101). -/
def QCmd.signals (c : QCmd) : List Nat :=
  (if c.sigEn then [c.signalId] else [])
    ++ (if c.isSignal then ([0, 1].filter fun k => (c.entry k).enable).map fun k => (c.entry k).id else [])

/-- With those to which a BARRIER that has not started would have added (R100, R101); one of a device group adds to
object n of the root (R421), which is this device's own where it is the root. -/
def QCmd.breaks (c : QCmd) (root : Bool) : List Nat :=
  c.signals ++ (if c.isBarrier ∧ c.phase = .queued ∧ (c.pay 15 1 = 0 ∨ root) then [c.pay 0 15] else [])

/-- role of a port. -/
def State.role (s : State) (c : Nat) : Nat := s.fld F.CLINK_PORT_STATUS_role c

/-- The ports with role group, and the member that this device is. -/
def State.groupPorts (s : State) : List Nat := [0, 1].filter fun c => s.role c = 2
def State.ownMember (s : State) : Nat := s.fld F.CLINK_PORT_STATUS_member (s.groupPorts.headD 0)

/-- Whether this device is the root of its group (R420). -/
def State.isRoot (s : State) : Bool := decide (s.groupPorts ≠ []) && decide (s.ownMember = 0)

/-- The objects that a command discarded or skipped here leaves broken.  On a member that is not the root the object of
a group BARRIER lies on another device, to which no message of the manual brings that (DESIGN CHOICE, log entry 167). -/
def State.breaks (s : State) (c : QCmd) : List Nat := c.breaks s.isRoot

/-- R82: broken is set only on an object that the requester may use. -/
def State.breakObj (s : State) (owner n : Nat) : State :=
  if s.permitted n owner then s.setFld F.SYNC_OBJ_broken n 1 else s

/-- Several objects set broken. -/
def State.breakAll (s : State) (owner : Nat) (ns : List Nat) : State := ns.foldl (fun s n => s.breakObj owner n) s

/-- A signal on its way to its object (R80); `src` is the queue it comes from. -/
def State.send (s : State) (owner obj : Nat) (set : Bool) (value src : Nat) : State :=
  { s with signals := s.signals ++ [{ obj := obj, set := set, value := value, src := src, owner := owner }] }

/-- The number under which the order of R103 knows a queue. -/
def srcOf (p slot e : Nat) : Nat := (p * 4 + slot) * 8 + e

/-! ### Records -/

/-- An error record (R102): written and announced when the ring has room, else counted in err_lost; a
fenced slice gets none (R358). -/
def State.errRecord (s : State) (owner code action engine slot core opcode tag index detail : Nat) : State :=
  if owner < 256 ∧ (s.slice owner).fenced then s
  else
    let n := ringEntries (s.fld F.PORTAL_ERR_RING_size_code owner) 6
    let h := s.fld F.PORTAL_ERR_PTR_head owner
    if ringRoom h (s.fld F.PORTAL_ERR_PTR_tail owner) n then
      let record := leBytes 1 code ++ leBytes 1 action ++ leBytes 1 engine ++ leBytes 1 slot ++ leBytes 2 core
        ++ leBytes 1 opcode ++ leBytes 1 0 ++ leBytes 4 tag ++ leBytes 4 index ++ leBytes 4 detail
        ++ leBytes 4 0 ++ leBytes 8 s.tickNo
      ((s.hostWrite owner (s.fld F.PORTAL_ERR_RING_base_4k owner * 4096 + h % n * 32) record).countWrap
        F.PORTAL_ERR_PTR_head owner 1).portalMessage owner 1
    else s.count F.PORTAL_STATUS_err_lost owner 1

/-- The error record of a command (action 0 or 1). -/
def State.cmdError (s : State) (p slot : Nat) (x : Ctx) (c : QCmd) (code action detail : Nat) : State :=
  s.errRecord x.owner code action c.engine slot ((s.logicalOf p).getD 0) c.opcode (x.tagOf c) c.index detail

/-- A digest record appended to the log of a slot (R379): record i lies at slot i mod 188,416, also after head, which
shows 32 bits, has wrapped. -/
def State.digestAppend (s : State) (p slot : Nat) (record : Bytes) : State :=
  match s.logicalOf p with
  | none => s
  | some n =>
    let i := p * 4 + slot
    let h := ((s.ctx p slot).map (·.digestPos)).getD 0
    let s := s.writeMem (vaultAddr n (saveArea slot + 0x480000 + h % 188416 * 64)) record false
    let s := if 188416 ≤ h then s.setFld F.CORE_DIGEST_PTR_wrapped i 1 else s
    let s := s.onCtx p slot fun x => { x with digestPos := h + 1 }
    s.countWrap F.CORE_DIGEST_PTR_head i 1

/-- The bytes of a digest record (R380). -/
def State.digestBytes (s : State) (p slot : Nat) (x : Ctx) (c : QCmd) (kind mark : Nat) (d : DigestRec) : Bytes :=
  let l := x.listOf c
  let lamp := (l.bind fun l => l.step).isSome
  let flags := (if d.poison ∨ c.err = ePoison then 1 else 0) + (if c.err ≠ 0 then 2 else 0) + (if lamp then 4 else 0)
    + (if x.owner = 256 then 8 else 0)
  let seq := match l with
    | some l => (match l.step with | some k => k | none => l.no)
    | none => c.list
  leBytes 1 kind ++ leBytes 1 flags ++ leBytes 1 c.engine ++ leBytes 1 c.opcode
    ++ leBytes 2 (if kind = 1 then c.tag else 0) ++ leBytes 2 0 ++ leBytes 4 (x.tagOf c) ++ leBytes 4 seq
    ++ leBytes 4 c.index ++ leBytes 4 mark ++ leBytes 8 d.crc
    ++ leBytes 8 (s.fld F.CORE_ND_COUNT_count (p * 4 + slot)) ++ leBytes 8 s.tickNo ++ leBytes 16 0

/-- ND_COUNT of a context raised, and the total of its slice (R373, R374). -/
def State.addNd (s : State) (p slot owner n : Nat) : State :=
  let s := s.count F.CORE_ND_COUNT_count (p * 4 + slot) n
  if owner < 256 then s.count F.SLC_ND_TOTAL_total owner n else s

/-! ### Portals and credits (R95 to R99, R350) -/

/-- Descriptors accepted and not yet returned. -/
def State.outstanding (s : State) (portal : Nat) : Nat :=
  (s.fld F.PORTAL_STATUS_accepted portal + 2 ^ 32 - s.fld F.PORTAL_CREDITS_returned portal) % 2 ^ 32

/-- The credit limit: fixed at 2,048 for the radio portal (R99). -/
def State.creditLimit (s : State) (portal : Nat) : Nat :=
  if portal = 256 then 2048 else s.fld F.SLC_CFG_credit_limit portal

/-- Whether a slice's portal follows R350: state ACTIVE, and a confidential slice not CONFIG_LOCKED
(R365). -/
def State.portalOpen (s : State) (portal : Nat) : Bool :=
  portal = 256 || (s.fld F.SLC_STATE_state portal = 2 && s.fld F.SLC_STATE_tdi_state portal ≠ 1)

/-- available of PORTAL_CREDITS (R350). -/
def State.available (s : State) (portal : Nat) : Nat :=
  if s.portalOpen portal then s.creditLimit portal - s.outstanding portal else 0

/-- The value of PORTAL_CREDITS. -/
def State.portalCredits (s : State) (portal : Nat) : Nat :=
  s.available portal + s.creditLimit portal * 2 ^ 16 + s.fld F.PORTAL_CREDITS_returned portal * 2 ^ 32

/-- What follows a change of available other than an acceptance (R97): a mirror window opens, and a rise
from 0 sends message 2, after the mirror write when the mirror is enabled. -/
def State.creditsChanged (s : State) (portal before : Nat) : State :=
  let now := s.available portal
  if now = before then s
  else if s.fld F.PORTAL_CREDIT_MIRROR_enable portal = 1 then
    let r := s.slice portal
    s.setSlice portal { r with mirrorAt := some (r.mirrorAt.getD (s.time.clk + 250)),
                               rise := r.rise || before = 0 }
  else if before = 0 then s.portalMessage portal 2
  else s

/-- A credit returned (R93, R97). -/
def State.creditReturn (s : State) (portal : Nat) : State :=
  (s.countWrap F.PORTAL_CREDITS_returned portal 1).creditsChanged portal (s.available portal)

/-! ### Lists (R93) -/

/-- The completion record of a list. -/
def State.completionRecord (s : State) (owner doneAddr tag status flagged : Nat) : State :=
  if doneAddr = 0 then s
  else s.hostWrite owner doneAddr
    (leBytes 4 tag ++ leBytes 1 status ++ leBytes 1 0 ++ leBytes 2 (min flagged 65535) ++ leBytes 8 s.tickNo)

/-- A member list of a step completes (R219, R223): its core and status are noted. -/
def State.memberDone (s : State) (owner core status : Nat) : State :=
  let r := s.lampSlice owner
  match r.step with
  | some t => s.setLamp owner { r with step := some { t with waiting := t.waiting.erase core,
                                                             status := t.status ++ [(core, status)] } }
  | none => s

/-- A list completes with a status (R93); `torn` gives the code of the teardown that ended it (R101). -/
def State.listDone (s : State) (p slot owner : Nat) (l : CList) (torn : Option Nat) : State :=
  let status := if torn.isSome then 0xFF else l.status
  let s := s.completionRecord owner l.desc.doneAddr l.desc.tag status l.flagged
  let s := if l.desc.syncEn ∧ torn = none then s.send owner l.desc.syncId false l.desc.doneValue (srcOf p slot 4) else s
  let s := if l.desc.irqDone then s.portalMessage owner 0 else s
  match l.step with
  | some _ => s.memberDone owner l.desc.core (torn.getD l.status)
  | none => s.creditReturn l.portal

/-- Every list at the front of a context that has completed is reported, in acceptance order (R93). -/
def State.listsAdvance (s : State) (p slot : Nat) : Nat → State
  | 0 => s
  | fuel + 1 =>
    match s.ctx p slot with
    | none => s
    | some x =>
      match x.lists with
      | [] => s
      | l :: ls =>
        if l.fetched = l.desc.cmds ∧ l.done = l.desc.cmds then
          ((s.setCtx p slot (some { x with lists := ls })).listDone p slot x.owner l none).listsAdvance p slot fuel
        else s

/-! ### Release of a slot -/

/-- Granules of a slot released to zeroing (R196): those that its context holds, or has claimed for its restore
(R204, R205). -/
def State.releaseGranules (s : State) (p slot : Nat) : State :=
  let i := p * 4 + slot
  let m := s.fld F.CORE_SPM_OWNER_granules i
  let held : Bool := match s.ctx p slot with
    | some x => !x.evicted || (s.core p).evict.any fun e => e.restore && decide (e.slot = slot)
    | none => true
  let s := s.setFld F.CORE_SPM_OWNER_granules i 0
  if held then s.setCore p { s.core p with zeroing := (s.core p).zeroing ||| m } else s

/-- The slice's cluster-memory granules of cluster `k` released when it has no context left there
(R198). -/
def State.releaseClm (s : State) (k owner : Nat) : State :=
  let left := (List.range 9).any fun j => [0, 1, 2, 3].any fun sl =>
    (s.ctx (9 * k + j) sl).any fun x => x.owner = owner
  if left ∨ 256 ≤ owner then s
  else ((s.listed .CLU_CLM_GRANULE).filter fun i => i / 128 = k ∧ s.fld F.CLU_CLM_GRANULE_owner i = owner).foldl
    (fun s i => (s.setFld F.CLU_CLM_GRANULE_owner i 0x1FF).setFld F.CLU_CLM_GRANULE_zeroing i 1) s

/-- The same in every cluster once the slice has no context left anywhere, so that granules of clusters in which it
never had one are released too (R198, R355, R357). -/
def State.releaseClms (s : State) (k owner : Nat) : State :=
  if s.cores.any fun e => e.2.ctx.any fun y => y.2.any fun x => x.owner = owner then s.releaseClm k owner
  else (List.range 32).foldl (fun s k => s.releaseClm k owner) s

/-- The banks that a slot owns marked FREE and its work in the array dropped (R119). -/
def Core.freeBanks (c : Core) (slot : Nat) : Core :=
  { c with
    banks := c.banks.filter fun e => e.2.slot ≠ slot
    array := c.array.filter fun a => a.slot ≠ slot
    port := c.port.filter fun q => q.slot ≠ slot }

/-- Whether work in the array or at the port uses accumulator half `i` = bank * 2 + half. -/
def Core.busyHalf (c : Core) (i : Nat) : Bool :=
  (c.array.any fun a => a.bank = i / 2 && (a.half = 0 || a.half - 1 = i % 2))
    || c.port.any fun q => q.bank = i / 2 && (q.half = 0 || q.half - 1 = i % 2)

/-- R126: the context of a slot has been torn down.  Its instructions in flight, with the drains that they requested,
go on under slot 7, and so do the banks that they use; its other banks are FREE. -/
def Core.orphan (c : Core) (slot : Nat) : Core :=
  { c with
    banks := (c.banks.filter fun e => e.2.slot ≠ slot || c.busyHalf e.1).map fun e =>
      if e.2.slot = slot then (e.1, { e.2 with slot := 7 }) else e
    array := c.array.map fun a => if a.slot = slot then { a with slot := 7 } else a
    port := c.port.map fun q => if q.slot = slot then { q with slot := 7 } else q }

/-- Whether a slice's entry is confidential (R61). -/
def State.isConfidential (s : State) (sl : Nat) : Bool := sl < 256 && s.cutBits 6 sl 82 1 = 1

/-- An add of a context that has ended: it belongs to no command any more. -/
def OrdAdd.orphan (p slot : Nat) (a : OrdAdd) : OrdAdd := if a.core = p ∧ a.slot = slot then { a with slot := 7 } else a
def OrdLine.orphan (p slot : Nat) (l : OrdLine) : OrdLine := { l with waiting := l.waiting.map (OrdAdd.orphan p slot) }

/-- Opal's transactions of a context that have been issued go on (R101): writes in flight, and adds on their way or
waiting at the homes of their lines. -/
def State.orphanOpal (s : State) (p slot : Nat) (x : Ctx) : State :=
  let fl := (x.queueOf 2).flatMap fun c => (c.issued.zip c.stamps).filterMap fun t =>
    let ls := t.1.filter fun l => l.ordered.isNone
    if ls = [] then none else some (Flight.mk slot c.seq x.owner t.2 ls)
  let s := s.setCore p { s.core p with loose := (s.core p).loose ++ fl }
  { s with adds := s.adds.map (OrdAdd.orphan p slot), refused := s.refused.map (OrdAdd.orphan p slot),
           ordered := s.ordered.map (OrdLine.orphan p slot) }

/-- A context ends and its slot is free (R101, R126, R196, R198, R205, R381): the transactions that Opal has issued and
Garnet's work in flight go on.  The radio context uses Beryl bank 0, the rental context that holds the core bank
1 (R263). -/
def State.endContext (s : State) (p slot : Nat) : State :=
  match s.ctx p slot with
  | none => s
  | some x =>
    let i := p * 4 + slot
    let s := s.orphanOpal p slot x
    let s := if (s.core p).evict.any fun e => e.slot = slot then
        (s.setFld F.CORE_CTX_CMD_busy p 0).setFld F.CORE_CTX_CMD_last_result p 3
      else s
    let s := s.releaseGranules p slot
    let running := s.fld F.CORE_LEASE_STATUS_rental_slot p = slot
    let c := (s.core p).orphan slot
    let b := if slot = 0 then s.berylRadioCleared p c.beryl
      else if running then s.berylCleared p c.beryl else c.beryl
    let s := s.setCore p { c with beryl := b,
                                  evict := if c.evict.any fun e => e.slot = slot then none else c.evict }
    let s := s.setCtx p slot none
    let s := s.releaseClms (p / 9) x.owner
    let s := { s with clink := { s.clink with
      waits := s.clink.waits.filter fun w => !(w.core = p ∧ w.slot = slot) } }
    let s := s.setFld F.CORE_SCHED_credit i 0
    let s := if running then s.setFld F.CORE_LEASE_STATUS_rental_slot p 7 else s
    let s := if s.isConfidential x.owner then
        match s.logicalOf p with
        | some n => s.zeroRange (vaultAddr n (saveArea slot + 0x480000)) 0xB80000
        | none => s
      else s
    s.setFld F.CORE_DIGEST_PTR_ended i 1

/-- A context created in a free slot (R75, R239, R351, R374, R381); one of a FROZEN slice is frozen (R353). -/
def State.newContext (s : State) (p slot owner : Nat) : State :=
  let i := p * 4 + slot
  let frozen := owner < 256 && s.fld F.SLC_STATE_state owner = 5
  let s := s.setCtx p slot (some { Ctx.init owner s.time.clk s.total with frozen := frozen })
  let s := (s.setFld F.CORE_ND_COUNT_count i 0).setReg .CORE_DIGEST_PTR i 0
  s.setReg .CORE_SCHED i 0

/-- The ordered-add tables without waiting adds that `mine` selects: an entry whose waiting adds have all been discarded
is freed (R173). -/
def dropAdds (t : List OrdLine) (mine : OrdAdd → Bool) : List OrdLine :=
  t.filterMap fun l =>
    let w := l.waiting.filter fun a => !mine a
    if l.waiting ≠ [] ∧ w = [] then none else some { l with waiting := w }

/-- Teardown of a context (R101): objects set broken, the slot freed, one error record with action 1, and
every affected list completed with status 0xFF.  `c` is the command that caused it.  The objects of commands not yet
fetched are not broken: the FN2 has not read them (DESIGN CHOICE, log entry 157). -/
def State.teardown (s : State) (p slot code detail : Nat) (c : Option QCmd) : State :=
  match s.ctx p slot with
  | none => s
  | some x =>
    let s := s.breakAll x.owner (x.queue.flatMap s.breaks)
    let s := s.breakAll x.owner ((x.lists.filter fun l => l.desc.syncEn).map fun l => l.desc.syncId)
    let s := if s.fld F.SYNC_CTL_wait_limit_ms 0 = 0 then
        { s with ordered := dropAdds s.ordered fun a => a.core = p ∧ a.slot = slot }
      else s
    let s := s.endContext p slot
    let s := match c with
      | some c => s.cmdError p slot x c code 1 detail
      | none => s.errRecord x.owner code 1 3 slot ((s.logicalOf p).getD 0) 0 0 0 detail
    x.lists.foldl (fun s l => s.listDone p slot x.owner l (some code)) s

/-- A command that ends without executing and without signalling: a skipped radio command (R100), a
command whose table entry is poisoned (R150), a wait that fails (R84). -/
def State.skip (s : State) (p slot : Nat) (c : QCmd) (code detail : Nat) (objs : List Nat) : State :=
  match s.ctx p slot with
  | none => s
  | some x =>
    let s := (s.breakAll x.owner objs).onCmd p slot c.seq fun c =>
      { c with phase := .worked, err := code, detail := detail, noSignal := true }
    { s with clink := { s.clink with
      waits := s.clink.waits.filter fun w => !(w.core = p ∧ w.slot = slot ∧ w.seq = c.seq) } }

/-- A command that fails a check (R100, R114, R150, R160, R257): the rental context is torn down, the
radio command skipped; a poisoned table entry (code 5) skips the command in either, and the read of its line is
counted (R186). -/
def State.failCmd (s : State) (p slot : Nat) (c : QCmd) (f : Fail) : State :=
  if f.1 = ePoison then (s.readPoison f.2 64).skip p slot c f.1 0 (s.breaks c)
  else if slot = 0 then s.skip p slot c f.1 f.2 (s.breaks c)
  else s.teardown p slot f.1 f.2 (some c)

/-! ### Heads, waits and the scheduler -/

/-- Whether the head of an engine's queue is held: by its wait, by a granule claim, or as a started WAIT or
BARRIER whose conditions are open (R233). -/
def QCmd.held (c : QCmd) : Bool :=
  match c.phase with
  | .queued => (c.waitEn && !c.waitOk) || c.claim
  | .started => c.isWait || c.isBarrier
  | .worked => false

/-- An evicted context whose queues are empty and whose next list is still to be fetched (R204). -/
def Ctx.awaitsFetch (x : Ctx) : Bool :=
  x.evicted && decide (x.queue = []) && x.lists.any fun l => decide (l.fetched < l.desc.cmds)

/-- Whether a command of the context can start: a command next to start is held by no wait, no claim and no fence. -/
def Ctx.canStart (x : Ctx) : Bool :=
  [0, 1, 2, 3].any fun e => (x.head e).any fun c => !c.held && x.fenceOpen c

/-- R233: no command of the context can start, because its queues are empty, because every head is held by a wait, or
because a head is held by a granule claim.  An evicted context with commands that only its restore can fetch does not
count as blocked (DEDUCED, log entry 150). -/
def Ctx.blocked (x : Ctx) : Bool :=
  let heads := [0, 1, 2, 3].filterMap fun e => (x.queueOf e).head?
  x.frozen || !x.awaitsFetch && (heads.all (fun c => c.held && !c.claim) || (heads.any (·.claim) && !x.canStart))

/-- The granules of an evicted context's saved map are all free, or its own while its restore runs (R204). -/
def State.restorable (s : State) (p : Nat) (x : Ctx) : Bool :=
  (List.range 64).all fun g =>
    !bitOf x.savedGranules g || (!bitOf (s.core p).zeroing g
      && (s.granuleSlot p g).all fun sl => (s.ctx p sl).any fun y => y.owner = x.owner)

/-- Whether a rental context may be chosen (R87, R204, R233, R351); a core that is retiring restores none
(R395). -/
def State.runnable (s : State) (p : Nat) (x : Ctx) : Bool :=
  !x.blocked && x.tickHold.isNone
    && (!x.evicted || (s.restorable p x && s.fld F.HLTH_UNIT_state p ≠ 2))

/-- The signed credit of a slot (R351). -/
def State.credit (s : State) (p slot : Nat) : Int := toSigned 32 (s.fld F.CORE_SCHED_credit (p * 4 + slot))

/-- The runnable context with the largest credit, the lowest slot among equals, `except` left out (R351,
R352). -/
def State.best (s : State) (p except : Nat) : Option Nat :=
  [1, 2, 3].foldl (fun b sl =>
    if sl ≠ except ∧ (s.ctx p sl).any (s.runnable p) then
      match b with
      | some b' => if s.credit p b' < s.credit p sl then some sl else b
      | none => some sl
    else b) none

/-- A switch waits until the outgoing context's GMMs and drains have ended, or those of a context that was torn down
(R125, R126, R261). -/
def Core.quiet (c : Core) (slot : Nat) : Bool :=
  (c.array.all fun a => a.slot ≠ slot) && c.port.all fun q => q.slot ≠ slot || (q.preload && slot ≠ 7)

/-- The outgoing context's banks and Beryl state saved in its save area (R125, R261, R262).  A preload under way is
not waited for: its bank is not saved, and it starts again when the context returns (DEDUCED, log entry 46). -/
def State.saveEngines (s : State) (p slot : Nat) : State :=
  match s.ctx p slot, s.logicalOf p with
  | some x, some n =>
    let c := s.core p
    let a := vaultAddr n (saveArea slot)
    let mine := c.banks.filter fun e => e.2.slot = slot && e.2.state ≠ .free && e.2.state ≠ .loading
    let again := (c.port.filter fun q => q.slot = slot).map (·.seq)
    let s := if mine = [] then s else s.writeMem (a + bankArea) (bankImage mine) false
    let s := s.saveBeryl (a + berylArea) c.beryl
    let x := { x with savedBanks := mine, savedBeryl := some c.beryl.bank1
                      queue := x.queue.map fun q => if again.contains q.seq then { q with phase := .queued } else q }
    (s.setCore p { c.freeBanks slot with beryl := s.berylCleared p c.beryl }).setCtx p slot (some x)
  | _, _ => s

/-- The incoming context's banks and Beryl state restored from its save area (R125, R261). -/
def State.loadEngines (s : State) (p slot : Nat) : State :=
  match s.ctx p slot, s.logicalOf p with
  | some x, some n =>
    let a := vaultAddr n (saveArea slot)
    let s : State := if x.savedBanks = [] then s else s.readPoison (a + bankArea) 0x10000
    let s : State := match x.savedBeryl with
      | some _ => (berylRuns (leNat (s.bytesAt (a + berylArea + 0x52000) 10))).foldl
          (fun (s : State) (r : Nat × Nat) => s.readPoison (a + berylArea + r.1) r.2) s
      | none => s
    let c := s.core p
    let banks := (s.loadBanks (a + bankArea) x.savedBanks).foldl (fun b e =>
      put BankHalf.init b e.1 { e.2 with slot := slot }) c.banks
    let beryl := match x.savedBeryl with
      | some b => s.loadBeryl p (a + berylArea) b c.beryl
      | none => { c.beryl with bank1 := BerylBank.init }
    (s.setCore p { c with banks := banks, beryl := beryl }).setCtx p slot
      (some { x with savedBanks := [], savedBeryl := none })
  | _, _ => s

/-- R204: a chosen evicted context claims the granules of its saved map and its restore starts. -/
def State.startRestore (s : State) (p slot : Nat) : State :=
  match s.ctx p slot with
  | none => s
  | some x =>
    if x.evicted ∧ s.restorable p x ∧ (s.core p).evict = none then
      let s := s.setFld F.CORE_SPM_OWNER_granules (p * 4 + slot) x.savedGranules
      (s.setCore p { s.core p with evict := some { slot := slot, restore := true } }).setFld
        F.CORE_CTX_CMD_busy p 1
    else s

/-- The core goes to a rental context: the engine state of the one it leaves is saved and that of the
incoming one restored (R352, R125, R261). -/
def State.switchTo (s : State) (p slot : Nat) : State :=
  let out := s.fld F.CORE_LEASE_STATUS_rental_slot p
  if out = slot then s.startRestore p slot
  else
    let s := s.saveEngines p out
    let s := s.setFld F.CORE_LEASE_STATUS_rental_slot p slot
    let s := if (s.ctx p slot).any fun x => x.evicted then s.startRestore p slot else s.loadEngines p slot
    let last := ([1, 2, 3].map fun sl => ((s.ctx p sl).map (·.lastRan)).getD 0).foldl max 0
    s.onCtx p slot fun x => { x with lastRan := last + 1 }

/-- A switch that has been chosen is made once the outgoing context is quiet (R125). -/
def State.finishSwitch (s : State) (p : Nat) : State :=
  match (s.core p).nextSlot with
  | none => s
  | some sl =>
    if (s.core p).quiet (s.fld F.CORE_LEASE_STATUS_rental_slot p) then
      let s := s.setCore p { s.core p with nextSlot := none }
      if (s.ctx p sl).isSome then s.switchTo p sl else s
    else s

/-- The core is to go to a rental context. -/
def State.choose (s : State) (p slot : Nat) : State :=
  (s.setCore p { s.core p with nextSlot := some slot }).finishSwitch p

/-- R351, R352 within a tick: with no context chosen, the first that becomes runnable runs; a blocked
context gives way to a runnable one.  Nothing new is chosen during a radio lease (R43). -/
def State.schedule (s : State) (p : Nat) : State :=
  let s := s.finishSwitch p
  if s.fld F.CORE_LEASE_STATUS_phase p ≠ 0 ∨ (s.core p).nextSlot.isSome then s
  else
    let cur := s.fld F.CORE_LEASE_STATUS_rental_slot p
    if cur ≠ 0 ∧ (s.ctx p cur).any (s.runnable p) then s
    else match s.best p cur with
      | some sl => s.choose p sl
      | none => s

/-- The spells of a core (R233, R234, R484): begun when their condition begins, ended when it breaks. -/
def State.spells (s : State) (p : Nat) : State :=
  let c := s.core p
  let xs := [1, 2, 3].filterMap fun sl => s.ctx p sl
  let stuck := (xs.any fun x => x.evicted && !x.blocked && !s.restorable p x)
    && (xs.all fun x => x.blocked || (x.evicted && !s.restorable p x))
  let held := decide (c.held ≠ []) && decide (xs.length = 3)
    && xs.all fun x => x.blocked && decide (x.queue ≠ [])
  let next (b : Bool) (o : Option (Nat × Bool)) : Option (Nat × Bool) :=
    if b then (match o with | some v => some v | none => some (s.time.clk, false)) else none
  let s := s.setCore p { c with blockedSpell := next stuck c.blockedSpell, heldSpell := next held c.heldSpell }
  [1, 2, 3].foldl (fun s sl => s.onCtx p sl fun x =>
    { x with idleSince := if x.queue = [] ∧ x.lists = [] then some (x.idleSince.getD s.time.clk) else none }) s

/-- The rental duty of the die of a physical core, 0 to 16: the lower of what power and temperature give (R474,
R478), and 0 while PWRBRK_N is asserted (R477). -/
def State.duty (s : State) (p : Nat) : Nat :=
  if !s.pins.pwrbrk then 0
  else 16 - max (look 0 s.power.dutyOff (p / 144 * 2)) (look 0 s.power.dutyOff (p / 144 * 2 + 1))

/-- Whether engine `e` works for a slot of a core now (R43, R46, R50, R351): a rental context needs a rental
duty above 0 (R477), a context that is not frozen (R361), the rental lease and the core, but that Garnet may issue one
rental instruction before the yield request reaches it; the radio context needs a radio lease in which the engine has
yielded. -/
def State.engineServes (s : State) (p slot e : Nat) : Bool :=
  if slot = 0 then
    s.fld F.CORE_LEASE_STATUS_phase p ≠ 0 && bitOf (s.core p).yielded e
  else
    (s.ctx p slot).all (fun x => !x.frozen) && s.duty p ≠ 0 && s.fld F.CORE_LEASE_STATUS_rental_slot p = slot
      && (s.core p).nextSlot.isNone
      && (s.fld F.CORE_LEASE_STATUS_phase p = 0
        || (e = 0 && s.fld F.CORE_LEASE_STATUS_phase p = 1 && !bitOf (s.core p).yielded 0 && !(s.core p).lateIssue))

/-- Whether a command that has still to be decoded cannot read its table entries yet (R22, R189); GMODE and the
Control commands have none. -/
def State.tableHeld (s : State) (x : Ctx) (c : QCmd) : Bool :=
  c.plan.isNone && c.engine ≠ 3 && !(c.engine = 0 && c.opcode = 5)
    && (x.listOf c).any fun l => s.rangeHeld l.bufBase (64 * l.bufCount)

/-- The command of an engine that may start now, with its context: at the head, its wait satisfied and its
fence open, the context in the core and neither evicted, frozen nor held until the next tick, and its table in reach. -/
def State.startable (s : State) (p slot e : Nat) : Option (Ctx × QCmd) :=
  match s.ctx p slot with
  | none => none
  | some x =>
    match x.head e with
    | none => none
    | some c =>
      if s.engineServes p slot e ∧ !x.evicted ∧ !x.frozen ∧ x.tickHold = none ∧ c.waitOk ∧ x.fenceOpen c
        ∧ (s.core p).evict.all (fun v => v.slot ≠ slot) ∧ !s.tableHeld x c then some (x, c) else none

/-- The same for one opcode of the engine. -/
def State.startOp (s : State) (p slot e op : Nat) : Option (Ctx × QCmd) :=
  match s.startable p slot e with
  | some (x, c) => if c.opcode = op then some (x, c) else none
  | none => none

/-- The Garnet command of an opcode that stands before issue and may issue now, with its context (R120, R121). -/
def State.issuable (s : State) (p slot op : Nat) : Option (Ctx × QCmd) :=
  match s.ctx p slot with
  | none => none
  | some x =>
    match x.issuing with
    | none => none
    | some c =>
      if c.opcode = op ∧ s.engineServes p slot 0 ∧ !x.evicted ∧ !x.frozen ∧ x.tickHold = none
        ∧ (s.core p).evict.all (fun v => v.slot ≠ slot) then some (x, c) else none

/-- Whether an engine defines an opcode (R86, R108, R159, R256). -/
def QCmd.known (c : QCmd) : Bool :=
  match c.engine with
  | 0 => decide (1 ≤ c.opcode) && decide (c.opcode ≤ 5)
  | 1 => decide (1 ≤ c.opcode) && decide (c.opcode ≤ 6)
  | 2 => decide (1 ≤ c.opcode) && decide (c.opcode ≤ 8)
  | _ => decide (c.opcode ≤ 10)

/-- What a queue head needs next: the start of its wait count, a condition that latches, or a failure. -/
inductive HeadAct where
  | since
  | header
  | entry (k : Nat)
  | released
  | fail (code detail : Nat)
deriving DecidableEq, Repr

/-- The state of a wait on an object (R79, R82, R84): permission, then broken, then the value. -/
def State.waitState (s : State) (owner n target : Nat) (act : HeadAct) : Option HeadAct :=
  if !s.permitted n owner then some (.fail ePerm n)
  else if s.fld F.SYNC_OBJ_broken n = 1 then some (.fail eTimeout n)
  else if reached (s.fld F.SYNC_OBJ_value n) target then some act
  else none

/-- The next action at a command that stands at a head or waits inside the Control engine; a command whose
opcode no engine defines, or whose header sets a reserved bit, fails once it could start (R100), an Opal command once
those before it have completed (R162).  The permission of the header's signal is checked once the command stands at its
head, before its wait: R82 gives it no instant (DESIGN CHOICE, log entry 168).  A group BARRIER waits for the device
group, but fails like a wait when its object is no longer its owner's (R85). -/
def State.headAct (s : State) (p slot : Nat) (x : Ctx) (c : QCmd) : Option HeadAct :=
  match c.phase with
  | .queued =>
    if x.head c.engine ≠ some c then none
    else if c.since = none then some .since
    else if c.waitOk then
      if c.fault.isSome then (if (x.queueOf c.engine).head? = some c then c.fault.map fun f => .fail f.1 f.2 else none)
      else if (c.known && c.reserved = 0) || (s.startable p slot c.engine).isNone
          || (c.engine = 2 && (x.queueOf 2).head? ≠ some c) then none
      else some (.fail eOpcode 0)
    else if c.sigEn ∧ !s.permitted c.signalId x.owner then some (.fail ePerm c.signalId)
    else if c.waitEn then s.waitState x.owner c.waitId c.waitValue .header
    else some .header
  | .started =>
    if c.isWait then
      if (c.entry 0).enable ∧ !c.latch0 then
        match s.waitState x.owner (c.entry 0).id (c.entry 0).value (.entry 0) with
        | some a => some a
        | none => if (c.entry 1).enable ∧ !c.latch1 then
            s.waitState x.owner (c.entry 1).id (c.entry 1).value (.entry 1) else none
      else if (c.entry 1).enable ∧ !c.latch1 then
        s.waitState x.owner (c.entry 1).id (c.entry 1).value (.entry 1)
      else some .released
    else if c.isBarrier ∧ c.pay 15 1 = 1 then
      if s.permitted (c.pay 0 15) x.owner then none else some (.fail ePerm (c.pay 0 15))
    else if c.isBarrier
        ∧ (s.signals.all fun g => !(g.src = srcOf p slot 3 && g.obj = c.pay 0 15)) then
      s.waitState x.owner (c.pay 0 15) (c.pay 32 32) .released
    else none
  | .worked => none

/-- That action carried out. -/
def State.doHead (s : State) (p slot : Nat) (c : QCmd) : HeadAct → State
  | .since => s.onCmd p slot c.seq fun c => { c with since := some s.time.clk }
  | .header => s.onCmd p slot c.seq fun c => { c with waitOk := true }
  | .entry k => s.onCmd p slot c.seq fun c => if k = 0 then { c with latch0 := true } else { c with latch1 := true }
  | .released => s.onCmd p slot c.seq fun c => { c with phase := .worked }
  | .fail code detail =>
    if code = eTimeout then s.skip p slot c code detail c.signals else s.failCmd p slot c (code, detail)

/-- The first action due anywhere: core, slot, command, action. -/
def State.nextAct (s : State) : Option (Nat × Nat × QCmd × HeadAct) :=
  s.cores.findSome? fun e => e.2.ctx.findSome? fun y =>
    match y.2 with
    | none => none
    | some x => x.queue.findSome? fun c => (s.headAct e.1 y.1 x c).map fun a => (e.1, y.1, c, a)

/-- Every condition at every head evaluated until nothing more follows (R79, R83, R84). -/
def State.evaluate (s : State) : Nat → State
  | 0 => s
  | fuel + 1 =>
    match s.nextAct with
    | none => s
    | some (p, slot, c, a) => (s.doHead p slot c a).evaluate fuel

/-- A bound on the actions that one evaluation can make: five for each queued command. -/
def State.actBound (s : State) : Nat :=
  s.cores.foldl (fun n e => e.2.ctx.foldl (fun n y => match y.2 with
    | some x => n + 5 * x.queue.length
    | none => n) n) 1

/-! ### Acceptance of descriptors (R75, R92) -/

/-- A list appended to a context in acceptance order (R76); buf_count 0 keeps the current table (R90). -/
def Ctx.addList (x : Ctx) (portal : Nat) (d : Desc) (step : Option Nat) : Ctx :=
  let base := if d.bufs = 0 then x.bufBase else d.bufTable
  let count := if d.bufs = 0 then x.bufCount else d.bufs
  let l : CList := { no := x.nextList, desc := d, portal := portal, fetched := 0, done := 0, status := 0,
                     flagged := 0, bufBase := base, bufCount := count, step := step, hostSince := none }
  { x with lists := x.lists ++ [l], nextList := x.nextList + 1, bufBase := base, bufCount := count,
           idleSince := none }

/-- The slot of a core that holds a context of an owner. -/
def State.slotOf (s : State) (p owner : Nat) : Option Nat :=
  if owner = 256 then (if (s.ctx p 0).isSome then some 0 else none)
  else [1, 2, 3].find? fun sl => (s.ctx p sl).any fun x => x.owner = owner

/-- The lowest free slot for an owner (R13, R75, R99). -/
def State.freeSlot (s : State) (p owner : Nat) : Option Nat :=
  if owner = 256 then (if (s.ctx p 0).isNone then some 0 else none)
  else [1, 2, 3].find? fun sl => (s.ctx p sl).isNone

/-- Whether a descriptor waits behind one that is held (R75, R76): of its own slice, or, where it needs a slot, of one
that needs a slot of the same kind. -/
def State.behindHeld (s : State) (p portal : Nat) : Bool :=
  (s.core p).held.any fun h => h.portal = portal || ((s.slotOf p portal).isNone && decide ((h.portal = 256) = (portal = 256)))

/-- A checked descriptor goes to its context: to the one that its owner holds on the core, else to a new
one in the lowest free slot, else it is held (R75); it is held too while a retired core's spare is not
installed (R22), and behind those held before it (R76). -/
def State.deliver (s : State) (p portal : Nat) (d : Desc) (step : Option Nat) : State :=
  if s.coreDown p ∨ s.behindHeld p portal then
    s.setCore p { s.core p with held := (s.core p).held ++ [⟨portal, d, step⟩] }
  else match s.slotOf p portal with
  | some sl => (s.onCtx p sl fun x => x.addList portal d step).listsAdvance p sl 1
  | none =>
    match s.freeSlot p portal with
    | some sl => ((s.newContext p sl portal).onCtx p sl fun x => x.addList portal d step).listsAdvance p sl 1
    | none => s.setCore p { s.core p with held := (s.core p).held ++ [⟨portal, d, step⟩] }

/-- Descriptors held on a core tried again, in order, after a slot became free (R75). -/
def State.admitHeld (s : State) (p : Nat) : State :=
  let hs := (s.core p).held
  if hs = [] then s
  else hs.foldl (fun s h => s.deliver p h.portal h.desc h.step) (s.setCore p { s.core p with held := [] })

/-- What follows any change at queues or objects: waits are evaluated, held descriptors take the slots that this has
freed, then each core's rental context and spells are brought up to date. -/
def State.settle (s : State) : State :=
  let s := s.evaluate s.actBound
  s.cores.foldl (fun s e => ((s.admitHeld e.1).schedule e.1).spells e.1) s

/-- What follows the end of contexts on a core: held descriptors are admitted and waits evaluated. -/
def State.afterRelease (s : State) (p : Nat) : State := (s.admitHeld p).settle

/-- Held descriptors admitted on every core, and waits evaluated. -/
def State.afterAll (s : State) : State := (s.cores.foldl (fun s e => s.admitHeld e.1) s).settle

/-- A command that fails at decode, with everything that follows. -/
def State.failSettle (s : State) (p slot : Nat) (c : QCmd) (f : Fail) : State :=
  (s.failCmd p slot c f).afterRelease p

/-- Transactions of a slot in flight, those of contexts that have ended there among them. -/
def State.flyingOf (s : State) (p slot : Nat) : Nat :=
  ((s.core p).loose.filter fun f => f.slot = slot).length + match s.ctx p slot with
  | some x => x.queue.foldl (fun n c => n + c.inFlight) 0
  | none => 0

/-! ### Starting and ending commands -/

/-- A held claim: the head is held by it until its granules are free (R194). -/
def State.holdClaim (s : State) (p slot seq : Nat) (own clm : List Nat) : State :=
  (s.onCmd p slot seq fun c => { c with claim := true, needs := own, needsClm := clm }).settle

/-- A command's engine work has ended; ERR_POISON flags it (R80, R100). -/
def State.worked (s : State) (p slot seq : Nat) (poison : Bool) : State :=
  s.onCmd p slot seq fun c =>
    { c with phase := .worked, err := if poison ∧ c.err = 0 then ePoison else c.err }

/-- A command starts. -/
def State.begin (s : State) (p slot seq : Nat) : State := s.onCmd p slot seq fun c => { c with phase := .started }

/-- R80: the signals of a completed command, in order: the header signal, then the entries of a SIGNAL. -/
def State.sendSignals (s : State) (p slot owner : Nat) (c : QCmd) : State :=
  let src := srcOf p slot c.engine
  let s := if c.sigEn then s.send owner c.signalId c.sigSet c.signalValue src else s
  if c.isSignal then
    [0, 1].foldl (fun s k => let e := c.entry k
      if e.enable then s.send owner e.id e.set e.value src else s) s
  else s

/-- A command completes (R77, R80, R93, R102, R380): it leaves its queue, a flagged one writes its error
record, its digests are logged, its signals leave, and its list counts it. -/
def State.complete (s : State) (p slot : Nat) (x : Ctx) (c : QCmd) : State :=
  let s := if c.err ≠ 0 then s.cmdError p slot x c c.err 0 c.detail else s
  let s := if c.noSignal then s
    else if c.engine = 3 ∧ c.opcode = 6 then
      s.digestAppend p slot (s.digestBytes p slot x c 2 (c.pay 0 32) ⟨0, 0, false⟩)
    else c.digests.foldl (fun s d => s.digestAppend p slot (s.digestBytes p slot x c 1 0 d)) s
  let s := if c.noSignal then s else s.sendSignals p slot x.owner c
  let s := s.onCtx p slot fun x =>
    { x with
      queue := x.queue.filter fun c' => c'.seq ≠ c.seq
      lists := x.lists.map fun l => if l.no = c.list then
          { l with done := l.done + 1, status := if l.status = 0 then c.err else l.status,
                   flagged := if c.err ≠ 0 then l.flagged + 1 else l.flagged }
        else l }
  (s.listsAdvance p slot x.lists.length).settle

end Sys2Proof.Machine
end

