-- ==== Sys2Proof/Machine/Control.lean ====
section
/-!
DEFINITION. The Control engine's opcodes (R50, R86 to R89), but for BARRIER (Machine/Group.lean) and
STEP_TRIGGER (Machine/Lamp.lean).
-/
namespace Sys2Proof.Machine

/-- The start of a Control command: its opcode's own checks, then what it does; a failed check ends it
(R86, R100). -/
def State.control (s : State) (p slot op : Nat) (check : Ctx → QCmd → Except Fail Unit)
    (act : Ctx → QCmd → State → State) : State :=
  match s.startOp p slot 3 op with
  | none => s
  | some (x, c) =>
    match check x c with
    | .error f => s.failSettle p slot c f
    | .ok () => (act x c s).settle

/-- ERR_PERM unless the condition holds, then ERR_OPCODE if a reserved bit is set (R86). -/
def opcodeCheck (allowed reserved : Bool) : Except Fail Unit :=
  if !allowed then .error (ePerm, 0) else if reserved then .error (eOpcode, 0) else .ok ()

/-- The permission of the enabled entries of a SIGNAL or WAIT (R82); a disabled entry names no object (DESIGN CHOICE,
log entry 157). -/
def State.entriesCheck (s : State) (owner : Nat) (c : QCmd) : Except Fail Unit :=
  match [0, 1].find? fun k => (c.entry k).enable && !s.permitted (c.entry k).id owner with
  | some k => .error (ePerm, (c.entry k).id)
  | none => .ok ()

/-- NOP (R86). -/
def execNop (p slot : Nat) (s : State) : Host.Outcome State Fault Refusal :=
  done (s.control p slot 0 (fun _ c => opcodeCheck true (c.pay 0 128 ≠ 0))
    fun _ c s => s.worked p slot c.seq false)

/-- SIGNAL (R86): its entries are applied at completion (`State.sendSignals`). -/
def execSignal (p slot : Nat) (s : State) : Host.Outcome State Fault Refusal :=
  done (s.control p slot 1
    (fun x c => do
      opcodeCheck true (c.pay 17 15 ≠ 0 || c.pay 81 15 ≠ 0)
      s.entriesCheck x.owner c)
    fun _ c s => s.worked p slot c.seq false)

/-- WAIT (R86): it starts, and its conditions latch one by one (`State.headAct`). -/
def execWait (p slot : Nat) (s : State) : Host.Outcome State Fault Refusal :=
  done (s.control p slot 2
    (fun x c => do
      opcodeCheck true (c.pay 16 16 ≠ 0 || c.pay 80 16 ≠ 0)
      s.entriesCheck x.owner c)
    fun _ c s => s.begin p slot c.seq)

/-- YIELD_POINT (R87). -/
def execYieldPoint (p slot : Nat) (s : State) : Host.Outcome State Fault Refusal :=
  done (s.control p slot 3 (fun _ c => opcodeCheck (slot ≠ 0) (c.pay 1 127 ≠ 0))
    fun _ c s =>
      let next := s.best p slot
      let s := s.worked p slot c.seq false
      let s := if c.pay 0 1 = 1 then s.onCtx p slot fun x => { x with tickHold := some s.tickNo } else s
      match next with
      | some sl => s.choose p sl
      | none => s)

/-- The end of a radio lease (R42, R51): rental work resumes on every engine. -/
def State.endLease (s : State) (p : Nat) : State :=
  (s.setFld F.CORE_LEASE_STATUS_phase p 0).setCore p { s.core p with yielded := 0 }

/-- The HAND_BACK at the head of the radio context's Control queue with every earlier radio command
completed; it takes effect outside a lease too (R50). -/
def State.handBackDue (s : State) (p slot : Nat) : Option (Ctx × QCmd) :=
  match s.ctx p slot with
  | none => none
  | some x =>
    match x.head 3 with
    | none => none
    | some c => if c.opcode = 4 ∧ c.waitOk ∧ x.fenceOpen c ∧ c.reserved = 0 then some (x, c) else none

/-- HAND_BACK (R50). -/
def execHandBack (p slot : Nat) (s : State) : Host.Outcome State Fault Refusal :=
  done <|
    if slot ≠ 0 then s.control p slot 4 (fun _ _ => .error (ePerm, 0)) fun _ _ s => s
    else match s.handBackDue p slot with
      | none => s
      | some (_, c) =>
        if c.pay 0 128 ≠ 0 then s.failSettle p slot c (eOpcode, 0)
        else
          let s := s.worked p slot c.seq false
          if s.fld F.CORE_LEASE_STATUS_phase p = 0 then s.settle
          else ((s.endLease p).setFld F.CORE_LEASE_STATUS_handed_back p 1).settle

/-- DIGEST_MARK (R86): its record is appended at completion (`State.complete`). -/
def execDigestMark (p slot : Nat) (s : State) : Host.Outcome State Fault Refusal :=
  done (s.control p slot 6 (fun _ c => opcodeCheck true (c.pay 32 96 ≠ 0))
    fun _ c s => s.worked p slot c.seq false)

/-- TIMESTAMP (R86): 16 bytes of device time. -/
def State.timeBytes (s : State) : Bytes := leBytes 8 (s.time.sec % 2 ^ 48) ++ leBytes 8 s.time.ns

/-- TIMESTAMP (R86, R89); a free granule of a cluster memory that it names becomes its slice's, after its zeroing
(R198), and it waits while requests to its line are held (R22, R189). -/
def execTimestamp (p slot : Nat) (s : State) : Host.Outcome State Fault Refusal :=
  done (s.control p slot 8
    (fun x c => do
      opcodeCheck true (c.pay 44 84 ≠ 0)
      s.addressCheck x.owner ((s.logicalOf p).getD 0) (c.pay 0 44) 16 16 true)
    fun x c s =>
      let clm := if slot = 0 then [] else clmNamed (c.pay 0 44) 16
      if s.rangeHeld (c.pay 0 44) 16 then s
      else if !s.claimable p slot x.owner [] clm then s.holdClaim p slot c.seq [] clm
      else
        let s := (s.claimAll p slot x.owner [] clm).onCmd p slot c.seq fun c => { c with claim := false }
        (s.writeMem (c.pay 0 44) s.timeBytes false).worked p slot c.seq false)

/-- INTERRUPT (R86): a portal message, or a vector of PF1 for the radio context. -/
def execInterrupt (p slot : Nat) (s : State) : Host.Outcome State Fault Refusal :=
  done (s.control p slot 9
    (fun _ c => opcodeCheck true (c.pay (if slot = 0 then 8 else 3) 125 ≠ 0))
    fun x c s =>
      (if slot = 0 then s.message 1 (c.pay 0 8) else s.portalMessage x.owner (c.pay 0 3)).worked
        p slot c.seq false)

/-- HOST_WRITE (R86): eight bytes, after every earlier host write of its context. -/
def execHostWrite (p slot : Nat) (s : State) : Host.Outcome State Fault Refusal :=
  done (s.control p slot 10
    (fun _ c => if c.pay 0 64 % 8 ≠ 0 then .error (eAlign, 0) else .ok ())
    fun x c s =>
      (s.requestAs x.owner (.write (s.pasidOf x.owner) (c.pay 0 64) (leBytes 8 (c.pay 64 64)) false)
        (some (p, slot, c.seq)) true none).worked p slot c.seq false)

end Sys2Proof.Machine
end

