-- ==== Sys2Proof/Machine/Lease.lean ====
section
/-!
DEFINITION. The radio lease and the rental lease (R40 to R51), the limit of R47, and the choice of the
rental context at a boundary (R351).  YIELD_OVERRUN is in Machine/Garnet.lean.
-/
namespace Sys2Proof.Machine

/-- radio_start of the logical core that a physical core serves, 0 where it serves none. -/
def State.radioStart (s : State) (p : Nat) : Nat :=
  match s.logicalOf p with
  | some n => s.cutBits 2 n 34 12
  | none => 0

/-- radio_len likewise. -/
def State.radioLen (s : State) (p : Nat) : Nat :=
  match s.logicalOf p with
  | some n => s.cutBits 2 n 46 12
  | none => 0

/-- Whether the window of a core is empty (R40). -/
def State.windowEmpty (s : State) (p : Nat) : Bool :=
  s.radioLen p = 0 || decide (s.period ≤ s.radioStart p * 250)

/-- Start of the window, in nanoseconds after the tick boundary. -/
def State.windowFrom (s : State) (p : Nat) : Nat := s.radioStart p * 250

/-- End of the window, at the tick boundary at the latest (R40). -/
def State.windowTo (s : State) (p : Nat) : Nat := min ((s.radioStart p + s.radioLen p) * 250) s.period

/-- A window begins: with a radio context in slot 0, a radio lease begins and every engine is asked to
yield (R41, R45).  A lease that still runs continues (R42). -/
def State.openWindow (s : State) (p : Nat) : State :=
  let c := s.core p
  let s := s.setCore p { c with lastWindow := some s.tickNo, windowOpen := (s.ctx p 0).isSome,
                                lateIssue := false }
  if (s.ctx p 0).isSome ∧ s.fld F.CORE_LEASE_STATUS_phase p = 0 then
    (s.setFld F.CORE_LEASE_STATUS_phase p 1).setCore p { s.core p with yielded := 0 }
  else s

/-- Whether the window of the present tick can begin now: its instant has come, it has not begun in this
tick (R339), and the radio context was there at that instant (R41). -/
def State.windowDue (s : State) (p : Nat) : Bool :=
  let t := s.tickInstant s.tickNo
  !s.windowEmpty p && decide (t + s.windowFrom p ≤ s.total) && decide (s.total < t + s.windowTo p)
    && decide ((s.core p).lastWindow ≠ some s.tickNo)
    && (s.ctx p 0).any fun x => decide (x.created ≤ t + s.windowFrom p)

/-- RADIO_WINDOW_START (R41, R45). -/
def execRadioWindowStart (p : Nat) (s : State) : Host.Outcome State Fault Refusal :=
  done (if s.time.running ∧ s.windowDue p then (s.openWindow p).settle else s)

/-- Whether engine `e` of a core holds no rental work in progress (R46): Garnet, no rental GMM, drain or
preload; the other engines stop at a bundle, a transaction or a command. -/
def State.canYield (s : State) (p e : Nat) : Bool :=
  if e = 0 then (s.core p).array.all (fun a => a.slot = 0) && (s.core p).port.all fun q => q.slot = 0
  else true

/-- An engine has yielded; with the last of the four, the lease is radio (R46). -/
def State.markYield (s : State) (p e cycle : Nat) : State :=
  let y := (s.core p).yielded ||| 2 ^ e
  let s := s.setCore p { s.core p with yielded := y }
  if y = 15 then
    (s.setFld F.CORE_LEASE_STATUS_phase p 2).setFld F.CORE_LEASE_STATUS_last_yield_cycles p cycle
  else s

/-- ENGINE_YIELD (R46): `cycle` counts from cycle 0 of the lease; at 1,741 or later R49 applies. -/
def execEngineYield (p engine cycle : Nat) (s : State) : Host.Outcome State Fault Refusal :=
  done <|
    if s.fld F.CORE_LEASE_STATUS_phase p = 1 ∧ engine < 4 ∧ !bitOf (s.core p).yielded engine ∧ cycle ≤ 1740
        ∧ s.canYield p engine then (s.markYield p engine cycle).settle
    else s

/-- Whether the radio context has radio work pending (R44): a command in execution, one of Garnet that stands before
issue, or one at a head with its wait satisfied and its fence open.  A WAIT or a BARRIER that still waits inside the
Control engine is a head held by an unsatisfied wait, which does not count (DEDUCED, log entry 42). -/
def State.radioPending (s : State) (p : Nat) : Bool :=
  match s.ctx p 0 with
  | none => false
  | some x =>
    (x.queue.any fun c => c.phase = .started && !(c.isWait || c.isBarrier)) || x.issuing.isSome
      || [0, 1, 2, 3].any fun e => (x.head e).any fun c => c.waitOk && x.fenceOpen c

/-- The window ends (R44): with radio work pending in a lease that runs, the spill is counted and the
radio stack told. -/
def State.spill (s : State) (p : Nat) : State :=
  if s.fld F.CORE_LEASE_STATUS_phase p ≠ 0 ∧ s.radioPending p then
    (s.count F.CORE_RADIO_SPILL_count p 1).message 1 5
  else s

/-- The window of a core closes and its lease ends. -/
def State.closeWindow (s : State) (p : Nat) : State :=
  let s := s.spill p
  let s := s.setCore p { s.core p with windowOpen := false }
  if s.fld F.CORE_LEASE_STATUS_phase p ≠ 0 then s.endLease p else s

/-- RADIO_WINDOW_END (R42, R44).  A window that ends with its tick ends at TICK_BOUNDARY, where it may be
continued by the next. -/
def execRadioWindowEnd (p : Nat) (s : State) : Host.Outcome State Fault Refusal :=
  done <|
    if (s.core p).windowOpen ∧ s.windowTo p < s.period
        ∧ s.tickInstant s.tickNo + s.windowTo p ≤ s.total then (s.closeWindow p).settle
    else s

/-- A write of limit_cycles waits for the boundary; 0 is ignored (R47). -/
def State.limitWrite (s : State) (p v : Nat) : State :=
  if v % 65536 = 0 then s else s.setCore p { s.core p with pendLimit := some (v % 65536) }

/-- GAR_MAX_INSTR_TIME_WRITE (R47). -/
def execGarMaxInstrTimeWrite (p value : Nat) (s : State) : Host.Outcome State Fault Refusal :=
  done (s.limitWrite p value)

/-- Pending limits take effect (R38, step 3). -/
def State.applyLimit (s : State) (p : Nat) : State :=
  match (s.core p).pendLimit with
  | none => s
  | some v => (s.setFld F.GAR_MAX_INSTR_TIME_limit_cycles p v).setCore p { s.core p with pendLimit := none }

/-- The rental choice of a core at a boundary (R87, R351): tick_align holds end, credits are raised, the
context with the largest is chosen and charged. -/
def State.rentalChoice (s : State) (p : Nat) : State :=
  let s := [1, 2, 3].foldl (fun s sl => s.onCtx p sl fun x => { x with tickHold := none }) s
  let run := [1, 2, 3].filter fun sl => (s.ctx p sl).any (s.runnable p)
  let shareOf (sl : Nat) : Nat := match s.ctx p sl with | some x => s.share x.owner | none => 0
  let raise (s : State) (sl : Nat) (d : Int) : State :=
    s.setFld F.CORE_SCHED_credit (p * 4 + sl) (ofSigned 32 (satSigned 32 (s.credit p sl + d)))
  let s := run.foldl (fun s sl => raise s sl (shareOf sl)) s
  match s.best p 0 with
  | none => s
  | some sl =>
    let s := raise s sl (- ((run.map shareOf).foldl (· + ·) 0 : Nat))
    let s := s.countWrap F.CORE_SCHED_picks (p * 4 + sl) 1
    if s.fld F.CORE_LEASE_STATUS_rental_slot p = sl ∧ (s.core p).nextSlot = none then s.startRestore p sl
    else s.choose p sl

end Sys2Proof.Machine
end

