-- ==== Sys2Proof/Machine/Numeric.lean ====
section
/-!
DEFINITION. Number formats, exact arithmetic on them and the one rounding mode (R132 to R147).
-/
namespace Sys2Proof.Machine

/-- The exact value of an encoding: plus or minus m times 2 to the e, an infinity, or NaN. -/
inductive Val where
  | fin (neg : Bool) (m : Nat) (e : Int)
  | inf (neg : Bool)
  | nan
deriving DecidableEq, Repr

/-- A float format (R132): widths of exponent and mantissa, bias, the pattern of the largest finite
magnitude, and the patterns of infinity and of the canonical NaN where the format has them. -/
structure FFmt where
  ebits : Nat
  mbits : Nat
  bias : Nat
  maxPat : Nat
  inf : Option Nat
  nan : Option Nat
deriving DecidableEq, Repr

def e2m1 : FFmt := ⟨2, 1, 1, 0x7, none, none⟩
def e4m3 : FFmt := ⟨4, 3, 7, 0x7E, none, some 0x7F⟩
def e5m2 : FFmt := ⟨5, 2, 15, 0x7B, some 0x7C, some 0x7E⟩
def bf16 : FFmt := ⟨8, 7, 127, 0x7F7F, some 0x7F80, some 0x7FC0⟩
def fp16 : FFmt := ⟨5, 10, 15, 0x7BFF, some 0x7C00, some 0x7E00⟩
def fp32 : FFmt := ⟨8, 23, 127, 0x7F7FFFFF, some 0x7F800000, some 0x7FC00000⟩

/-- Bits of a format. -/
def FFmt.width (f : FFmt) : Nat := 1 + f.ebits + f.mbits

/-- The exponent of the last place of a subnormal. -/
def FFmt.emin (f : FFmt) : Int := 1 - (f.bias : Int) - (f.mbits : Int)

/-- The value of an encoding (R133). -/
def FFmt.decode (f : FFmt) (x : Nat) : Val :=
  let neg := x.testBit (f.ebits + f.mbits)
  let p := x % 2 ^ (f.ebits + f.mbits)
  if f.maxPat < p then (if some p = f.inf then .inf neg else .nan)
  else
    let e := p >>> f.mbits
    let m := p % 2 ^ f.mbits
    if e = 0 then .fin neg m f.emin else .fin neg (m + 2 ^ f.mbits) (f.emin + (e : Int) - 1)

/-- `m / 2 ^ k` rounded to the nearest integer, ties to even (R143). -/
def roundShift (m k : Nat) : Nat :=
  let q := m >>> k
  let r := m % 2 ^ k
  if 2 ^ k < 2 * r || (2 * r = 2 ^ k && k ≠ 0 && q % 2 = 1) then q + 1 else q

/-- An integer divided by 2 ^ k and rounded, ties to even (R143). -/
def roundInt (x : Int) (k : Nat) : Int :=
  if x < 0 then - (roundShift x.natAbs k : Int) else (roundShift x.natAbs k : Int)

/-- The pattern of the magnitude m times 2 ^ e rounded under R143, as though the exponent had no upper
limit. -/
def FFmt.roundMag (f : FFmt) (m : Nat) (e : Int) : Nat :=
  if m = 0 then 0
  else
    let q : Int := max (e + (Nat.log2 m : Int) - (f.mbits : Int)) f.emin
    let k := if e < q then roundShift m (q - e).toNat else m * 2 ^ (e - q).toNat
    (q - f.emin).toNat * 2 ^ f.mbits + k

/-- The sign bit of a format. -/
def FFmt.sign (f : FFmt) (neg : Bool) : Nat := if neg then 2 ^ (f.ebits + f.mbits) else 0

/-- The canonical NaN (R136); a format without NaN writes +0 (R144). -/
def FFmt.canonNan (f : FFmt) : Nat := f.nan.getD 0

/-- Float arithmetic (R138, R251): a result above the largest finite value becomes infinity. -/
def FFmt.arith (f : FFmt) : Val → Nat
  | .nan => f.canonNan
  | .inf neg => f.sign neg + f.inf.getD f.maxPat
  | .fin neg m e =>
    let p := f.roundMag m e
    f.sign neg + (if f.maxPat < p then f.inf.getD f.maxPat else p)

/-- A conversion (R144): a finite value never becomes infinity; the flag says that it saturated. -/
def FFmt.convert (f : FFmt) : Val → Nat × Bool
  | .nan => (f.canonNan, false)
  | .inf neg =>
    match f.inf with
    | some i => (f.sign neg + i, false)
    | none => (f.sign neg + f.maxPat, true)
  | .fin neg m e =>
    let p := f.roundMag m e
    if f.maxPat < p then (f.sign neg + f.maxPat, true) else (f.sign neg + p, false)

/-- The value of an integer. -/
def Val.ofInt (x : Int) : Val := .fin (decide (x < 0)) x.natAbs 0

/-- The negated value. -/
def Val.neg : Val → Val
  | .fin n m e => .fin (!n) m e
  | .inf n => .inf (!n)
  | .nan => .nan

/-- Whether a value is zero. -/
def Val.isZero : Val → Bool
  | .fin _ m _ => m = 0
  | _ => false

/-- Whether the sign bit is 1; a NaN is not negative (R147). -/
def Val.isNeg : Val → Bool
  | .fin n _ _ => n
  | .inf n => n
  | .nan => false

/-- The exact product; infinity times zero is NaN (R138). -/
def Val.mul : Val → Val → Val
  | .nan, _ => .nan
  | _, .nan => .nan
  | .inf a, .inf b => .inf (a != b)
  | .inf a, .fin b m _ => if m = 0 then .nan else .inf (a != b)
  | .fin a m _, .inf b => if m = 0 then .nan else .inf (a != b)
  | .fin a m e, .fin b n d => .fin (a != b) (m * n) (e + d)

/-- The smallest exponent of the finite values of a list. -/
def minExp : List Val → Int
  | [] => 0
  | .fin _ _ e :: vs => match vs with
    | [] => e
    | _ => min e (minExp vs)
  | _ :: vs => minExp vs

/-- The signed numerator of a finite value over 2 ^ e. -/
def Val.over (e : Int) : Val → Int
  | .fin n m d => let k : Int := (m * 2 ^ (d - e).toNat : Nat); if n then -k else k
  | _ => 0

/-- The exact sum of values (R137, R138); an exact zero is -0 only when every term is -0 (R139). -/
def Val.sum (vs : List Val) : Val :=
  if vs.any (· = .nan) then .nan
  else
    let pos := vs.any (· = .inf false)
    let neg := vs.any (· = .inf true)
    if pos && neg then .nan
    else if pos then .inf false
    else if neg then .inf true
    else
      let e := minExp vs
      let t := (vs.map (Val.over e)).foldl (· + ·) 0
      if t = 0 then .fin (decide (vs ≠ []) && vs.all Val.isNeg) 0 e
      else .fin (decide (t < 0)) t.natAbs e

/-- The scale of an E8M0 byte (R134). -/
def scaleVal (b : Nat) : Val := if b = 255 then .nan else .fin false 1 ((b : Int) - 127)

/-- The floor of the base-2 logarithm of a finite non-zero magnitude. -/
def Val.log2 : Val → Int
  | .fin _ m e => (Nat.log2 m : Int) + e
  | _ => 0

/-- Whether the magnitude of `a` is below that of `b`, both finite. -/
def Val.magLt : Val → Val → Bool
  | .fin _ m e, .fin _ n d =>
    let q := min e d
    decide (m * 2 ^ (e - q).toNat < n * 2 ^ (d - q).toNat)
  | _, _ => false

/-- A finite value times 2 ^ x. -/
def Val.scale (x : Int) : Val → Val
  | .fin n m e => .fin n m (e + x)
  | v => v

/-- The value of a list with the largest magnitude. -/
def largest (vs : List Val) : Val := vs.foldl (fun a v => if a.magLt v then v else a) (.fin false 0 0)

/-- A block of values with one scale (R146): the scale byte, the elements, whether a value saturated and
whether NaN or infinity forced the scale 0xFF. -/
def blockScale (f : FFmt) (emax : Int) (vs : List Val) : Nat × List Nat × Bool × Bool :=
  if vs.any fun v => match v with | .fin _ _ _ => false | _ => true then
    (0xFF, vs.map fun _ => 0, false, true)
  else if vs.all Val.isZero then (0x7F, vs.map fun v => f.sign v.isNeg, false, false)
  else
    let x := max (-127) (min 127 ((largest vs).log2 - emax))
    let rs := vs.map fun v => f.convert (v.scale (-x))
    ((x + 127).toNat, rs.map (·.1), rs.any (·.2), false)

/-- An integer narrowed to `w` bits after a right shift (R143, R145): the pattern, and whether it
saturated. -/
def narrowInt (w : Nat) (x : Int) (shift : Nat) : Nat × Bool :=
  let r := roundInt x shift
  (ofSigned w (satSigned w r), decide (satSigned w r ≠ r))

end Sys2Proof.Machine
end

