-- ==== Sys2Proof/Machine/Garnet.lean ====
section
/-!
DEFINITION. Garnet, the matrix array (R104 to R131, R137 to R149), with YIELD_OVERRUN (R49).
-/
namespace Sys2Proof.Machine

/-! ### Formats and payloads -/

/-- Formats of A and B of a float GMM (R110); none for the integer and reserved codes. -/
def gmmFloat (fmt : Nat) : Option (FFmt × FFmt) :=
  match fmt with
  | 0 => some (bf16, bf16)
  | 1 => some (fp16, fp16)
  | 2 => some (e4m3, e4m3)
  | 3 => some (e4m3, e5m2)
  | 4 => some (e5m2, e4m3)
  | 5 => some (e5m2, e5m2)
  | 6 => some (e2m1, e2m1)
  | _ => none

/-- Whether a GMM format is an integer one. -/
def gmmInt (fmt : Nat) : Bool := fmt = 7 ∨ fmt = 8

/-- Elements per 16-bit unit (R105). -/
def gmmV (fmt : Nat) : Nat := if fmt = 6 then 4 else if (2 ≤ fmt ∧ fmt ≤ 5) ∨ fmt = 7 then 2 else 1

/-- The fields of a drain payload (R111). -/
structure DrainCfg where
  bd : Nat
  off : Nat
  fmt : Nat
  colMajor : Bool
  pitch : Nat
  relu : Bool
  scaleEn : Bool
  scale : Nat
  shift : Nat
  scOff : Nat
deriving DecidableEq, Repr

/-- The payload of GDRAIN or GDCFG, its output offset raised by `delta` (R109). -/
def DrainCfg.ofBits (n delta : Nat) : DrainCfg :=
  { bd := bits n 0 12, off := bits n 12 17 + delta, fmt := bits n 29 4, colMajor := bits n 33 1 = 1,
    pitch := bits n 34 12, relu := bits n 46 1 = 1, scaleEn := bits n 47 1 = 1, scale := bits n 48 32,
    shift := bits n 80 6, scOff := bits n 86 17 }

/-- Whether an out_fmt is an integer one, and whether it is block-scaled. -/
def outInt (f : Nat) : Bool := 8 ≤ f
def outScaled (f : Nat) : Bool := 5 ≤ f ∧ f ≤ 7

/-- Bits of one output value. -/
def outBits (f : Nat) : Nat :=
  match f with
  | 0 => 32 | 1 => 16 | 2 => 16 | 3 => 8 | 4 => 8 | 5 => 8 | 6 => 8 | 7 => 4 | 8 => 32 | 9 => 16 | _ => 8

/-- The float format of an out_fmt. -/
def outFloat (f : Nat) : FFmt :=
  match f with
  | 0 => fp32 | 1 => bf16 | 2 => fp16 | 3 => e4m3 | 5 => e4m3 | 7 => e2m1 | _ => e5m2

/-- e_max of R146. -/
def outEmax (f : Nat) : Int := if f = 7 then 2 else if f = 5 then 8 else 15

/-- The halves that a half code names: west 0, east 1. -/
def halvesOf (half : Nat) : List Nat := if half = 0 then [0, 1] else [half - 1]

/-- Columns that a half code names. -/
def colsOf (half : Nat) : Nat := if half = 0 then 64 else 32

/-- Banks in the register of a core. -/
def Core.bank (c : Core) (b h : Nat) : BankHalf := look BankHalf.init c.banks (b * 2 + h)

/-- The core with a bank half replaced. -/
def Core.setBank (c : Core) (b h : Nat) (v : BankHalf) : Core :=
  { c with banks := put BankHalf.init c.banks (b * 2 + h) v }

/-- Both halves that a half code names changed. -/
def State.onBank (s : State) (p b half : Nat) (f : BankHalf → BankHalf) : State :=
  s.setCore p ((halvesOf half).foldl (fun c h => c.setBank b h (f (c.bank b h))) (s.core p))

/-! ### Decode (R114) -/

/-- A range of a buffer that a command names: its entry, offset, length and alignment. -/
structure Span where
  buf : Except Fail Buf
  index : Nat
  off : Nat
  len : Nat
  align : Nat
  write : Bool

/-- The first error of a list of checks. -/
def firstFail : List (Except Fail Unit) → Except Fail Unit
  | [] => .ok ()
  | .error f :: _ => .error f
  | .ok () :: rest => firstFail rest

/-- A check that fails with a code and detail where a condition holds. -/
def failIf (b : Bool) (code detail : Nat) : Except Fail Unit := if b then .error (code, detail) else .ok ()

/-- An entry that decodes but for its index, or not at all (R150, R151).  R114 names no code for an entry of the wrong
kind and no place for it, nor one for a poisoned entry: it fails here, before the formats (DESIGN CHOICE, log entry
156). -/
def Span.entryCheck (sp : Span) : Except Fail Unit :=
  match sp.buf with
  | .error f => if f.1 = eOob then .ok () else .error f
  | .ok _ => .ok ()

/-- The check of a span's buffer, where its entry exists. -/
def Span.on (sp : Span) (f : Buf → Except Fail Unit) : Except Fail Unit :=
  match sp.buf with
  | .error _ => .ok ()
  | .ok b => f b

/-- Whether a buffer lies outside the core's own scratchpad. -/
def outsideOwn (n : Nat) (b : Buf) : Bool :=
  b.host || match locate b.base with
    | .spm m off => decide (m ≠ n) || decide (0x400000 < off + b.length)
    | _ => true

/-- The checks of R114 from buffers to ends, in its order; `kcheck` gives those of k and pitch. -/
def State.garnetChecks (s : State) (owner n : Nat) (bankOk : Bool) (sps : List Span)
    (kcheck : Except Fail Unit) : Except Fail Unit := do
  firstFail (sps.map fun sp => sp.on Buf.reservedCheck)
  failIf (!bankOk) ePerm 0
  firstFail (sps.map fun sp => sp.on fun b => do
    failIf (outsideOwn n b) ePerm 0
    s.bufPerm owner n b sp.write)
  firstFail (sps.map fun sp => match sp.buf with
    | .error f => .error f
    | .ok b => failIf (decide (b.length < sp.off)) eOob sp.index)
  firstFail (sps.map fun sp => sp.on fun b => failIf ((b.base + sp.off) % sp.align ≠ 0) eAlign sp.index)
  kcheck
  firstFail (sps.map fun sp => sp.on fun b => failIf (decide (b.length < sp.off + sp.len)) eLen sp.index)

/-- Whether a context may use a bank (R124). -/
def State.bankOk (s : State) (n slot bank : Nat) : Bool :=
  if s.garnetRadio n && s.isRadio n then decide ((bank = 1) = (slot = 0)) else decide (slot ≠ 0)

/-- The half of a command against the context's mode (R114). -/
def halfBad (half : Nat) (mode : Bool) : Bool := half = 3 || decide ((half = 0) = (mode = true))

/-- The spans of a drain's output and its scales (R122, R123).  A drain that a GMM requests finds its output in the
table of the GMM's own list (DESIGN CHOICE, log entry 156). -/
def State.drainSpans (s : State) (c : QCmd) (l : CList) (d : DrainCfg) (cols : Nat) : List Span :=
  let b := s.planBuf c l.bufBase l.bufCount d.bd eOob
  let w := cols * outBits d.fmt / 8
  let ext := if d.colMajor then (cols - 1) * (d.pitch * 32) + 64 * (outBits d.fmt / 8) else 63 * (d.pitch * 32) + w
  { buf := b, index := d.bd, off := d.off * 32, len := ext, align := 32, write := true }
    :: (if outScaled d.fmt then
        [{ buf := b, index := d.bd, off := d.scOff * 32, len := cols * 2, align := 32, write := true }]
      else [])

/-- The pitch of a drain (R114). -/
def DrainCfg.pitchCheck (d : DrainCfg) (cols : Nat) : Except Fail Unit :=
  failIf (decide (d.pitch * 32 < (if d.colMajor then 64 else cols) * outBits d.fmt / 8)) eStride d.bd

/-- The format checks of a drain (R114). -/
def DrainCfg.fmtCheck (d : DrainCfg) : Except Fail Unit :=
  failIf (decide (10 < d.fmt) || (outScaled d.fmt && d.colMajor)) eFmt 0

/-- The duration of a GMM of `st` steps: streaming cycles and D (R115). -/
def gmmTime (fmt half st : Nat) : Nat × Nat :=
  let S := if fmt = 8 then 2 * st else if half = 0 then st else (3 * st + 1) / 2
  if st = 0 then (0, 1) else (S, S + (if half = 0 then 128 else 96))

/-- The drain payload that a GMM captures, with its out_delta (R109, R111). -/
def Ctx.gmmDrain (x : Ctx) (c : QCmd) : Option Nat :=
  if c.pay 78 1 = 1 then (let v := look 0 x.drainSlots (c.pay 79 3); if v.testBit 127 then some v else none)
  else none

/-- The operand spans of a GMM (R106, R107, R109). -/
def State.gmmSpans (s : State) (l : CList) (c : QCmd) : List Span :=
  let st := c.pay 54 16 / gmmV (c.pay 70 4)
  let half := c.pay 75 2
  let a := s.planBuf c l.bufBase l.bufCount (c.pay 0 12) eOob
  let b := s.planBuf c l.bufBase l.bufCount (c.pay 27 12) eOob
  let blocks := c.pay 54 16 / 32
  [{ buf := a, index := c.pay 0 12, off := c.pay 12 15 * 128, len := st * 128, align := 128, write := false },
   { buf := b, index := c.pay 27 12, off := c.pay 39 15 * 128, len := st * (if half = 0 then 128 else 64),
     align := 128, write := false }]
  ++ (if c.pay 82 16 = 0xFFFF then []
      else [{ buf := a, index := c.pay 0 12, off := c.pay 82 16 * 64, len := blocks * 64, align := 64, write := false }])
  ++ (if c.pay 98 16 = 0xFFFF then []
      else [{ buf := b, index := c.pay 27 12, off := c.pay 98 16 * 64, len := blocks * (if half = 0 then 64 else 32),
              align := 64, write := false }])

/-- Whether a live bank of the halves named has the other kind.  A FREE bank holds no values and has no kind, and so
has one that the work of a torn-down context still uses.  A command decoded ahead (R121) finds the kind that the bank
has at its decode (DESIGN CHOICE, log entry 156). -/
def Core.kindDiffers (c : Core) (b half : Nat) (isInt : Bool) : Bool :=
  (halvesOf half).any fun h =>
    (c.bank b h).state ≠ .free && (c.bank b h).slot ≠ 7 && (c.bank b h).isInt ≠ isInt

/-- Decode of a GMM (R114). -/
def State.gmmCheck (s : State) (p slot n : Nat) (x : Ctx) (c : QCmd) (l : CList) : Except Fail Unit := do
  let fmt := c.pay 70 4
  let half := c.pay 75 2
  let scaled := c.pay 82 16 ≠ 0xFFFF || c.pay 98 16 ≠ 0xFFFF
  let drain := x.gmmDrain c
  let cfg := drain.map fun v => DrainCfg.ofBits v (c.pay 114 14)
  let sps := s.gmmSpans l c ++ (match cfg with | some d => s.drainSpans c l d (colsOf half) | none => [])
  failIf (halfBad half x.halfMode || (c.pay 78 1 = 1 && drain.isNone)) eOpcode 0
  firstFail (sps.map Span.entryCheck)
  failIf (decide (8 < fmt)) eFmt 0
  failIf (c.pay 77 1 = 0 && (s.core p).kindDiffers (c.pay 74 1) half (gmmInt fmt)) eFmt 0
  match cfg with
  | some d => failIf (outInt d.fmt ≠ gmmInt fmt) eFmt 0
  | none => .ok ()
  failIf (scaled && !(2 ≤ fmt && fmt ≤ 6)) eFmt 0
  s.garnetChecks x.owner n (s.bankOk n slot (c.pay 74 1)) sps (do
    failIf (c.pay 54 16 % gmmV fmt ≠ 0 || (scaled && c.pay 54 16 % 32 ≠ 0)) eLen 0
    match cfg with
    | some d => d.pitchCheck (colsOf half)
    | none => .ok ())
  failIf (slot ≠ 0 && decide (s.fld F.GAR_MAX_INSTR_TIME_limit_cycles p < (gmmTime fmt half (c.pay 54 16 / gmmV fmt)).2))
    eOverrun 0

/-- Decode of a GDRAIN (R114). -/
def State.gdrainCheck (s : State) (p slot n : Nat) (x : Ctx) (c : QCmd) (l : CList) : Except Fail Unit := do
  let d := DrainCfg.ofBits (c.pay 0 128) 0
  let half := c.pay 104 2
  let sps := s.drainSpans c l d (colsOf half)
  failIf (c.pay 106 22 ≠ 0 || halfBad half x.halfMode) eOpcode 0
  firstFail (sps.map Span.entryCheck)
  d.fmtCheck
  failIf ((s.core p).kindDiffers (c.pay 103 1) half (outInt d.fmt)) eFmt 0
  s.garnetChecks x.owner n (s.bankOk n slot (c.pay 103 1)) sps (d.pitchCheck (colsOf half))

/-- Decode of a GDCFG: its buffer is checked for the columns of the context's mode (R114). -/
def State.gdcfgCheck (s : State) (slot n : Nat) (x : Ctx) (c : QCmd) (l : CList) : Except Fail Unit := do
  let d := DrainCfg.ofBits (c.pay 0 128) 0
  let cols := if x.halfMode then 32 else 64
  let sps := s.drainSpans c l d cols
  failIf (c.pay 103 3 ≠ 0 || c.pay 109 19 ≠ 0) eOpcode 0
  firstFail (sps.map Span.entryCheck)
  d.fmtCheck
  s.garnetChecks x.owner n (s.bankOk n slot (if slot = 0 then 1 else 0)) sps (d.pitchCheck cols)

/-- Bytes of a preload source value (R112). -/
def preBytes (f : Nat) : Nat := if f = 1 then 2 else 4

/-- The span of a preload source (R112). -/
def State.preSpan (s : State) (l : CList) (c : QCmd) : Span :=
  let w := colsOf (c.pay 46 2) * preBytes (c.pay 29 3)
  { buf := s.planBuf c l.bufBase l.bufCount (c.pay 0 12) eOob, index := c.pay 0 12, off := c.pay 12 17 * 32,
    len := if c.pay 32 1 = 1 then w else 63 * (c.pay 33 12 * 32) + w, align := 32, write := false }

/-- Decode of a GPRELOAD (R114). -/
def State.preloadCheck (s : State) (slot n : Nat) (x : Ctx) (c : QCmd) (l : CList) : Except Fail Unit := do
  let sp := s.preSpan l c
  failIf (c.pay 48 80 ≠ 0 || halfBad (c.pay 46 2) x.halfMode) eOpcode 0
  sp.entryCheck
  failIf (decide (2 < c.pay 29 3)) eFmt 0
  s.garnetChecks x.owner n (s.bankOk n slot (c.pay 45 1)) [sp]
    (failIf (c.pay 32 1 = 0 && decide (c.pay 33 12 * 32 < colsOf (c.pay 46 2) * preBytes (c.pay 29 3))) eStride (c.pay 0 12))

/-! ### The start of a Garnet command -/

/-- The buffer entries among spans. -/
def spanPlan (sps : List Span) : Plan :=
  { bufs := sps.filterMap fun sp => match sp.buf with | .ok b => some b | .error _ => none, tensors := [] }

/-- A command that Garnet issues acts; in the yield window it is the one that R46 still allows. -/
def State.garnetAct (s : State) (p slot : Nat) (act : State → State) : State :=
  let s := if slot ≠ 0 ∧ s.fld F.CORE_LEASE_STATUS_phase p = 1 then s.setCore p { s.core p with lateIssue := true } else s
  (act s).settle

/-- A Garnet command (R120, R121): the one that stands before issue issues unless `hold` holds it.  Otherwise the next
to start is decoded, once (R150), its granules are claimed (R194), and it issues in turn, or stands before issue.
GAR_ISSUE_CTL keeps a rental command from its start. -/
def State.garnet (s : State) (p slot op : Nat) (hold : Ctx → QCmd → Bool)
    (check : Nat → Ctx → QCmd → CList → Except Fail Unit) (bufs : Ctx → QCmd → CList → List Span)
    (act : Nat → Ctx → QCmd → CList → State → State) : State :=
  match s.logicalOf p, (s.issuable p slot op).filter fun (x, c) => !hold x c with
  | some n, some (x, c) =>
    match x.listOf c with
    | none => s
    | some l => s.garnetAct p slot (act n x c l)
  | some n, none =>
    match s.startOp p slot 0 op with
    | none => s
    | some (x, c) =>
      match x.listOf c with
      | none => s
      | some l =>
        if slot ≠ 0 ∧ s.fld F.GAR_ISSUE_CTL_rental_hold p = 1 then s
        else match (if c.plan.isSome then .ok () else check n x c l) with
          | .error f => s.failSettle p slot c f
          | .ok () =>
            let d := spanPlan (bufs x c l)
            let (own, clm) := claimSets n d.bufs
            if slot ≠ 0 ∧ !s.claimable p slot x.owner own clm then
              (s.onCmd p slot c.seq fun c => { c with plan := some d }).holdClaim p slot c.seq own clm
            else
              let s := if slot ≠ 0 then s.claimAll p slot x.owner own clm else s
              let c' := { c with claim := false, plan := some d }
              let s := s.onCmd p slot c.seq fun _ => c'
              if x.issuing.isSome || hold x c then s.settle else s.garnetAct p slot (act n x c' l)
  | none, _ => s

/-! ### The array (R137 to R141) -/

/-- Element e of a unit of 16 bits. -/
def unitElem (v unit e : Nat) : Nat := bits unit (e * (16 / v)) (16 / v)

/-- The scale byte of row or column i for step g, or 127 without scales. -/
def State.scaleByte (s : State) (base : Option Nat) (line v g i : Nat) : Nat :=
  match base with
  | none => 127
  | some a => (s.byte (a + g * v / 32 * line + i)).toNat

/-- Where a GMM finds its operands. -/
structure GmmSrc where
  fmt : Nat
  steps : Nat
  a : Nat
  b : Nat
  bLine : Nat
  aScale : Option Nat
  bScale : Option Nat
  bScaleLine : Nat

/-- The unit of row i of A in step g, and of column j of B. -/
def State.aUnit (s : State) (m : GmmSrc) (g i : Nat) : Nat := leNat (s.bytesAt (m.a + g * 128 + 2 * i) 2)
def State.bUnit (s : State) (m : GmmSrc) (g j : Nat) : Nat := leNat (s.bytesAt (m.b + g * m.bLine + 2 * j) 2)

/-- One float step of a cell (R137). -/
def State.floatStep (s : State) (m : GmmSrc) (fa fb : FFmt) (i j : Nat) (acc g : Nat) : Nat :=
  let v := gmmV m.fmt
  let sc := (scaleVal (s.scaleByte m.aScale 64 v g i)).mul (scaleVal (s.scaleByte m.bScale m.bScaleLine v g j))
  let ps := (List.range v).map fun e =>
    ((fa.decode (unitElem v (s.aUnit m g i) e)).mul (fb.decode (unitElem v (s.bUnit m g j) e))).mul sc
  fp32.arith (Val.sum (fp32.decode acc :: ps))

/-- One integer step of a cell (R140): the new pattern, and whether it saturated. -/
def State.intStep (s : State) (m : GmmSrc) (i j : Nat) (acc : Nat × Bool) (g : Nat) : Nat × Bool :=
  let v := gmmV m.fmt
  let w := 16 / v
  let t := (List.range v).foldl (fun t e =>
    t + toSigned w (unitElem v (s.aUnit m g i) e) * toSigned w (unitElem v (s.bUnit m g j) e)) (toSigned 32 acc.1)
  (ofSigned 32 (satSigned 32 t), acc.2 || decide (satSigned 32 t ≠ t))

/-- A cell after a GMM (R141): steps in ascending order. -/
def State.cellResult (s : State) (m : GmmSrc) (i j acc : Nat) : Nat × Bool :=
  match gmmFloat m.fmt with
  | some (fa, fb) => ((List.range m.steps).foldl (s.floatStep m fa fb i j) acc, false)
  | none => (List.range m.steps).foldl (s.intStep m i j) (acc, false)

/-- 64 rows of 32 columns as a map, each value given by row and column. -/
def gridOf (f : Nat → Nat → Nat) : SMap Nat :=
  (List.range 2048).filterMap fun q => let v := f (q / 32) (q % 32); if v = 0 then none else some (q, v)

/-- The half `h` of the array after a GMM: its contents, and whether a cell saturated; `j0` is the column
of the slab that its column 0 takes. -/
def State.halfResult (s : State) (m : GmmSrc) (zero : Bool) (old : BankHalf) (j0 : Nat) : SMap Nat × Bool :=
  let start (q : Nat) : Nat := if zero ∨ old.state = .free then 0 else look 0 old.acc q
  let cell (q : Nat) : Nat × Bool := s.cellResult m (q / 32) (q % 32 + j0) (start q)
  ((List.range 2048).filterMap fun q => let v := (cell q).1; if v = 0 then none else some (q, v),
   (List.range 2048).any fun q => (cell q).2)

/-! ### Faults (R128, R130) -/

/-- A fault of one half code: counted, its bank poisoned, reported to health. -/
def State.garFault (s : State) (p slot bank half : Nat) (kind : GarFault) : State :=
  let s := s.onBank p bank half fun b => { b with poison := true }
  let s := (s.setFld F.GAR_FAULT_last_slot p slot).setFld F.GAR_FAULT_last_half p half
  match kind with
  | .poisonIn => s.count F.GAR_FAULT_poison_in p 1
  | _ => (s.count (if half = 2 then F.GAR_FAULT_east_faults else F.GAR_FAULT_west_faults) p 1).useFault p

/-- What a fault of the first entry of a list does to the entries: it completes flagged, and so do the GMMs chained on
its bank up to one that does not add to what the bank held (R128, R130). -/
def flagChain (bank half : Nat) : List InArray → List InArray
  | [] => []
  | a :: l =>
    if a.bank ≠ bank ∨ a.half ≠ half then a :: flagChain bank half l
    else if a.adds then { a with poison := true } :: flagChain bank half l
    else a :: l

/-- The array after a fault of the GMM longest under way in a half. -/
def faultArray (half : Nat) : List InArray → List InArray
  | [] => []
  | a :: l => if a.half = half then { a with poison := true } :: flagChain a.bank half l else a :: faultArray half l

/-- GARNET_FAULT (R128, R130): in the array, the GMM longest under way in that half is struck. -/
def execGarnetFault (p half : Nat) (kind : GarFault) (s : State) : Host.Outcome State Fault Refusal :=
  done <| match (s.core p).array.find? fun a => a.half = half with
    | some a =>
      let c := s.core p
      (s.setCore p { c with array := faultArray half c.array }).garFault p a.from' a.bank half kind
    | none => s

/-! ### Saturation counts (R149) -/

/-- GAR_SAT_COUNT counts a command once in a field. -/
def State.satCount (s : State) (f : Fld) (p slot : Nat) (b : Bool) : State :=
  if b then (s.count f p 1).setFld F.GAR_SAT_COUNT_last_slot p slot else s

/-! ### GMM -/

/-- Whether work of the other side, radio or rental, is still in the array or drains: the array changes to this side's
mode only after it (R129). -/
def Core.otherSide (c : Core) (slot : Nat) : Bool :=
  (c.array.any fun a => decide ((a.slot = 0) ≠ (slot = 0)))
    || c.port.any fun q => !q.preload && decide ((q.slot = 0) ≠ (slot = 0))

/-- Whether a GMM holds (R120): the state of its bank and of the other bank; a bank that the work of a torn-down
context uses is not yet FREE (R126).  A GMM with zero = 1 chains on an ACCUM bank of the other kind too, for R120 has no
row that holds it (DESIGN CHOICE, log entry 156). -/
def Core.gmmHolds (c : Core) (slot bank half : Nat) : Bool :=
  c.otherSide slot || (halvesOf half).any fun h =>
    let b := c.bank bank h
    let prev := (c.array.reverse.find? fun a => a.bank = bank ∧ (halvesOf a.half).contains h)
    b.state = .loading || b.state = .draining || b.state = .pending || (b.state ≠ .free && b.slot = 7)
      || (b.state = .accum && prev.any fun a => a.drain.isSome)
      || (c.bank (1 - bank) h).state = .accum

/-- The source of a GMM whose spans are good. -/
def State.gmmSrc (s : State) (l : CList) (c : QCmd) : GmmSrc :=
  let base (i : Nat) : Nat := match s.planBuf c l.bufBase l.bufCount i eOob with | .ok b => b.base | .error _ => 0
  let half := c.pay 75 2
  { fmt := c.pay 70 4, steps := c.pay 54 16 / gmmV (c.pay 70 4), a := base (c.pay 0 12) + c.pay 12 15 * 128,
    b := base (c.pay 27 12) + c.pay 39 15 * 128, bLine := if half = 0 then 128 else 64,
    aScale := if c.pay 82 16 = 0xFFFF then none else some (base (c.pay 0 12) + c.pay 82 16 * 64),
    bScale := if c.pay 98 16 = 0xFFFF then none else some (base (c.pay 27 12) + c.pay 98 16 * 64),
    bScaleLine := if half = 0 then 64 else 32 }

/-- Whether an operand line of a GMM carries poison. -/
def State.gmmPoison (s : State) (l : CList) (c : QCmd) : Bool :=
  (s.gmmSpans l c).any fun sp => match sp.buf with
    | .ok b => s.anyPoison (b.base + sp.off) sp.len
    | .error _ => false

/-- A drain payload as the port holds it: that of R111, with the output offset, raised by out_delta, above
bit 128. -/
def portPayload (delta v : Nat) : Nat := v - bits v 12 17 * 2 ^ 12 + 2 ^ 128 * (bits v 12 17 + delta)

/-- The base of the output buffer of a command's drain, as its plan holds it (R150). -/
def State.outBase (s : State) (c : QCmd) (l : CList) (bd : Nat) : Nat :=
  match s.planBuf c l.bufBase l.bufCount bd eOob with
  | .ok b => b.base
  | .error _ => 0

/-- What a GMM puts into the array: the drain that it captures, and whether it completes flagged, for an operand line
or the bank that it adds to is poisoned (R111, R130). -/
def State.inArray (s : State) (p slot : Nat) (x : Ctx) (c : QCmd) (l : CList) : InArray :=
  let bank := c.pay 74 1
  let half := c.pay 75 2
  let drain := x.gmmDrain c
  { slot := slot, from' := slot, seq := c.seq, bank := bank, half := half, drain := drain.map (portPayload (c.pay 114 14)),
    base := match drain with | some v => s.outBase c l (bits v 0 12) | none => 0
    adds := c.pay 77 1 = 0
    poison := s.gmmPoison l c
      || (c.pay 77 1 = 0 && (halvesOf half).any fun h => ((s.core p).bank bank h).poison) }

/-- A GMM issues: its result is formed, and its wavefronts enter the array (R115, R118, R141). -/
def State.gmmIssue (s : State) (p slot : Nat) (x : Ctx) (c : QCmd) (l : CList) : State :=
  let m := s.gmmSrc l c
  let bank := c.pay 74 1
  let half := c.pay 75 2
  let zero := c.pay 77 1 = 1
  let res := (halvesOf half).map fun h =>
    (h, s.halfResult m zero ((s.core p).bank bank h) (if half = 0 then 32 * h else 0))
  let bad := s.gmmPoison l c
  let entry := s.inArray p slot x c l
  let s1 := res.foldl (fun s r =>
    let old := (s.core p).bank bank r.1
    s.setCore p ((s.core p).setBank bank r.1
      { state := .accum, poison := !zero && old.poison, isInt := gmmInt m.fmt, slot := slot, acc := r.2.1 })) s
  let s2 := s1.setCore p { s1.core p with array := (s1.core p).array ++ [entry] }
  let s3 := if bad then s2.garFault p slot bank half .poisonIn else s2
  let s4 := s3.satCount F.GAR_SAT_COUNT_accum_sat p slot (res.any fun r => r.2.2)
  let (bub, s5) := s4.free
  ((s5.count F.GAR_STREAM_CYCLES_count p (gmmTime m.fmt half m.steps).1).count
    F.GAR_BUBBLE_CYCLES_count p bub).begin p slot c.seq

/-- GMM (R109, R115 to R120). -/
def execGmm (p slot : Nat) (s : State) : Host.Outcome State Fault Refusal :=
  done (s.garnet p slot 1 (fun _ c => (s.core p).gmmHolds slot (c.pay 74 1) (c.pay 75 2))
    (fun n x c l => s.gmmCheck p slot n x c l)
    (fun x c l => s.gmmSpans l c ++ (match x.gmmDrain c with
      | some v => s.drainSpans c l (DrainCfg.ofBits v (c.pay 114 14)) (colsOf (c.pay 75 2))
      | none => []))
    fun _ x c l s => s.gmmIssue p slot x c l)

/-! ### The drain port (R120) -/

/-- Lanes that a half code needs, as bits. -/
def lanes (half : Nat) : Nat := if half = 0 then 3 else half

/-- Whether request `i` of the port may start: no earlier request shares a lane with it. -/
def portFree (q : List PortReq) (i half : Nat) : Bool :=
  (q.take i).all fun r => lanes r.half &&& lanes half = 0

/-- A request that joins the port; it starts at once when its lanes are free. -/
def State.joinPort (s : State) (p : Nat) (r : PortReq) : State :=
  let c := s.core p
  let go := portFree c.port c.port.length r.half
  let s := s.setCore p { c with port := c.port ++ [{ r with started := go }] }
  s.onBank p r.bank r.half fun b =>
    { b with state := if r.preload then .loading else if go then .draining else .pending }

/-- A bank whose work has ended without a drain: LOADED, or FREE when its context has been torn down (R119, R126). -/
def BankHalf.left (b : BankHalf) : BankHalf := if b.slot = 7 then BankHalf.init else { b with state := .loaded }

/-- GMM_LAST_WAVEFRONT (R119, R121): the oldest GMM of a half code leaves the array. -/
def execGmmLastWavefront (p half : Nat) (s : State) : Host.Outcome State Fault Refusal :=
  done <| match (s.core p).array.find? fun a => a.half = half with
    | none => s
    | some a =>
      let c := s.core p
      let rest := c.array.filter fun b => !(b.slot = a.slot && b.seq = a.seq)
      let s := s.setCore p { c with array := rest }
      match a.drain with
      | some d =>
        (s.joinPort p { slot := a.slot, from' := a.from', seq := a.seq, bank := a.bank, half := half, preload := false,
                        payload := d, base := a.base, started := false }).settle
      | none =>
        let s := if rest.any fun b => b.bank = a.bank && b.half = half then s
          else s.onBank p a.bank half fun b => b.left
        (s.worked p a.slot a.seq a.poison).settle

/-! ### Drains (R122, R123, R145 to R147) -/

/-- A drain payload as the port holds it: that of R111, with the output offset above bit 128. -/
def DrainCfg.ofPort (n : Nat) : DrainCfg :=
  let d := DrainCfg.ofBits n 0
  { d with off := d.off + n / 2 ^ 128 }

/-- A float value of a bank through steps 1 and 3 of R123. -/
def DrainCfg.floatVal (d : DrainCfg) (x : Nat) : Val :=
  let v := fp32.decode x
  let v := if d.scaleEn then fp32.decode (fp32.arith (v.mul (fp32.decode d.scale))) else v
  if d.relu && v.isNeg then .fin false 0 0 else v

/-- An integer value of a bank through steps 2 to 4 of R123. -/
def DrainCfg.intVal (d : DrainCfg) (x : Nat) : Nat × Bool :=
  let v := toSigned 32 x
  narrowInt (outBits d.fmt) (if d.relu && decide (v < 0) then 0 else v) d.shift

/-- One row of a drain: the patterns of its values, its scale bytes, whether a value saturated, and
whether NaN, infinity or the scale 0xFF was written. -/
def DrainCfg.row (d : DrainCfg) (xs : List Nat) : List Nat × List Nat × Bool × Bool :=
  if outInt d.fmt then
    let rs := xs.map d.intVal
    (rs.map (·.1), [], rs.any (·.2), false)
  else
    let vs := xs.map d.floatVal
    let f := outFloat d.fmt
    if outScaled d.fmt then
      let bs := (List.range (vs.length / 32)).map fun i => blockScale f (outEmax d.fmt) ((vs.drop (32 * i)).take 32)
      (bs.flatMap (·.2.1), bs.map (·.1), bs.any (·.2.2.1), bs.any (·.2.2.2))
    else
      let rs := vs.map f.convert
      let special := (vs.zip rs).any fun q => match q.1 with
        | .nan => f.nan.isSome
        | .inf _ => f.inf.isSome
        | _ => false
      (rs.map (·.1), [], rs.any (·.2), special)

/-- Values packed into bytes, least significant first; pairs of 4-bit values share a byte. -/
def packVals (w : Nat) (xs : List Nat) : Bytes :=
  leBytes (xs.length * w / 8) (xs.zipIdx.foldl (fun n q => n + q.1 * 2 ^ (w * q.2)) 0)

/-- What a drain writes: pieces (offset in the output buffer, bytes), the bytes that its digest covers, and
the flags of R149. -/
structure DrainOut where
  pieces : List (Nat × Bytes)
  digest : Bytes
  sat : Bool
  special : Bool

/-- The value of a bank at a row and a column of the tile. -/
def Core.cell (c : Core) (bank half i j : Nat) : Nat :=
  let h := if half = 0 then j / 32 else half - 1
  look 0 (c.bank bank h).acc (i * 32 + j % 32)

/-- The output of a drain of one bank (R122, R123, R378). -/
def Core.drainOut (c : Core) (bank half : Nat) (d : DrainCfg) : DrainOut :=
  let cols := colsOf half
  let rows := (List.range 64).map fun i => d.row ((List.range cols).map fun j => c.cell bank half i j)
  let w := outBits d.fmt
  let data := if d.colMajor then
      (List.range cols).map fun j =>
        (d.off * 32 + j * (d.pitch * 32), packVals w (rows.map fun r => r.1.getD j 0))
    else rows.zipIdx.map fun q => (d.off * 32 + q.2 * (d.pitch * 32), packVals w q.1.1)
  let scales := rows.flatMap fun r => r.2.1
  let scBytes : Bytes := scales.map (BitVec.ofNat 8)
  { pieces := data ++ (if outScaled d.fmt then [(d.scOff * 32, scBytes)] else []),
    digest := (rows.flatMap fun r => packVals w r.1) ++ scBytes,
    sat := rows.any fun r => r.2.2.1,
    special := rows.any fun r => r.2.2.2 }

/-- A drain ends (R119, R122, R130, R378): its output is written, its bank is FREE, its command done. -/
def State.finishDrain (s : State) (p : Nat) (r : PortReq) : State :=
  let d := DrainCfg.ofPort r.payload
  let o : DrainOut := (s.core p).drainOut r.bank r.half d
  let bad := (halvesOf r.half).any fun h => ((s.core p).bank r.bank h).poison
  let s := o.pieces.foldl (fun (t : State) (q : Nat × Bytes) => t.writeMem (r.base + q.1) q.2 bad) s
  let s := s.satCount F.GAR_SAT_COUNT_drain_sat p r.from' o.sat
  let s := s.satCount F.GAR_SAT_COUNT_drain_special p r.from' o.special
  let s := s.setCore p ((halvesOf r.half).foldl (fun c h => c.setBank r.bank h BankHalf.init) (s.core p))
  let s := s.onCmd p r.slot r.seq fun c =>
    if c.digest then { c with digests := [{ crc := crc64 o.digest, bytes := o.digest.length, poison := bad }] } else c
  s.worked p r.slot r.seq bad

/-- The port without a request. -/
def State.leavePort (s : State) (p : Nat) (r : PortReq) : State :=
  s.setCore p { s.core p with port := (s.core p).port.erase r }

/-- DRAIN_START (R119, R120): the oldest PENDING drain of a half code starts when its lanes are free. -/
def execDrainStart (p half : Nat) (s : State) : Host.Outcome State Fault Refusal :=
  done <|
    let q := (s.core p).port
    match q.zipIdx.find? fun r => !r.1.started && r.1.half = half with
    | some (r, i) =>
      if portFree q i half then
        (s.setCore p { s.core p with port := q.set i { r with started := true } }).onBank p r.bank half
          fun b => { b with state := .draining }
      else s
    | none => s

/-- DRAIN_END (R119, R122). -/
def execDrainEnd (p half : Nat) (s : State) : Host.Outcome State Fault Refusal :=
  done <| match (s.core p).port.find? fun r => r.started && !r.preload && r.half = half with
    | some r => ((s.leavePort p r).finishDrain p r).settle
    | none => s

/-- PRELOAD_END (R119). -/
def execPreloadEnd (p half : Nat) (s : State) : Host.Outcome State Fault Refusal :=
  done <| match (s.core p).port.find? fun r => r.preload && r.half = half with
    | some r =>
      let bad := (halvesOf half).any fun h => ((s.core p).bank r.bank h).poison
      (((s.leavePort p r).onBank p r.bank half fun b => b.left).worked p r.slot r.seq bad).settle
    | none => s

/-! ### GDRAIN, GPRELOAD, GDCFG, GMODE -/

/-- Whether a GDRAIN or GPRELOAD holds (R120): its bank FREE or LOADED, its lanes free.  It asks for its lanes when it
starts, so a drain that a GMM requests while it holds goes first (DESIGN CHOICE, log entry 156). -/
def Core.portHolds (c : Core) (slot bank half : Nat) : Bool :=
  c.otherSide slot || ((halvesOf half).any fun h => (c.bank bank h).state ≠ .free && (c.bank bank h).state ≠ .loaded)
    || !portFree c.port c.port.length half

/-- GDRAIN (R111, R120). -/
def execGdrain (p slot : Nat) (s : State) : Host.Outcome State Fault Refusal :=
  done (s.garnet p slot 2 (fun _ c => (s.core p).portHolds slot (c.pay 103 1) (c.pay 104 2))
    (fun n x c l => s.gdrainCheck p slot n x c l)
    (fun _ c l => s.drainSpans c l (DrainCfg.ofBits (c.pay 0 128) 0) (colsOf (c.pay 104 2)))
    fun _ _ c l s =>
      let s := s.onBank p (c.pay 103 1) (c.pay 104 2) fun b => { b with slot := slot }
      (s.joinPort p { slot := slot, from' := slot, seq := c.seq, bank := c.pay 103 1, half := c.pay 104 2, preload := false,
                      payload := c.pay 0 103, base := s.outBase c l (c.pay 0 12), started := false }).begin p slot c.seq)

/-- The value that a preload gives to a row and a column of its tile (R112). -/
def State.preValue (s : State) (base : Nat) (c : QCmd) (i j : Nat) : Nat :=
  let w := preBytes (c.pay 29 3)
  let row := if c.pay 32 1 = 1 then 0 else i * (c.pay 33 12 * 32)
  let v := leNat (s.bytesAt (base + c.pay 12 17 * 32 + row + j * w) w)
  if c.pay 29 3 = 1 then v * 2 ^ 16 else v

/-- Whether a preload reads a poisoned line (R130): of the rows that it reads. -/
def State.prePoison (s : State) (base : Nat) (c : QCmd) : Bool :=
  let w := colsOf (c.pay 46 2) * preBytes (c.pay 29 3)
  (List.range (if c.pay 32 1 = 1 then 1 else 64)).any fun i =>
    s.anyPoison (base + c.pay 12 17 * 32 + i * (c.pay 33 12 * 32)) w

/-- GPRELOAD (R112, R119, R130): the bank is loaded; it stays LOADING until PRELOAD_END. -/
def execGpreload (p slot : Nat) (s : State) : Host.Outcome State Fault Refusal :=
  done (s.garnet p slot 3 (fun _ c => (s.core p).portHolds slot (c.pay 45 1) (c.pay 46 2))
    (fun n x c l => s.preloadCheck slot n x c l)
    (fun _ c l => [s.preSpan l c])
    fun _ _ c l s =>
      let half := c.pay 46 2
      let base := s.outBase c l (c.pay 0 12)
      let bad := s.prePoison base c
      let s := (halvesOf half).foldl (fun s h =>
        s.setCore p ((s.core p).setBank (c.pay 45 1) h
          { state := .loading, poison := bad, isInt := c.pay 29 3 = 2, slot := slot,
            acc := gridOf fun i j => s.preValue base c i (if half = 0 then 32 * h + j else j) })) s
      (s.joinPort p { slot := slot, from' := slot, seq := c.seq, bank := c.pay 45 1, half := half, preload := true,
                      payload := 0, base := base, started := false }).begin p slot c.seq)

/-- GDCFG (R111): bit 127 of a held drain slot marks it valid. -/
def execGdcfg (p slot : Nat) (s : State) : Host.Outcome State Fault Refusal :=
  done (s.garnet p slot 4 (fun _ _ => false)
    (fun n x c l => s.gdcfgCheck slot n x c l)
    (fun x c l => s.drainSpans c l (DrainCfg.ofBits (c.pay 0 128) 0) (if x.halfMode then 32 else 64))
    fun _ _ c _ s =>
      (s.onCtx p slot fun x =>
        { x with drainSlots := put 0 x.drainSlots (c.pay 106 3) (c.pay 0 103 + 2 ^ 127) }).worked p slot c.seq false)

/-- GMODE (R113): it starts, and so is decoded, only once every earlier Garnet command of its context has
completed. -/
def execGmode (p slot : Nat) (s : State) : Host.Outcome State Fault Refusal :=
  done <| if (s.startOp p slot 0 5).all fun (x, c) => (x.queueOf 0).head?.map (·.seq) ≠ some c.seq then s
  else (s.garnet p slot 5 (fun _ _ => false)
    (fun n _ c _ => do
      failIf (c.pay 1 127 ≠ 0) eOpcode 0
      failIf (!s.bankOk n slot (if slot = 0 then 1 else 0)) ePerm 0)
    (fun _ _ _ => [])
    fun _ _ c _ s =>
      let s := s.setCore p ((s.core p).freeBanks slot)
      (s.onCtx p slot fun x => { x with halfMode := c.pay 0 1 = 1 }).worked p slot c.seq false)

/-! ### The overrun of R49 -/

/-- The bytes that a drain cut short leaves: each memory line old, or with the bytes of the drain and no tag, as free
values say (R49).  A line that keeps its bytes keeps its tag: the drain marks none (DESIGN CHOICE, log entry 153). -/
def State.cutShort (s : State) (base : Nat) (pieces : List (Nat × Bytes)) : State :=
  let bs := pieces.flatMap fun q => q.2.zipIdx.map fun b => (base + q.1 + b.2, b.1)
  ((bs.map fun b => b.1 / 64).eraseDups).foldl (fun s l =>
    let (v, s) := s.free
    if v % 2 = 1 then
      let mine := bs.filter fun b => b.1 / 64 = l
      let s := mine.foldl (fun s b => s.setByte b.1 b.2) s
      if mine.length = 64 then s.setPoison (l * 64) false else s
    else s) s

/-- The rental work that R49 aborts, as (slot, slot that asked, command): the commands that hold the array, and the port
with their drains.  A preload ends by itself (R119). -/
def Core.rentalWork (c : Core) : List (Nat × Nat × Nat) :=
  ((c.array.filter fun a => a.slot ≠ 0).map fun a => (a.slot, a.from', a.seq))
    ++ (c.port.filter fun q => q.slot ≠ 0 && !q.preload).map fun q => (q.slot, q.from', q.seq)

/-- The rental Garnet instruction whose abort R49 reports: the first of a context that stands, else of one that has been
torn down. -/
def Core.offender (c : Core) : Option (Nat × Nat × Nat) :=
  match c.rentalWork.find? fun w => w.1 ≠ 7 with
  | some w => some w
  | none => c.rentalWork.head?

/-- YIELD_OVERRUN (R49).  The aborted bank keeps the whole result of its GMM, LOADED and poisoned: the manual does not
say which values it holds (DESIGN CHOICE, log entry 153).  Work of a context already torn down is aborted likewise; its
bank is FREE, as R126 has it once the work is over. -/
def execYieldOverrun (p : Nat) (s : State) : Host.Outcome State Fault Refusal :=
  done <| match (s.core p).offender with
    | none => s
    | some (slot, issuer, seq) =>
      if s.fld F.CORE_LEASE_STATUS_phase p ≠ 1 ∨ bitOf (s.core p).yielded 0 then s
      else
        let c := s.core p
        let drains := c.port.filter fun q => q.slot ≠ 0 && !q.preload
        let work := (c.array.filter fun a => a.slot ≠ 0).map (fun a => (a.bank, a.half)) ++ drains.map fun q => (q.bank, q.half)
        let s := (drains.filter (·.started)).foldl (fun s q =>
          s.cutShort q.base (c.drainOut q.bank q.half (DrainCfg.ofPort q.payload)).pieces) s
        let s := s.setCore p { c with array := c.array.filter fun a => a.slot = 0,
                                      port := c.port.filter fun q => q.slot = 0 || q.preload }
        let s := work.foldl (fun s w => s.onBank p w.1 w.2 fun b =>
          if b.slot = 7 then BankHalf.init else { b with state := .loaded, poison := true }) s
        let owner := ((s.ctx p slot).map (·.owner)).getD 0x1FF
        let cmd := (s.ctx p slot).bind fun x => x.cmd seq
        let torn := decide (owner < 256) && s.cutBits 6 owner 80 1 = 1
        let s := (s.count F.CORE_TICK_OVERRUN_count p 1).setFld F.CORE_TICK_OVERRUN_last_slot p issuer
        let s := s.setFld F.CORE_TICK_OVERRUN_last_torn_down p (if torn ∨ slot = 7 then 1 else 0)
        let s := s.healthEvent F.HLTH_EVENT_overrun p
        let s := if torn then s.teardown p slot eOverrun 0 cmd
          else c.rentalWork.foldl (fun s w => match (s.ctx p w.1).bind fun x => x.cmd w.2.2 with
            | some c => s.skip p w.1 c eOverrun 0 c.signals
            | none => s) s
        let (v, s) := s.free
        (s.markYield p 0 (1741 + v % 10)).afterRelease p

end Sys2Proof.Machine
end

