-- ==== Sys2Proof/Machine/Lanes.lean ====
section
/-!
DEFINITION. Beryl's lane arithmetic (R142, R240, R250 to R252): lanes of a register, integer and complex
components, floats, and the correctly rounded functions.
-/
namespace Sys2Proof.Machine

/-! ### Lanes (R240) -/

/-- Lane `i` of width `w`. -/
def lane (v w i : Nat) : Nat := bits v (w * i) w

/-- The first `n` lanes of width `w`. -/
def laneList (v w n : Nat) : List Nat := (List.range n).map fun i => lane v w i

/-- Lanes joined, the first lowest. -/
def joinLanes (w : Nat) : List Nat → Nat
  | [] => 0
  | x :: xs => x % 2 ^ w + 2 ^ w * joinLanes w xs

/-- Lanes written where their mask bit is 1 (R249). -/
def mergeLanes (on : Bool) (mask : Nat) (old new : List Nat) : List Nat :=
  (old.zip new).zipIdx.map fun x => if on && !bitOf mask x.2 then x.1.1 else x.1.2

/-! ### Integer components (R142, R250) -/

/-- A 16-bit component as a signed number. -/
def s16 (x : Nat) : Int := toSigned 16 x

/-- Real and imaginary parts of a complex INT16 lane (R135). -/
def cplx (x : Nat) : Int × Int := (s16 x, s16 (x >>> 16))

/-- The product of complex numbers, the first conjugated on request. -/
def cmul (conj : Bool) (a b : Int × Int) : Int × Int :=
  let i := if conj then -a.2 else a.2
  (a.1 * b.1 - i * b.2, a.1 * b.2 + i * b.1)

/-- A component saturated to `w` bits: its pattern, and whether it saturated. -/
def satBits (w : Nat) (x : Int) : Nat × Bool := (ofSigned w (satSigned w x), decide (satSigned w x ≠ x))

/-- A complex number narrowed to INT16 after a right shift (R143, R250). -/
def narrowC (z : Int × Int) (shift : Nat) : Nat × Bool :=
  let r := narrowInt 16 z.1 shift
  let i := narrowInt 16 z.2 shift
  (r.1 + 2 ^ 16 * i.1, r.2 || i.2)

/-- The redundant sign bits of a 16-bit element: bits after the sign that equal it, before the first that
does not. -/
def signBits (x : Nat) : Nat :=
  let m := if bitOf x 15 then 2 ^ 16 - 1 - x % 2 ^ 16 else x % 2 ^ 16
  if m = 0 then 15 else 14 - Nat.log2 m

/-! ### Floats (R251) -/

/-- The larger of two values, +0 above -0; NaN where either is. -/
def Val.fmax (a b : Val) : Val :=
  if a = .nan ∨ b = .nan then .nan
  else
    let lt (x y : Val) : Bool := match x, y with
      | .inf nx, .inf ny => nx && !ny
      | .inf nx, _ => nx
      | _, .inf ny => !ny
      | x, y =>
        if x.isZero ∧ y.isZero then x.isNeg && !y.isNeg
        else if x.isZero then !y.isNeg
        else if y.isZero then x.isNeg
        else if x.isNeg ≠ y.isNeg then x.isNeg
        else if x.isNeg then y.magLt x
        else x.magLt y
    if lt a b then b else a

/-- The smaller of two values, -0 below +0; NaN where either is. -/
def Val.fmin (a b : Val) : Val := (a.neg.fmax b.neg).neg

/-- Whether two values are equal: -0 equals +0, NaN equals nothing. -/
def Val.feq (a b : Val) : Bool :=
  match a, b with
  | .nan, _ => false
  | _, .nan => false
  | .inf x, .inf y => x = y
  | .fin _ _ _, .fin _ _ _ => (Val.sum [a, b.neg]).isZero
  | _, _ => false

/-- Whether one value lies below another. -/
def Val.flt (a b : Val) : Bool :=
  if a = .nan ∨ b = .nan then false else !a.feq b && decide (a.fmax b = b)

/-- The conditions of FCMP. -/
def fcond (cond : Nat) (a b : Val) : Bool :=
  match cond with
  | 0 => a.feq b
  | 1 => a.flt b
  | 2 => a.flt b || a.feq b
  | 3 => decide (a = .nan) || decide (b = .nan)
  | _ => !a.feq b

/-- The reduction of lanes in a fixed binary tree over ascending lane numbers (R142). -/
def treeReduce (op : Nat → Nat → Nat) : Nat → List Nat → Nat
  | 0, xs => xs.headD 0
  | fuel + 1, xs =>
    let rec pairs : List Nat → List Nat
      | x :: y :: zs => op x y :: pairs zs
      | zs => zs
    treeReduce op fuel (pairs xs)

/-! ### Functions rounded once (R251) -/

/-- The integer square root, bit by bit from bit `k`. -/
def isqrt (n : Nat) : Nat → Nat → Nat
  | 0, r => if (r + 1) * (r + 1) ≤ n then r + 1 else r
  | k + 1, r =>
    let t := r + 2 ^ (k + 1)
    isqrt n k (if t * t ≤ n then t else r)

/-- A magnitude `q` times 2 ^ e, with more below it when `more` is set, rounded by a format. -/
def FFmt.sticky (f : FFmt) (neg : Bool) (q : Nat) (e : Int) (more : Bool) : Nat :=
  f.arith (.fin neg (2 * q + (if more then 1 else 0)) (e - 1))

/-- 1 / x. -/
def FFmt.recip (f : FFmt) : Val → Nat
  | .nan => f.canonNan
  | .inf n => f.sign n
  | .fin n m e =>
    if m = 0 then f.arith (.inf n)
    else
      let k := Nat.log2 m + 80
      f.sticky n (2 ^ k / m) (-e - (k : Int)) (2 ^ k % m ≠ 0)

/-- 1 / sqrt x. -/
def FFmt.rsqrt (f : FFmt) : Val → Nat
  | .nan => f.canonNan
  | .inf n => if n then f.canonNan else f.sign false
  | .fin n m e =>
    if m = 0 then f.arith (.inf n)
    else if n then f.canonNan
    else
      let odd := e % 2 ≠ 0
      let m := if odd then 2 * m else m
      let e := if odd then e - 1 else e
      let k := Nat.log2 m + 80
      let t := 2 ^ (2 * k) / m
      let r := isqrt t (k + 1) 0
      f.sticky false r (-(e / 2) - (k : Int)) (r * r * m ≠ 2 ^ (2 * k))

/-- ln 2 times 2 ^ 240, rounded down. -/
def ln2 : Nat := 1224685061431752149387114016819916847747660333428801675508466606222838698

/-- e ^ (y / 2 ^ 240) times 2 ^ 240 for y below 2 ^ 240, from its series. -/
def expSeries (y : Nat) : Nat :=
  ((List.range 60).foldl (fun (r : Nat × Nat) i =>
    let t := r.2 * y / 2 ^ 240 / (i + 1)
    (r.1 + t, t)) (2 ^ 240, 2 ^ 240)).1

/-- 2 ^ x, for a finite x whose magnitude lies below 1,024: exact for an integer, else a value that is
never a tie. -/
def FFmt.exp2Fin (f : FFmt) (n : Bool) (m : Nat) (e : Int) : Nat :=
  -- x as a whole number and a fraction of 240 bits, with more below when bits are lost
  let fx : Nat := if 0 ≤ e + 240 then m * 2 ^ (e + 240).toNat else m / 2 ^ (-(e + 240)).toNat
  let lost : Bool := decide (e + 240 < 0) && decide (m % 2 ^ (-(e + 240)).toNat ≠ 0)
  let whole : Nat := fx / 2 ^ 240
  let frac := fx % 2 ^ 240
  if frac = 0 ∧ !lost then f.arith (.fin false 1 (if n then -(whole : Int) else whole))
  else if n then
    let r := expSeries ((2 ^ 240 - 1 - frac) * ln2 / 2 ^ 240)
    f.sticky false r (-(whole : Int) - 1 - 240) true
  else f.sticky false (expSeries (frac * ln2 / 2 ^ 240)) ((whole : Int) - 240) true

/-- 2 ^ x. -/
def FFmt.exp2 (f : FFmt) : Val → Nat
  | .nan => f.canonNan
  | .inf n => if n then f.sign false else f.arith (.inf false)
  | .fin n m e =>
    if m ≠ 0 ∧ 10 ≤ (Nat.log2 m : Int) + e then (if n then f.sign false else f.arith (.inf false))
    else f.exp2Fin n m e

/-- Binary digits of the logarithm of y / 2 ^ 400, for y from 2 ^ 400 up to 2 ^ 401, as a number. -/
def logDigits : Nat → Nat → Nat → Nat
  | 0, _, acc => acc
  | k + 1, y, acc =>
    let q := y * y / 2 ^ 400
    if 2 ^ 401 ≤ q then logDigits k (q / 2) (2 * acc + 1) else logDigits k q (2 * acc)

/-- The base-2 logarithm of x. -/
def FFmt.flog2 (f : FFmt) : Val → Nat
  | .nan => f.canonNan
  | .inf n => if n then f.canonNan else f.arith (.inf false)
  | .fin n m e =>
    if m = 0 then f.arith (.inf true)
    else if n then f.canonNan
    else
      let l := Nat.log2 m
      let E : Int := (l : Int) + e
      if m = 2 ^ l then f.arith (.fin (decide (E < 0)) E.natAbs 0)
      else
        let d := logDigits 160 (m * 2 ^ 400 / 2 ^ l) 0
        let v : Int := E * (2 ^ 160 : Nat) + (d : Int)
        if v < 0 then f.sticky true ((-v - 1).toNat) (-160) true else f.sticky false v.toNat (-160) true

/-- A float rounded to an integer of `w` bits (R164): NaN gives 0, and the flag says that it saturated. -/
def Val.toInt16 : Val → Nat × Bool
  | .nan => (0, false)
  | .inf n => (if n then 0x8000 else 0x7FFF, true)
  | .fin n m e =>
    let k := if 0 ≤ e then m * 2 ^ (min e.toNat 64) else roundShift m (-e).toNat
    satBits 16 (if n then -(k : Int) else k)

end Sys2Proof.Machine
end

