-- ==== Sys2Proof/Machine/Links.lean ====
section
/-!
DEFINITION. What the fronthaul interfaces and the Citia Link ports share with retirement: lanes and SerDes
(R305, R306, R403, R405), a link that goes down (R406), and the end of a transfer (R411 to R413).
-/
namespace Sys2Proof.Machine

/-! ### Fronthaul interfaces -/

/-- The split of a port (R305, R328). -/
def State.split (s : State) (port : Nat) : Nat := s.cutBits 8 port 32 2

/-- The interface that uses a ball lane of a port. -/
def State.ifOfLane (s : State) (port lane : Nat) : Nat :=
  match s.split port with
  | 0 => 4 * port
  | 1 => 4 * port + lane / 2
  | _ => 4 * port + lane

/-- Whether an interface's link is up. -/
def State.linkUp (s : State) (i : Nat) : Bool := s.fld F.FH_IF_STATUS_link_up i = 1

/-- The interface whose recovered receive clock the pin RCLK_OUT carries; none while the pin is held low (R346). -/
def State.rclkOut (s : State) : Option Nat :=
  let i := s.fld F.TIME_SYNCE_CTL_rclk_if 0
  if s.fld F.TIME_SYNCE_CTL_rclk_en 0 = 1 ∧ s.linkUp i then some i else none

/-- An interface goes down. -/
def State.ifDown (s : State) (i : Nat) : State :=
  if s.linkUp i then
    ((s.setFld F.FH_IF_STATUS_link_up i 0).setFld F.FH_IF_STATUS_speed i 0).count F.FH_IF_STATUS_link_downs i 1
  else s

/-- The SerDes that drives a ball lane of an Ethernet port. -/
def State.laneSerdes (s : State) (port lane : Nat) : Nat :=
  let v := look 0 s.fh.lanes (4 * port + lane)
  if v = 0 then lane else v - 1

/-- The ball lane that a SerDes of an Ethernet port drives. -/
def State.serdesLane (s : State) (port ser : Nat) : Option Nat :=
  [0, 1, 2, 3].find? fun l => s.laneSerdes port l = ser

/-! ### The twin pair (R414, R415) -/

/-- The ports with role twin. -/
def State.twinPorts (s : State) : List Nat := [0, 1].filter fun c => s.fld F.CLINK_PORT_STATUS_role c = 1

/-- Whether the pair is PAIRED. -/
def State.paired (s : State) : Bool := s.twinPorts.any fun c => s.fld F.CLINK_TWIN_STATUS_state c = 2

/-- The twin's record changed. -/
def State.onTwin (s : State) (f : TwinBlk → TwinBlk) : State :=
  { s with clink := { s.clink with twin := f s.clink.twin } }

/-- A field of the twin registers of every twin port. -/
def State.setTwin (s : State) (f : Fld) (v : Nat) : State := s.twinPorts.foldl (fun s c => s.setFld f c v) s

/-- A message on a port, in the model's record. -/
def State.clinkSend (s : State) (m : ClinkSent) : State :=
  { s with clink := { s.clink with sent := s.clink.sent ++ [m] } }

/-- R415: an item for the twin's mirror, sent while the pair is PAIRED. -/
def State.mirrorSend (s : State) (item : MirrorItem) : State :=
  if s.paired then
    ((s.clinkSend (.mirror item)).onTwin fun t => { t with unacked := t.unacked + 1 }).setTwin
      F.CLINK_TWIN_STATUS_mirror_ok 0
  else s

/-- A cell of a handover has moved or been refused; with the last one handover_done is set (R419). -/
def State.handoverStep (s : State) (cell : Nat) : State :=
  if s.clink.twin.moving.any fun m => m.1 = cell then
    let s := s.onTwin fun t => { t with moving := t.moving.filter fun m => m.1 ≠ cell }
    if s.clink.twin.moving = [] then s.setTwin F.CLINK_TWIN_STATUS_handover_done 1 else s
  else s

/-! ### Citia Link -/

/-- The SerDes that drives a ball lane of a Citia Link port. -/
def State.clinkSerdes (s : State) (c lane : Nat) : Nat :=
  let v := look 0 s.clink.lanes (8 * c + lane)
  if v = 0 then lane else v - 1

/-- The ball lane that a SerDes of a Citia Link port drives. -/
def State.clinkLane (s : State) (c ser : Nat) : Option Nat :=
  (List.range 8).find? fun l => s.clinkSerdes c l = ser

/-- The transfer queue `q` of port `c`. -/
def State.xq (s : State) (c q : Nat) : XqRec := look XqRec.init s.clink.xq (c * 16 + q)

/-- The state with it replaced. -/
def State.setXq (s : State) (c q : Nat) (r : XqRec) : State :=
  { s with clink := { s.clink with xq := put XqRec.init s.clink.xq (c * 16 + q) r } }

/-- The owner, ring size and ring of a queue (R409). -/
def State.xqOwner (s : State) (i : Nat) : Nat := s.fld F.CLINK_XQ_owner i
def State.xqEntries (s : State) (i : Nat) : Nat :=
  let r := s.fld F.CLINK_XQ_ring_code i
  if 1 ≤ r ∧ r ≤ 12 then 2 ^ r else 0

/-- The device address of record `n` of a queue. -/
def State.xqRecord (s : State) (i n : Nat) : Nat := s.fld F.CLINK_XQ_ring i + 64 * (n % s.xqEntries i)

/-- A transfer ends (R411 to R413): outcome and code into its record, its counter, then its signal, or broken
on its object. -/
def State.xferEnd (s : State) (c q n : Nat) (rec64 : Bytes) (outcome code : Nat) : State :=
  let i := c * 16 + q
  let s := s.writeMem (s.xqRecord i n + 0x30) (leBytes 1 outcome ++ leBytes 1 code) false
  let s := match outcome with
    | 0 => s.count F.CLINK_PORT_CNT_xfer_done c 1
    | 2 => s.count F.CLINK_PORT_CNT_xfer_aborted c 1
    | _ => s.count F.CLINK_PORT_CNT_xfer_error c 1
  let obj := bits (leAt rec64 0x1C 2) 0 15
  if bits (leAt rec64 0x1C 2) 15 1 = 0 then s
  else if outcome ≠ 0 then s.breakObj (s.xqOwner i) obj
  else if s.permitted obj (s.xqOwner i) then s.send (s.xqOwner i) obj false (leAt rec64 0x20 4) (200000 + i)
  else s

/-- The transfers at the front of a queue that have their outcome end in ring order (R412); one whose record lies in
memory that is held waits (R22, R189). -/
def State.xqDrain (s : State) (c q : Nat) : Nat → State
  | 0 => s
  | fuel + 1 =>
    let r := s.xq c q
    match r.flying with
    | { index := n, bytes := b, poison := _, ended := some (outcome, code) } :: rest =>
      if s.rangeHeld (s.xqRecord (c * 16 + q) n) 64 then s
      else ((s.setXq c q { r with flying := rest }).xferEnd c q n b outcome code).xqDrain c q fuel
    | _ => s

/-- Transfers of a port under way that `f` selects are aborted (R406, R407). -/
def State.abortXfers (s : State) (c : Nat) (f : Flying → Bool) : State :=
  (List.range 16).foldl (fun s q =>
    let r := s.xq c q
    let xs := r.flying.map fun (x : Flying) => if f x ∧ x.ended = none then { x with ended := some (2, 0) } else x
    (s.setXq c q { r with flying := xs }).xqDrain c q xs.length) s

/-- The key of a transfer on its way in: its port, member and queue (DESIGN CHOICE, log entry 190). -/
def landKey (c : Nat) (x : Landing) : Nat := (c * 64 + x.member) * 16 + x.queue

/-- What a port keeps of transfers on their way in from members that `f` selects is dropped. -/
def State.dropLandings (s : State) (c : Nat) (f : Nat → Bool) : State :=
  { s with clink := { s.clink with
      landHeld := s.clink.landHeld.filter fun e => !(e.1 = c && f e.2.member)
      refused := s.clink.refused.filter fun e => !(e.1 / 1024 = c && f (e.1 / 16 % 64)) } }

/-- A time exchange of a port that is sent and not completed is over: the last exchange has not completed (R408; DESIGN
CHOICE, log entry 184). -/
def State.loseExchange (s : State) (c : Nat) : State :=
  if look false s.clink.exchange c then
    ({ s with clink := { s.clink with exchange := put false s.clink.exchange c false } }).setFld F.CLINK_TIME_valid c 0
  else s

/-- A port's link goes down (R406): its unacknowledged transfers end with outcome 2, and what has not been
acknowledged of those on their way in is discarded. -/
def State.clinkDown (s : State) (c : Nat) : State :=
  if s.fld F.CLINK_PORT_STATUS_link_up c = 0 then s
  else
    let s := (s.setFld F.CLINK_PORT_STATUS_link_up c 0).count F.CLINK_PORT_STATUS_link_downs c 1
    ((s.loseExchange c).dropLandings c fun _ => true).abortXfers c fun _ => true

/-- The member of a transfer under way. -/
def Flying.dest (x : Flying) : Nat := leAt x.bytes 1 1

/-- A write of CLINK_FENCE (R407): transfers to members that it shuts out end with outcome 2, and what waits of theirs
is dropped. -/
def State.fenceWrite (s : State) (c v : Nat) : State :=
  ((s.setFld F.CLINK_FENCE_allow c v).dropLandings c fun m => !bitOf v m).abortXfers c (fun x => !bitOf v x.dest)
    |>.settle

end Sys2Proof.Machine
end

