-- ==== Sys2Proof/Machine/Land.lean ====
section
/-!
DEFINITION. What arrives for the grants of a Citia Link port (R411 to R413), and what of it waits for its memory
(R22, R189).
-/
namespace Sys2Proof.Machine

/-- What an owner without a core of its own may reach: as `mayReach`, and for the radio function the radio
region of every cluster memory. -/
def State.linkReach (s : State) (owner a len : Nat) (write : Bool) : Bool :=
  match locate a with
  | .clm k off => if owner = 256 then decide (off + len ≤ s.clmRadio k) else s.mayReach owner 256 a len write
  | _ => s.mayReach owner 256 a len write

/-- The code with which the destination refuses a part of a transfer, 0 for none (R411, R413). -/
def State.landCheck (s : State) (i : Nat) (x : Landing) : Nat :=
  let a := s.fld F.CLINK_GRANT_base i + x.dstOff
  if 64 ≤ x.grant ∨ s.fld F.CLINK_GRANT_enable i = 0 ∨ s.fld F.CLINK_GRANT_src_member i ≠ x.member
      ∨ touchesReserved a x.data.length ∨ !s.linkReach (s.fld F.CLINK_GRANT_slice i) a x.data.length true then ePerm
  else if s.fld F.CLINK_GRANT_length i < x.dstOff + x.data.length then eLen
  else 0

/-- Bytes written line by line, each line with its own tag. -/
def State.writeLines (s : State) (a : Nat) (data : Bytes) (bad : List Bool) : State :=
  (List.range ((data.length + 63) / 64)).foldl (fun s i =>
    s.writeMem (a + 64 * i) ((data.drop (64 * i)).take 64) (bad.getD i false)) s

/-- Whether a transfer on its way in has had a part refused. -/
def State.isRefused (s : State) (c : Nat) (x : Landing) : Bool := look false s.clink.refused (landKey c x)

/-- The state with that set. -/
def State.setRefused (s : State) (c : Nat) (x : Landing) (v : Bool) : State :=
  { s with clink := { s.clink with refused := put false s.clink.refused (landKey c x) v } }

/-- A part of a transfer lands (R411 to R413): after a refused part nothing more of its transfer is written; the last
part raises the arrival object and acknowledges. -/
def State.landPart (s : State) (c : Nat) (x : Landing) : State :=
  let i := c * 64 + x.grant
  if s.isRefused c x then (if x.last then s.setRefused c x false else s)
  else
    let code := s.landCheck i x
    if code ≠ 0 then
      (if x.last then s else s.setRefused c x true).clinkSend (.landed c x.member x.grant 3 code)
    else
      let s := s.writeLines (s.fld F.CLINK_GRANT_base i + x.dstOff) x.data x.poison
      if !x.last then s
      else
        let s := if s.fld F.CLINK_GRANT_arrive_en i = 1 then
            s.send (s.fld F.CLINK_GRANT_slice i) (s.fld F.CLINK_GRANT_arrive_obj i) false 1 (210000 + i)
          else s
        s.clinkSend (.landed c x.member x.grant 0 0)

/-- Whether a part waits: its memory is held, or an earlier part of its transfer waits. -/
def State.landWaits (s : State) (c : Nat) (x : Landing) : Bool :=
  s.rangeHeld (s.fld F.CLINK_GRANT_base (c * 64 + x.grant) + x.dstOff) x.data.length
    || s.clink.landHeld.any fun e => landKey e.1 e.2 = landKey c x

/-- A part that has arrived lands or waits. -/
def State.takeLanding (s : State) (c : Nat) (x : Landing) : State :=
  if s.landWaits c x then { s with clink := { s.clink with landHeld := s.clink.landHeld ++ [(c, x)] } } else s.landPart c x

/-- The parts that wait and the transfers whose record could not be written, tried again in order. -/
def State.serveLandings (s : State) : State :=
  let s := s.clink.landHeld.foldl (fun s e => s.takeLanding e.1 e.2) { s with clink := { s.clink with landHeld := [] } }
  (List.range 32).foldl (fun s i => s.xqDrain (i / 16) (i % 16) (s.xq (i / 16) (i % 16)).flying.length) s

end Sys2Proof.Machine
end

