-- ==== Sys2Proof/Machine/Vault.lean ====
section
/-!
DEFINITION. Vaults, scratchpads and cluster memory (R181 to R201, R481): line checks, poison, scrubbing,
the sparing of rows and banks, granules and vault pages.
-/
namespace Sys2Proof.Machine

/-! ### The vault's address map and sparing (R182, R188 to R190) -/

/-- The row of a vault offset, and the line within the row (R182). -/
def vaultRow (off : Nat) : Nat := bits off 18 13
def vaultLine (off : Nat) : Nat := bits off 13 5

/-- The key of a row of a bank. -/
def rowKey (bank row : Nat) : Nat := bank * 4608 + row

/-- The state with the sparing record of a vault changed. -/
def State.onSpares (s : State) (p : Nat) (f : VaultSpares → VaultSpares) : State :=
  s.setCore p { s.core p with spares := f (s.core p).spares }

/-- A remap for which no spare is left (R190, R387): the row stays in service. -/
def State.spareless (s : State) (p : Nat) : State :=
  (s.scoreDown (vaultUnit p) 32).healthEvent F.HLTH_EVENT_spares_out (vaultUnit p)

/-- The spare bank of a pseudo-channel is in use, or is being filled (R188, R190). -/
def VaultSpares.bankTaken (v : VaultSpares) (pc : Nat) : Bool :=
  look 0 v.spareBank pc ≠ 0 || v.bankCopies.any fun c => c.bank / 16 = pc

/-- The bank needs remapping: its copy to the spare bank of its pseudo-channel starts, where that is
free (R188, R190). -/
def State.remapBank (s : State) (p bank : Nat) : State :=
  let v := (s.core p).spares
  if v.bankCopies.any fun c => c.bank = bank then s
  else if v.bankTaken (bank / 16) then s.spareless p
  else
    let s := s.onSpares p fun v => { v with bankCopies := v.bankCopies ++ [⟨bank, 0⟩] }
    (s.setFld F.CORE_VAULT_SPARE_bank_copy p 1).scoreDown (vaultUnit p) 16

/-- A row needs remapping: its copy to a spare row of the bank starts; with no spare row left, the bank is
remapped where it can be (R188, R190). -/
def State.remapRow (s : State) (p bank row : Nat) : State :=
  let v := (s.core p).spares
  if (v.rowCopies.any fun c => c.bank = bank ∧ c.row = row) ∨ (v.bankCopies.any fun c => c.bank = bank) then s
  else if look 0 v.rowsUsed bank + (v.rowCopies.filter fun c => c.bank = bank).length < 32 then
    (s.onSpares p fun v => { v with rowCopies := v.rowCopies ++ [⟨bank, row⟩] }).scoreDown (vaultUnit p) 16
  else s.remapBank p bank

/-! ### Requests held (R22, R189) -/

/-- A memory request put behind those that a core's memories hold already. -/
def State.holdMem (s : State) (p : Nat) (r : MemReq) : State :=
  s.setCore p { s.core p with memHeld := (s.core p).memHeld ++ [r] }

/-! ### Line checks (R185 to R187, R193) -/

/-- What a check of a vault line leads to in its counters, score and sparing (R185, R188, R387). -/
def State.vaultFound (s : State) (p off : Nat) : LineCheck → State
  | .clean => s
  | .correctable =>
    let k := rowKey (vaultBank off) (vaultRow off)
    let old := look 0 (s.core p).spares.corrLine k
    let s := (s.count F.CORE_VAULT_ECC_corrected p 1).correctedError (vaultUnit p)
    let s := s.onSpares p fun v => { v with corrLine := put 0 v.corrLine k (vaultLine off + 1) }
    if old ≠ 0 ∧ old ≠ vaultLine off + 1 then s.remapRow p (vaultBank off) (vaultRow off) else s
  | .uncorrectable =>
    ((s.count F.CORE_VAULT_ECC_uncorrected p 1).uncorrectable (vaultUnit p)).remapRow p (vaultBank off)
      (vaultRow off)

/-- A read of a vault line: checked, poisoned when uncorrectable, delivered with its tag (R185, R186). -/
def State.vaultRead (s : State) (p n off : Nat) (found : LineCheck) : State :=
  let a := vaultAddr n (off / 64 * 64)
  let s := s.vaultFound p off found
  let s := if found = .uncorrectable then s.setPoison a true else s
  let s := if s.poisoned a then s.count F.CORE_VAULT_ECC_poison_reads p 1 else s
  { s with lastRead := leNat (s.bytesAt a 64), lastPoison := s.poisoned a }

/-- A write within one vault line (R186): a partial write is merged with the stored line, whose check it
brings; a merge with an uncorrectable line stores it poisoned. -/
def State.vaultWrite (s : State) (p n off : Nat) (data : Bytes) (poison : Bool) (found : LineCheck) : State :=
  let a := vaultAddr n off
  if data.length = 64 then s.writeMem a data poison
  else
    let s := (s.vaultFound p off found).writeMem a data poison
    if found = .uncorrectable then s.setPoison a true else s

/-- A request by the context in a slot of another core is permitted, or fails with ERR_PERM, which ends the command at
the head of that context's Opal queue (R195). -/
def State.remoteRequest (s : State) (p slot addr : Nat) : State :=
  match locate addr, s.ctx p slot, s.logicalOf p with
  | .spm m _, some x, some n =>
    if m = n ∨ s.mayReach x.owner n addr 1 false then s
    else match x.queueOf 2 with
      | c :: _ => if c.phase = .started then s.failSettle p slot c (ePerm, 0) else s
      | [] => s
  | _, _, _ => s

/-- The parts of a range that lie in one line each, as (offset in the range, address, length). -/
def linePieces (a len : Nat) : List (Nat × Nat × Nat) :=
  (List.range (if len = 0 then 0 else (a + len - 1) / 64 - a / 64 + 1)).map fun m =>
    let lo := max a ((a / 64 + m) * 64)
    let hi := min (a + len) ((a / 64 + m + 1) * 64)
    (lo - a, lo, hi - lo)

/-- An access of the manager to a vault (R32): the lines are read as R185 has it, and a poisoned one completes with the
poisoned indication (R201); the memory of an unmapped core is lost (R23), and a read of it answers a free value (DESIGN
CHOICE, log entry 20). -/
def State.apertureAccess (s : State) (a size : Nat) (value : Option Nat) : State :=
  match locate a with
  | .vault n _ =>
    match s.physOf n, value with
    | none, none => let (v, s) := s.free
                    { s with lastRead := v % 2 ^ (8 * size), lastPoison := false }
    | none, some _ => s
    | some p, none =>
      let s := (linePieces a size).foldl (fun s x => s.vaultRead p n (x.2.1 % 0x80000000) .clean) s
      { s with lastRead := leNat (s.bytesAt a size), lastPoison := s.anyPoison a size }
    | some p, some v => (linePieces a size).foldl (fun s x =>
        s.vaultWrite p n (x.2.1 % 0x80000000) (((leBytes size v).drop x.1).take x.2.2) false .clean) s
  | _ => s

/-- An access of a Lantern to device memory that it reaches (R275); what has been unmapped since is lost (R23). -/
def State.lanternAccess (s : State) (a size : Nat) (value : Option Nat) : State :=
  match value with
  | none =>
    if s.rangeLost a size then { s with lastRead := 0, lastPoison := true }
    else { s.readPoison a size with lastRead := leNat (s.bytesAt a size), lastPoison := s.anyPoison a size }
  | some v => if s.rangeLost a size then s else s.writeMem a (leBytes size v) false

/-- A line read that its core's absence ends with ERR_PERM delivers nothing (R22, R23); the row that asks for it names
no context, so that the error record is the requesting command's own (DESIGN CHOICE, log entry 169). -/
def State.readDenied (s : State) : State := { s with lastRead := 0, lastPoison := true }

/-- A held request served by the physical core that is there now; one whose logical core has none ends with ERR_PERM
(R22). -/
def State.serveMem (s : State) : MemReq → State
  | .read addr found => match locate addr with
    | .vault n off => match s.physOf n with
      | some p => s.vaultRead p n off found
      | none => s.readDenied
    | _ => s
  | .write addr data poison found => match locate addr with
    | .vault n off => match s.physOf n with
      | some p => s.vaultWrite p n off data poison found
      | none => s
    | _ => s
  | .remote p slot addr => s.remoteRequest p slot addr
  | .aperture addr size value => s.apertureAccess addr size value
  | .lantern addr size value => s.lanternAccess addr size value

/-- Whether a held request has still to wait (R22, R189). -/
def State.memWaits (s : State) : MemReq → Bool
  | .read addr _ => s.rangeHeld addr 1
  | .write addr data _ _ => s.rangeHeld addr data.length
  | .remote _ _ addr => s.rangeHeld addr 1
  | .aperture addr size _ => s.rangeHeld addr size
  | .lantern addr size _ => s.rangeHeld addr size

/-- Held requests of a core that `f` selects served, in arrival order (R22, R189). -/
def State.serveHeld (s : State) (p : Nat) (f : MemReq → Bool) : State :=
  let c := s.core p
  (c.memHeld.filter f).foldl State.serveMem (s.setCore p { c with memHeld := c.memHeld.filter fun r => !f r })

/-- The requests that the end of a row copy lets through (R189): not those to a core retired hard meanwhile (R22). -/
def State.serveReady (s : State) (p : Nat) : State := (s.serveHeld p fun r => !s.memWaits r).serveLandings

/-- ROW_COPY_END (R188, R190): the row is redirected to the spare row. -/
def execRowCopyEnd (p : Nat) (s : State) : Host.Outcome State Fault Refusal :=
  done <| match (s.core p).spares.rowCopies with
    | [] => s
    | c :: rest =>
      (s.onSpares p fun v =>
        { v with rowCopies := rest
                 rowsUsed := put 0 v.rowsUsed c.bank (look 0 v.rowsUsed c.bank + 1)
                 redirected := put false v.redirected (rowKey c.bank c.row) true
                 corrLine := put 0 v.corrLine (rowKey c.bank c.row) 0 }).count
        F.CORE_VAULT_SPARE_rows_remapped p 1 |>.serveReady p

/-- BANK_COPY_END (R188, R190): the bank is redirected to the spare bank, which has 32 spare rows of its
own. -/
def execBankCopyEnd (p : Nat) (s : State) : Host.Outcome State Fault Refusal :=
  done <| match (s.core p).spares.bankCopies with
    | [] => s
    | c :: rest =>
      let pc := c.bank / 16
      let s := s.onSpares p fun v =>
        { v with bankCopies := rest
                 spareBank := put 0 v.spareBank pc (c.bank + 1)
                 rowsUsed := put 0 v.rowsUsed c.bank 0
                 rowCopies := v.rowCopies.filter fun d => d.bank ≠ c.bank
                 redirected := dropRange v.redirected (rowKey c.bank 0) 4608
                 corrLine := dropRange v.corrLine (rowKey c.bank 0) 4608 }
      let s := s.setFld F.CORE_VAULT_SPARE_banks_remapped p
        (s.fld F.CORE_VAULT_SPARE_banks_remapped p ||| 2 ^ pc)
      (s.setFld F.CORE_VAULT_SPARE_bank_copy p (if rest = [] then 0 else 1)).serveReady p

/-! ### Line checks (R185 to R187, R193) -/

/-- VAULT_LINE_READ (R185, R186): the line that holds a device address, held where requests to it are (R22, R189). -/
def execVaultLineRead (addr : Nat) (found : LineCheck) (s : State) : Host.Outcome State Fault Refusal :=
  done <| match locate addr with
    | .vault n off =>
      match s.physOf n with
      | some p => if s.vaultWaits p off then s.holdMem p (.read addr found) else s.vaultRead p n off found
      | none => s.readDenied
    | _ => s

/-- VAULT_LINE_WRITE (R186): bytes that lie in one line, held where requests to it are (R22, R189). -/
def execVaultLineWrite (addr : Nat) (data : Bytes) (poison : Bool) (found : LineCheck) (s : State) :
    Host.Outcome State Fault Refusal :=
  done <| match locate addr with
    | .vault n off =>
      if data = [] ∨ 64 < addr % 64 + data.length then s
      else match s.physOf n with
        | some p =>
          if s.vaultWaits p off then s.holdMem p (.write addr data poison found)
          else s.vaultWrite p n off data poison found
        | none => s
    | _ => s

/-- VAULT_SCRUB (R187): a scrub read of line `line` of a vault; the last line ends a pass. -/
def execVaultScrub (p line : Nat) (found : LineCheck) (s : State) : Host.Outcome State Fault Refusal :=
  done <|
    if 288 ≤ p ∨ 18874368 ≤ line then s
    else
      let s := s.vaultFound p (line * 64) found
      let s := match found, s.logicalOf p with
        | .uncorrectable, some n => s.setPoison (vaultAddr n (line * 64)) true
        | _, _ => s
      if line = 18874367 then s.count F.CORE_VAULT_SPARE_scrub_passes p 1 else s

/-- The check of a line of a scratchpad or cluster memory (R193, R197): an error that cannot be corrected poisons it. -/
def State.spmFound (s : State) (addr : Nat) (found : LineCheck) : State :=
  match locate addr, found with
  | _, .clean => s
  | .spm n _, f =>
    match s.physOf n with
    | none => s
    | some p =>
      if f = .correctable then (s.count F.CORE_SPM_ECC_corrected p 1).correctedError p
      else ((s.count F.CORE_SPM_ECC_uncorrected p 1).setPoison addr true).uncorrectable p
  | .clm k _, f =>
    if f = .correctable then (s.count F.CLU_CLM_ECC_corrected k 1).correctedError (clmUnit k)
    else ((s.count F.CLU_CLM_ECC_uncorrected k 1).setPoison addr true).uncorrectable (clmUnit k)
  | _, _ => s

/-- SPM_SCRUB (R193, R197): a scrub read of a line of a scratchpad or cluster memory. -/
def execSpmScrub (addr : Nat) (found : LineCheck) (s : State) : Host.Outcome State Fault Refusal :=
  done (s.spmFound addr found)

/-! ### Granules (R194 to R198) -/

/-- Granule `g` of a core's scratchpad: the logical core gives its device address. -/
def granuleAddr (n g : Nat) : Nat := spmAddr n (g * 0x10000)

/-- Whether the output of a context that has been torn down is still to be drained (R126). -/
def Core.lastDrains (c : Core) : Bool :=
  (c.array.any fun a => a.slot = 7 && a.drain.isSome) || c.port.any fun r => r.slot = 7 && !r.preload

/-- Whether a write of a context that has ended is still on its way to a range: an Opal transaction, or an add (R101).
-/
def State.looseMeets (s : State) (a n : Nat) : Bool :=
  let hit (l : Nat) : Bool := decide (l * 64 < a + n) && decide (a < l * 64 + 64)
  (s.cores.any fun e => e.2.loose.any fun f => f.lines.any fun l => hit l.line)
    || (s.adds ++ s.refused).any fun o => o.slot = 7 && hit o.line

/-- GRANULE_ZERO_END (R196): a released granule has been written to zero, its poison cleared.  The zeroing ends after
the last drain and the last write of a context that has been torn down, so that nothing of it stays (R101, R126;
DEDUCED, log entry 149). -/
def execGranuleZeroEnd (p g : Nat) (s : State) : Host.Outcome State Fault Refusal :=
  done <|
    if 64 ≤ g ∨ !bitOf (s.core p).zeroing g ∨ (s.core p).lastDrains
        ∨ ((s.logicalOf p).any fun n => s.looseMeets (granuleAddr n g) 0x10000) then s
    else
      let s := match s.logicalOf p with
        | some n => s.zeroRange (granuleAddr n g) 0x10000
        | none => s
      (s.setCore p { s.core p with zeroing := (s.core p).zeroing - 2 ^ g }).settle

/-- CLM_GRANULE_ZERO_END (R198): after the last write on its way there of a context that has ended. -/
def execClmGranuleZeroEnd (k g : Nat) (s : State) : Host.Outcome State Fault Refusal :=
  done <|
    let i := k * 128 + g
    if 32 ≤ k ∨ 128 ≤ g ∨ s.fld F.CLU_CLM_GRANULE_zeroing i = 0 ∨ s.looseMeets (clmAddr k (g * 0x10000)) 0x10000 then s
    else (s.zeroRange (clmAddr k (g * 0x10000)) 0x10000).setFld F.CLU_CLM_GRANULE_zeroing i 0 |>.settle

/-- REMOTE_SPM_REQUEST (R195): a request by the context in a slot of another core, held while the core that it is
addressed to awaits its spare (R22). -/
def execRemoteSpmRequest (p slot addr : Nat) (s : State) : Host.Outcome State Fault Refusal :=
  done <| match locate addr with
    | .spm m _ => match s.physOf m with
      | some q => if s.coreDown q then s.holdMem q (.remote p slot addr) else s.remoteRequest p slot addr
      | none => s.remoteRequest p slot addr
    | _ => s

/-! ### Vault pages (R200, R481) -/

/-- The page being zeroed on behalf of some slice (R481). -/
def State.zeroingPage (s : State) (i : Nat) : Option Nat :=
  (s.slices.find? fun e => e.2.zeroPages.head? = some i).map (·.1)

/-- The fields of a page entry from a written value. -/
def State.setPage (s : State) (i v : Nat) : State :=
  ((s.setFld F.CORE_VAULT_PAGE_owner i (bits v 0 9)).setFld F.CORE_VAULT_PAGE_others_rd i (bits v 9 1)).setFld
    F.CORE_VAULT_PAGE_others_wr i (bits v 10 1)

/-- A manager write to a page entry (R200): that of the page being zeroed waits for the end of its zeroing
(R481); an entry owned by a slice that TDISP has locked keeps its value (R365). -/
def State.pageWrite (s : State) (p page v : Nat) : State :=
  let i := p * 576 + page
  let o := s.fld F.CORE_VAULT_PAGE_owner i
  if s.tdiLocked o then s.badAccess 0 (0x1001000 + p * 0x10000 + page * 8)
  else match s.zeroingPage i with
    | some sl => s.setSlice sl { s.slice sl with deferred := some v }
    | none => s.setPage i v

/-- CORE_VAULT_PAGE_WRITE (R200, R481). -/
def execCoreVaultPageWrite (p page value : Nat) (s : State) : Host.Outcome State Fault Refusal :=
  done (if 288 ≤ p ∨ 576 ≤ page then s else s.pageWrite p page value)

/-- Pages at the front that their slice no longer owns are passed over (R481). -/
def State.passPages (s : State) (sl : Nat) : State :=
  let r := s.slice sl
  s.setSlice sl { r with zeroPages := r.zeroPages.dropWhile fun i => s.fld F.CORE_VAULT_PAGE_owner i ≠ sl }

/-- PAGE_ZERO_END (R200, R357, R481): the page is zero; its owner is released (R200) or kept (R357), then a
deferred manager write applies. -/
def execPageZeroEnd (sl : Nat) (s : State) : Host.Outcome State Fault Refusal :=
  done <|
    let r := s.slice sl
    match r.zeroPages with
    | [] => s
    | i :: rest =>
      let s := match s.logicalOf (i / 576) with
        | some n => s.zeroRange (vaultAddr n (i % 576 * 0x200000)) 0x200000
        | none => s
      let s := if r.release then s.setFld F.CORE_VAULT_PAGE_owner i 0x1FF else s
      let s := match r.deferred with
        | some v => s.setPage i v
        | none => s
      (s.setSlice sl { r with zeroPages := rest, deferred := none }).passPages sl

/-! ### Deferred claims (R194, R198) -/

/-- GRANULE_CLAIM_DEFERRED (R194, R198): a command held at the head of its queue claims all its granules in
one cycle once every one is free or its own. -/
def execGranuleClaimDeferred (p slot engine : Nat) (s : State) : Host.Outcome State Fault Refusal :=
  done <| match s.ctx p slot with
    | none => s
    | some x =>
      match x.head engine with
      | some c =>
        if c.claim ∧ s.claimable p slot x.owner c.needs c.needsClm then
          ((s.claimAll p slot x.owner c.needs c.needsClm).onCmd p slot c.seq fun c =>
            { c with claim := false, needs := [], needsClm := [] }).settle
        else s
      | none => s

end Sys2Proof.Machine
end

