-- ==== Sys2Proof/Machine/Beryl.lean ====
section
/-!
DEFINITION. The Beryl DSP (chapter 10): its registers and memories, the slots of a bundle, and its commands.
-/
namespace Sys2Proof.Machine

/-! ### Registers (R239, R255) -/

/-- The physical number of logical vector register `i` (R255). -/
def BerylBank.phys (b : BerylBank) (i : Nat) : Nat := if i < 32 then i else 32 + (i - 32 + b.get kVRB) % 32

/-- C[i], and the pair whose low half is C[i] (R239). -/
def BerylBank.c (b : BerylBank) (i : Nat) : Nat := b.get (b.phys i)
def BerylBank.d (b : BerylBank) (i : Nat) : Nat := b.c i + 2 ^ 512 * b.c (i + 1)

/-- A signed 32-bit register value. -/
def s32 (x : Nat) : Int := toSigned 32 x

/-- A sum modulo 2^32. -/
def add32 (x : Nat) (d : Int) : Nat := ofSigned 32 ((x : Int) + d)

/-! ### Addressing (R244, R245) -/

/-- The bits [hi:lo] of a number reversed, `w` of them. -/
def revBits (w x : Nat) : Nat := (List.range w).foldl (fun r i => if bitOf x i then r + 2 ^ (w - 1 - i) else r) 0

/-- The smallest power of two not below `n`, as its exponent. -/
def ceilLog2 (n : Nat) : Nat := if n ≤ 1 then 0 else Nat.log2 (n - 1) + 1

/-- The pointer `P` moved by `inc` under the addressing mode `ml` (R245). -/
def modifyPtr (ml P : Nat) (inc : Int) : Except Nat Nat :=
  match bits ml 0 2 with
  | 0 => .ok (add32 P inc)
  | 1 =>
    let L := bits ml 2 20 * 4
    let base := P / 2 ^ ceilLog2 L * 2 ^ ceilLog2 L
    let t : Int := (P : Int) + inc
    if L < inc.natAbs then .error eStride
    else if (base : Int) + L ≤ t then .ok (ofSigned 32 (t - L))
    else if t < base then .ok (ofSigned 32 (t + L))
    else .ok (ofSigned 32 t)
  | 2 =>
    let lo := bits ml 2 5
    let hi := bits ml 7 5
    if hi < lo ∨ 27 < hi then .error eOpcode
    else
      let w := hi - lo + 1
      let f := revBits w ((revBits w (bits P lo w) + revBits w (bits (ofSigned 32 inc) lo w)) % 2 ^ w)
      .ok (P - bits P lo w * 2 ^ lo + f * 2 ^ lo)
  | _ => .error eOpcode

/-- What `mod` of an X or Y slot does to pointer `i` (R245). -/
def BerylBank.postModify (b : BerylBank) (i md size : Nat) : Except Nat (List (Nat × Nat)) :=
  let P := b.get (kP i)
  let N := s32 (b.get (kN i))
  match md with
  | 0 => .ok []
  | 1 => do return [(kP i, ← modifyPtr (b.get (kML i)) P size)]
  | 2 => do return [(kP i, ← modifyPtr (b.get (kML i)) P N)]
  | _ => .ok [(kP i, add32 P N)]

/-- What an X or Y slot addresses. -/
inductive BerTarget where
  /-- A byte of the slot's own memory, under memory * 2^20 + byte. -/
  | own (key : Nat)
  /-- A device address in a window. -/
  | window (addr : Nat)
deriving DecidableEq, Repr

/-- Bytes of a Beryl memory. -/
def berylSize (m : Nat) : Nat := if m = 2 then 0x10000 else 0x20000

/-- Whether a range of a memory has a byte in the part of the other context (R236, R257). -/
def State.berylForeign (s : State) (p bank m off len : Nat) : Bool :=
  let hi := min (off + len) (berylSize m)
  decide (off < hi) && if bank = 0 then decide (s.berylRadio p m < hi) else decide (off < s.berylRadio p m)

/-- Whether a bank may use a range of a memory: the radio bank the radio part, the other the rest (R236). -/
def State.berylPart (s : State) (p bank m off len : Nat) : Bool :=
  if bank = 0 then decide (off + len ≤ s.berylRadio p m) else decide (s.berylRadio p m ≤ off)

/-- The target of an access of `size` bytes at effective address `ea` in the slot of memory `m` (R244); the detail of an
access past a window is the index of the window's buffer (R102). -/
def State.berylTarget (s : State) (p bank : Nat) (b : BerylBank) (m ea size : Nat) (store : Bool) :
    Except Fail BerTarget :=
  let sp := bits ea 28 4
  let off := bits ea 0 28
  if ea % min size 64 ≠ 0 then .error (eAlign, 0)
  else if sp = 0 then
    if berylSize m < off + size then .error (eOob, 0)
    else if !s.berylPart p bank m off size then .error (ePerm, 0)
    else .ok (.own (m * 2 ^ 20 + off))
  else if 8 < sp then .error (eOob, 0)
  else match b.windows.getD (sp - 1) none with
    | none => .error (eOob, 0)
    | some w =>
      if w.length < off + size then .error (eOob, w.index)
      else if (if store then !w.wr else !w.rd) then .error (ePerm, 0)
      else .ok (.window (w.base + off))

/-- A fault that concerns no entry of the buffer table: its detail is zero (R102). -/
def plainFail {α : Type} : Except Nat α → Except Fail α
  | .error code => .error (code, 0)
  | .ok x => .ok x

/-! ### The machine that a bundle changes -/

/-- The Beryl of a core. -/
def State.beryl (s : State) (p : Nat) : BerylCore := (s.core p).beryl

/-- The state with it replaced. -/
def State.setBeryl (s : State) (p : Nat) (b : BerylCore) : State := s.setCore p { s.core p with beryl := b }

/-- A bank of a core, and the state with it replaced. -/
def State.berylBank (s : State) (p bank : Nat) : BerylBank :=
  if bank = 0 then (s.beryl p).bank0 else (s.beryl p).bank1
def State.setBank (s : State) (p bank : Nat) (b : BerylBank) : State :=
  s.setBeryl p (if bank = 0 then { s.beryl p with bank0 := b } else { s.beryl p with bank1 := b })

/-- The valid bit of the block of a byte of the Beryl memories (R237). -/
def blockOf (key : Nat) : Nat := key / 2 ^ 20 * 32 + key % 2 ^ 20 / 4096

/-- Whether a byte lies in a rental block that is not valid, and so reads as zero (R237). -/
def State.berylBlank (s : State) (p key : Nat) : Bool := s.berylRental p key && !bitOf (s.beryl p).valid (blockOf key)

/-- Bytes of the Beryl memories as they read. -/
def State.berylBytes (s : State) (p key n : Nat) : Bytes :=
  (List.range n).map fun i => if s.berylBlank p (key + i) then 0 else look 0 (s.beryl p).mem (key + i)

/-- Whether a range of a Beryl memory carries poison. -/
def State.berylTagged (s : State) (p key n : Nat) : Bool :=
  (s.beryl p).tags.any fun e => decide (key / 64 ≤ e.1) && decide (e.1 * 64 < key + n) && !s.berylBlank p (e.1 * 64)

/-- A rental block made valid: its bytes read as zero until they are written (R237). -/
def BerylCore.openBlock (b : BerylCore) (i : Nat) : BerylCore :=
  if bitOf b.valid i then b
  else { b with valid := b.valid ||| 2 ^ i
                mem := dropRange b.mem (blockKey i) 4096
                tags := dropRange b.tags (blockKey i / 64) 64 }

/-- The blocks that a range touches. -/
def blocksOf (key n : Nat) : List Nat :=
  if n = 0 then [] else (List.range (blockOf (key + n - 1) - blockOf key + 1)).map fun i => blockOf key + i

/-- Bytes written to a Beryl memory: the rental blocks that they touch become valid (R237); in X and Y memory `tag`
poisons the lines, and lines written whole without it are clean (R235). -/
def State.berylWrite (s : State) (p key : Nat) (bs : Bytes) (tag : Bool) : State :=
  let n := bs.length
  let b := if s.berylRental p key then (blocksOf key n).foldl BerylCore.openBlock (s.beryl p) else s.beryl p
  let mem := bs.zipIdx.foldl (fun m x => put 0 m (key + x.2) x.1) b.mem
  let ls := if n = 0 ∨ 2 * 2 ^ 20 ≤ key then []
    else (List.range ((key + n - 1) / 64 - key / 64 + 1)).map fun i => key / 64 + i
  let tags := ls.foldl (fun t l =>
    if tag then put false t l true
    else if key ≤ l * 64 ∧ l * 64 + 64 ≤ key + n then put false t l false
    else t) b.tags
  s.setBeryl p { b with mem := mem, tags := tags }

/-- The poison flag of a bank set (R260): counted when it was clear. -/
def State.berylPoison (s : State) (p bank slot : Nat) : State :=
  let b := s.berylBank p bank
  if b.poison then s
  else ((s.setBank p bank { b with poison := true }).count F.BER_FAULT_poison_sets p 1).setFld F.BER_FAULT_last_slot p slot

/-- The check of X or Y memory read at a key finds an error (R235, R260): one that cannot be corrected tags the line
and sets the flag. -/
def State.berylFound (s : State) (p bank slot key : Nat) : LineCheck → State
  | .clean => s
  | .correctable =>
    ((s.count F.BER_FAULT_corrected p 1).setFld F.BER_FAULT_last_slot p slot).correctedError p
  | .uncorrectable =>
    let s := s.setBeryl p { s.beryl p with tags := put false (s.beryl p).tags (key / 64) true }
    (((s.count F.BER_FAULT_uncorrected p 1).setFld F.BER_FAULT_last_slot p slot).uncorrectable p).berylPoison p bank slot

/-- What the checks of a command's lines find, line by line: the lines past the list are clean. -/
def checkAt (found : List LineCheck) (i : Nat) : LineCheck := found.getD i .clean

/-- The lines of `[a, a + n)`, by their first addresses. -/
def linesAt (a n : Nat) : List Nat :=
  if n = 0 then [] else (List.range ((a + n - 1) / 64 - a / 64 + 1)).map fun i => (a / 64 + i) * 64

/-- The checks of the lines that a bank reads at a target (R193, R235, R260). -/
def State.targetFound (s : State) (p bank slot : Nat) (t : BerTarget) (n : Nat) (found : List LineCheck) : State :=
  match t with
  | .own k => (linesAt k n).zipIdx.foldl (fun s x => s.berylFound p bank slot x.1 (checkAt found x.2)) s
  | .window a => (linesAt a n).zipIdx.foldl (fun s x => s.spmFound x.1 (checkAt found x.2)) s

/-- A load: its bytes, and the state after the check of each line that it read; a poisoned or uncorrectable line sets
the flag (R193, R260). -/
def State.berylLoad (s : State) (p bank slot : Nat) (t : BerTarget) (n : Nat) (found : List LineCheck) : Nat × State :=
  match t with
  | .own k =>
    let v := leNat (s.berylBytes p k n)
    let s := s.targetFound p bank slot t n found
    (v, if s.berylTagged p k n then s.berylPoison p bank slot else s)
  | .window a =>
    let v := leNat (s.bytesAt a n)
    let s := s.targetFound p bank slot t n found
    (v, if s.anyPoison a n then s.berylPoison p bank slot else s)

/-- The digest of a program after a store to the scratchpad (R378). -/
def BerylBank.digested (b : BerylBank) (bs : Bytes) : BerylBank :=
  { b with crc := crc64From b.crc bs, stored := b.stored + bs.length, tainted := b.tainted || b.poison }

/-- A store: to the scratchpad with the tag of the flag (R260) and into the program's digest (R378).  A store of part
of a 64-bit word is merged with the stored word, whose check counts (R186, R193, R235). -/
def State.berylStore (s : State) (p bank slot : Nat) (t : BerTarget) (n v : Nat) (found : List LineCheck) : State :=
  let s := if n < 8 then s.targetFound p bank slot t n found else s
  match t with
  | .own k => s.berylWrite p k (leBytes n v) false
  | .window a =>
    let b := s.berylBank p bank
    (s.writeMem a (leBytes n v) b.poison).setBank p bank (b.digested (leBytes n v))

/-! ### X and Y slots (R246) -/

/-- Access size of an X or Y op. -/
def xySize (op : Nat) : Nat :=
  match op with
  | 1 => 64 | 2 => 128 | 3 => 64 | 4 => 128 | 5 => 4 | 6 => 4 | 7 => 4 | 8 => 8 | _ => 8

/-- Whether an op stores. -/
def xyStore (op : Nat) : Bool := op = 3 || op = 4 || op = 6 || op = 9

/-- The register writes of a load of value `v`. -/
def BerylBank.xyWrites (b : BerylBank) (op reg v : Nat) : List (Nat × Nat) :=
  match op with
  | 1 => [(b.phys reg, v)]
  | 2 => [(b.phys reg, v % 2 ^ 512), (b.phys (reg + 1), v / 2 ^ 512)]
  | 5 => [(kS (reg % 16), v)]
  | 7 => [(b.phys reg, joinLanes 32 ((List.range 16).map fun _ => v))]
  | 8 => [(kK (reg % 8), v)]
  | _ => []

/-- The value that a store writes. -/
def BerylBank.xyValue (b : BerylBank) (op reg : Nat) : Nat :=
  match op with
  | 3 => b.c reg
  | 4 => b.d reg
  | 6 => b.get (kS (reg % 16))
  | _ => b.get (kK (reg % 8))

/-- Whether the operations of a stage execute now (R254). -/
def BerylBank.stageOn (b : BerylBank) (stage : Nat) : Except Nat Bool :=
  match b.loops with
  | [] => if stage ≠ 0 then .error eOpcode else .ok true
  | l :: _ =>
    if l.sc ≤ stage then .error eOpcode
    else .ok (decide (stage ≤ l.iter) && decide (l.iter < l.count + stage))

/-- The X slot (m = 0) or the Y slot (m = 1): its register writes, and the state after its memory access, with what the
check of a load finds.  Registers are read from `b`, memory from `s` (R242). -/
def State.xySlot (s : State) (p bank cslot : Nat) (b : BerylBank) (m w : Nat) (found : List LineCheck) :
    Except Fail (List (Nat × Nat) × State) := do
  let op := bits w 20 4
  let reg := bits w 14 6
  let ptr := bits w 10 4
  if op = 0 then return ([], s)
  if !(← plainFail (b.stageOn (bits w 6 2))) then return ([], s)
  if 9 < op ∨ ((op = 2 ∨ op = 4) ∧ reg % 2 = 1) ∨ (op = 5 ∧ 16 ≤ reg) then .error (eOpcode, 0)
  let size := xySize op
  let ea := add32 (b.get (kP ptr)) (toSigned 6 (bits w 0 6) * size)
  let t ← s.berylTarget p bank b m ea size (xyStore op)
  let ptrs ← plainFail (b.postModify ptr (bits w 8 2) size)
  if xyStore op then return (ptrs, s.berylStore p bank cslot t size (b.xyValue op reg) found)
  let (v, s) := s.berylLoad p bank cslot t size found
  return (b.xyWrites op reg v ++ ptrs, s)

/-! ### The S slot (R247, R248, R253) -/

/-- Where the program goes after a bundle. -/
inductive BerNext where
  | seq
  | halt
  /-- A taken branch. -/
  | jump (target : Int)
  /-- A loop entered, and a loop of count 0 passed over. -/
  | enter (l : BerylLoop)
  | past (body : Nat)
deriving DecidableEq, Repr

/-- The register and the bit offset of a special-register number, with its width (R247). -/
def specReg (n : Nat) : Option (Nat × Nat × Nat) :=
  if n < 0x10 then some (kP n, 0, 32)
  else if n < 0x20 then some (kN (n - 0x10), 0, 32)
  else if n < 0x30 then some (kML (n - 0x20), 0, 32)
  else if n < 0x34 then some (kLC (n - 0x30), 0, 32)
  else if n = 0x34 then some (kVRB, 0, 5)
  else if n = 0x35 then some (kSTAT, 0, 4)
  else if 0x40 ≤ n ∧ n < 0x50 then some (kK ((n - 0x40) / 2), 32 * (n % 2), 32)
  else none

/-- Scalar arithmetic, ops 0x10 to 0x1B. -/
def scalarOp (op x y : Nat) : Nat :=
  let sh := y % 32
  match op with
  | 0x10 => (x + y) % 2 ^ 32
  | 0x11 => (x + 2 ^ 32 - y % 2 ^ 32) % 2 ^ 32
  | 0x12 => x &&& y
  | 0x13 => x ||| y
  | 0x14 => x ^^^ y
  | 0x15 => x * 2 ^ sh % 2 ^ 32
  | 0x16 => x / 2 ^ sh
  | 0x17 => ofSigned 32 (s32 x / (2 ^ sh : Nat))
  | 0x18 => x * y % 2 ^ 32
  | 0x19 => if x = y then 1 else 0
  | 0x1A => if s32 x < s32 y then 1 else 0
  | _ => if x < y then 1 else 0

/-- A LOOP (R253). -/
def BerylBank.loopOp (b : BerylBank) (w pc : Nat) : Except Nat BerNext :=
  let lc := bits w 22 2
  let body := bits w 0 12
  let n := b.get (kS (bits w 15 4))
  if body = 0 ∨ 4 ≤ b.loops.length ∨ (b.loops.any fun l => l.lc = lc ∨ l.rot) then .error eOpcode
  else if n = 0 then .ok (.past body)
  else .ok (.enter { lc := lc, rot := bits w 21 1 = 1, sc := bits w 19 2 + 1, count := n, first := pc + 1,
                     body := body, iter := 0 })

/-- The S slot: its register writes, whether it clears STAT, and where the program goes. -/
def BerylBank.sSlot (b : BerylBank) (w pc : Nat) : Except Nat (List (Nat × Nat) × Bool × BerNext) :=
  let op := bits w 24 8
  let d := bits w 20 4
  let x := b.get (kS (bits w 16 4))
  let y := b.get (kS (bits w 12 4))
  let imm := bits w 0 16
  let simm := toSigned 16 imm
  let target : Int := (pc : Int) + simm
  if op = 0 then .ok ([], false, .seq)
  else if op = 1 then .ok ([], false, .halt)
  else if op = 2 then .ok ([(kS d, ofSigned 32 simm)], false, .seq)
  else if op = 3 then .ok ([(kS d, b.get (kS d) % 2 ^ 16 + imm * 2 ^ 16)], false, .seq)
  else if op = 4 then .ok ([(kS d, add32 x simm)], false, .seq)
  else if 0x10 ≤ op ∧ op ≤ 0x1B then .ok ([(kS d, scalarOp op x y)], false, .seq)
  else if op = 0x20 then .ok ([], false, if x ≠ 0 then .jump target else .seq)
  else if op = 0x21 then .ok ([], false, if x = 0 then .jump target else .seq)
  else if op = 0x22 then .ok ([], false, .jump target)
  else if op = 0x28 then do return ([], false, ← b.loopOp w pc)
  else if op = 0x30 then
    match specReg (bits w 16 7) with
    | none => .error eOpcode
    | some (k, lo, wd) =>
      if k = kSTAT ∨ (b.loops.any fun l => kLC l.lc = k) then .error eOpcode
      else
        let old := b.get k
        .ok ([(k, old - bits old lo wd * 2 ^ lo + y % 2 ^ wd * 2 ^ lo)], false, .seq)
  else if op = 0x31 then
    match specReg (bits w 16 7) with
    | none => .error eOpcode
    | some (k, lo, wd) => .ok ([(kS (bits w 12 4), bits (b.get k) lo wd)], false, .seq)
  else if op = 0x32 then .ok ([], true, .seq)
  else .error eOpcode

/-! ### The V slot (R249 to R252) -/

/-- Fields of the V slot. -/
structure VOp where
  op : Nat
  d : Nat
  a : Nat
  b : Nat
  c : Nat
  acc : Nat
  mask : Nat
  maskEn : Bool
  stage : Nat
  imm : Nat
deriving DecidableEq, Repr

/-- The fields of the slot's 48 bits. -/
def VOp.ofBits (w : Nat) : VOp :=
  { op := bits w 40 8, d := bits w 34 6, a := bits w 28 6, b := bits w 22 6, c := bits w 16 6, acc := bits w 13 3,
    mask := bits w 10 3, maskEn := bits w 9 1 = 1, stage := bits w 7 2, imm := bits w 0 7 }

/-- What a V op gives: register writes, and the bits of STAT that it sets. -/
abbrev VOut := List (Nat × Nat) × Nat

/-- The mask bits of an op. -/
def BerylBank.maskOfOp (b : BerylBank) (v : VOp) : Nat := b.get (kK v.mask)

/-- A vector register written lane by lane under the mask. -/
def BerylBank.putC (b : BerylBank) (v : VOp) (w n : Nat) (new : List Nat) : List (Nat × Nat) :=
  [(b.phys v.d, joinLanes w (mergeLanes v.maskEn (b.maskOfOp v) (laneList (b.c v.d) w n) new))]

/-- A pair written lane by lane under the mask. -/
def BerylBank.putD (b : BerylBank) (v : VOp) (w n : Nat) (new : List Nat) : List (Nat × Nat) :=
  let r := joinLanes w (mergeLanes v.maskEn (b.maskOfOp v) (laneList (b.d v.d) w n) new)
  [(b.phys v.d, r % 2 ^ 512), (b.phys (v.d + 1), r / 2 ^ 512)]

/-- The flag of any lane that the op writes. -/
def BerylBank.anyLane (b : BerylBank) (v : VOp) (fl : List Bool) : Bool :=
  fl.zipIdx.any fun x => x.1 && (!v.maskEn || bitOf (b.maskOfOp v) x.2)

/-- A STAT bit from a flag. -/
def statBit (i : Nat) (f : Bool) : Nat := if f then 2 ^ i else 0

/-- The accumulator lanes of A[acc] (R239). -/
def BerylBank.accLanes (b : BerylBank) (i : Nat) : List (Int × Int) :=
  (laneList (b.get (kA i)) 80 16).map fun x => (toSigned 40 (bits x 0 40), toSigned 40 (bits x 40 40))

/-- An accumulator written (R250): components saturated to 40 bits. -/
def BerylBank.putA (b : BerylBank) (v : VOp) (zs : List (Int × Int)) : VOut :=
  let r := zs.map fun z => (satBits 40 z.1, satBits 40 z.2)
  let new := r.map fun x => x.1.1 + 2 ^ 40 * x.2.1
  ([(kA v.acc, joinLanes 80 (mergeLanes v.maskEn (b.maskOfOp v) (laneList (b.get (kA v.acc)) 80 16) new))],
    statBit 0 (b.anyLane v (r.map fun x => x.1.2 || x.2.2)))

/-- The complex lanes of C[i]. -/
def BerylBank.cplxLanes (b : BerylBank) (i : Nat) : List (Int × Int) := (laneList (b.c i) 32 16).map cplx

/-- Integer results with their saturation, written as `w`-bit lanes of C[d]. -/
def BerylBank.putInt (b : BerylBank) (v : VOp) (w n : Nat) (r : List (Nat × Bool)) : VOut :=
  (b.putC v w n (r.map (·.1)), statBit 1 (b.anyLane v (r.map (·.2))))

/-- Complex and INT16 ops, 0x01 to 0x0D (R249, R250). -/
def BerylBank.intOp (b : BerylBank) (v : VOp) : Except Nat VOut :=
  let za := b.cplxLanes v.a
  let zb := b.cplxLanes v.b
  let prods (conj : Bool) := (za.zip zb).map fun x => cmul conj x.1 x.2
  let acc := b.accLanes v.acc
  let plus (zs : List (Int × Int)) := (acc.zip zs).map fun x => (x.1.1 + x.2.1, x.1.2 + x.2.2)
  let ea := (laneList (b.c v.a) 16 32).map s16
  match v.op with
  | 0x01 => .ok (b.putA v (plus (prods false)))
  | 0x02 => .ok (b.putA v (prods false))
  | 0x03 => .ok (b.putA v (plus (prods true)))
  | 0x04 => .ok (b.putA v (prods true))
  | 0x05 => .ok (b.putInt v 32 16 ((prods false).map fun z => narrowC z (v.imm % 64)))
  | 0x06 => if 39 < v.imm % 64 then .error eOpcode else .ok (b.putInt v 32 16 (acc.map fun z => narrowC z (v.imm % 64)))
  | 0x07 =>
    if 24 < v.imm then .error eOpcode
    else .ok (b.putA v (za.map fun z => (z.1 * (2 ^ v.imm : Nat), z.2 * (2 ^ v.imm : Nat))))
  | 0x08 => .ok (b.putInt v 32 16 ((za.zip zb).map fun x => narrowC (x.1.1 + x.2.1, x.1.2 + x.2.2) 0))
  | 0x09 => .ok (b.putInt v 32 16 ((za.zip zb).map fun x => narrowC (x.1.1 - x.2.1, x.1.2 - x.2.2) 0))
  | 0x0A =>
    let k := toSigned 7 v.imm
    if k < -16 ∨ 15 < k then .error eOpcode
    else .ok (b.putInt v 16 32 (ea.map fun x =>
      if 0 ≤ k then satBits 16 (x * (2 ^ k.toNat : Nat)) else narrowInt 16 x (-k).toNat))
  | 0x0B =>
    if v.maskEn then .error eOpcode
    else .ok ([(kS (v.d % 16), (laneList (b.c v.a) 16 32).foldl (fun m x => min m (signBits x)) 15)], 0)
  | 0x0C =>
    if v.maskEn then .error eOpcode
    else .ok (b.putInt v 16 32 (ea.zipIdx.map fun x => satBits 16 (if bitOf (b.maskOfOp v) x.2 then -x.1 else x.1)))
  | _ =>
    let eb := (laneList (b.c v.b) 16 32).map s16
    .ok (b.putInt v 8 64 ((ea ++ eb).map fun x => narrowInt 8 x (v.imm % 16)))

/-- The lane format of a float op: FP32 with 32 lanes, or BF16 with 64 (R249). -/
def VOp.fmt (v : VOp) : FFmt := if v.imm % 2 = 1 then bf16 else fp32

/-- STAT bits of the float patterns that an op writes (R251). -/
def BerylBank.specials (b : BerylBank) (v : VOp) (f : FFmt) (xs : List Nat) : Nat :=
  let vs := xs.map f.decode
  statBit 2 (b.anyLane v (vs.map fun x => decide (x = .nan)))
    + statBit 3 (b.anyLane v (vs.map fun x => match x with | .inf _ => true | _ => false))

/-- Float results written to D[d]. -/
def BerylBank.putF (b : BerylBank) (v : VOp) (f : FFmt) (xs : List Nat) : VOut :=
  (b.putD v f.width (1024 / f.width) xs, b.specials v f xs)

/-- The values of the lanes of D[i] in a format. -/
def BerylBank.vals (b : BerylBank) (f : FFmt) (i : Nat) : List Val :=
  (laneList (b.d i) f.width (1024 / f.width)).map f.decode

/-- The whole of D[d] written: lane 0 in FP32, other lanes +0. -/
def BerylBank.putScalar (b : BerylBank) (v : VOp) (x : Nat) : VOut :=
  ([(b.phys v.d, x), (b.phys (v.d + 1), 0)], b.specials v fp32 [x])

/-- FCVT (R252). -/
def BerylBank.fcvt (b : BerylBank) (v : VOp) : Except Nat VOut :=
  let kind := bits v.imm 1 4
  let h := bits v.imm 5 1
  let half := bits (b.c v.a) (256 * h) 256
  let sc := b.get (kS (v.c % 16))
  let dOdd := v.d % 2 = 1
  let aOdd := v.a % 2 = 1
  let narrow (f : FFmt) : VOut :=
    let xs := (b.vals fp32 v.a).map fun x => (f.convert x).1
    (b.putC v f.width 32 xs, b.specials v f xs)
  let widen (f : FFmt) : VOut := b.putF v fp32 ((laneList (b.c v.a) 16 32).map fun x => (fp32.convert (f.decode x)).1)
  let dequant (f : FFmt) : VOut :=
    b.putF v fp32 ((laneList half 8 32).map fun x => (fp32.convert ((f.decode x).mul (scaleVal (bits sc 0 8)))).1)
  if v.imm % 2 = 1 then .error eOpcode
  else match kind with
    | 0 => if aOdd then .error eOpcode else .ok (narrow bf16)
    | 1 => if dOdd then .error eOpcode else .ok (widen bf16)
    | 2 => if aOdd then .error eOpcode else .ok (narrow fp16)
    | 3 => if dOdd then .error eOpcode else .ok (widen fp16)
    | 4 => if aOdd then .error eOpcode else .ok (b.putInt v 16 32 ((b.vals fp32 v.a).map Val.toInt16))
    | 5 =>
      if dOdd then .error eOpcode
      else .ok (b.putF v fp32 ((laneList (b.c v.a) 16 32).map fun x => fp32.arith (Val.ofInt (s16 x))))
    | 6 =>
      if dOdd then .error eOpcode
      else .ok (b.putF v bf16 ((laneList half 4 64).zipIdx.map fun x =>
        (bf16.convert ((e2m1.decode x.1).mul (scaleVal (bits sc (8 * (x.2 / 32)) 8)))).1))
    | 7 => if dOdd then .error eOpcode else .ok (dequant e4m3)
    | 8 => if dOdd then .error eOpcode else .ok (dequant e5m2)
    | _ => .error eOpcode

/-- Float ops, 0x20 to 0x2E (R249, R251): the register names of pairs are even. -/
def BerylBank.floatOp (b : BerylBank) (v : VOp) : Except Nat VOut :=
  let f := v.fmt
  let x := b.vals f v.a
  let y := b.vals f v.b
  let z := b.vals f v.c
  let odd1 := v.d % 2 = 1 || v.a % 2 = 1
  let odd2 := odd1 || v.b % 2 = 1
  let two (g : Val → Val → Val) : Except Nat VOut :=
    if odd2 then .error eOpcode else .ok (b.putF v f ((x.zip y).map fun p => f.arith (g p.1 p.2)))
  let one (g : Val → Nat) : Except Nat VOut := if odd1 then .error eOpcode else .ok (b.putF v f (x.map g))
  let wide := x.map fun p => fp32.arith p
  match v.op with
  | 0x20 =>
    if odd2 || v.c % 2 = 1 then .error eOpcode
    else .ok (b.putF v f (((x.zip y).zip z).map fun p => f.arith (Val.sum [p.1.1.mul p.1.2, p.2])))
  | 0x21 => two fun p q => Val.sum [p, q]
  | 0x22 => two fun p q => Val.sum [p, q.neg]
  | 0x23 => two Val.mul
  | 0x24 => two Val.fmax
  | 0x25 => two Val.fmin
  | 0x26 =>
    let cond := bits v.imm 1 3
    if v.maskEn ∨ v.a % 2 = 1 ∨ v.b % 2 = 1 ∨ 4 < cond then .error eOpcode
    else
      let r := (x.zip y).map fun p => fcond cond p.1 p.2
      let k := kK (v.d % 8)
      let n := r.length
      .ok ([(k, b.get k / 2 ^ n * 2 ^ n + joinLanes 1 (r.map fun t => if t then 1 else 0))], 0)
  | 0x27 =>
    if odd2 then .error eOpcode
    else
      let n := 1024 / f.width
      .ok (b.putF v f (((laneList (b.d v.a) f.width n).zip (laneList (b.d v.b) f.width n)).zipIdx.map fun p =>
        if bitOf (b.maskOfOp v) p.2 then p.1.1 else p.1.2))
  | 0x28 =>
    if odd1 || v.maskEn then .error eOpcode
    else .ok (b.putScalar v (treeReduce (fun p q => fp32.arith (Val.sum [fp32.decode p, fp32.decode q])) 6 wide))
  | 0x29 =>
    if odd1 || v.maskEn then .error eOpcode
    else .ok (b.putScalar v (treeReduce (fun p q => fp32.arith ((fp32.decode p).fmax (fp32.decode q))) 6 wide))
  | 0x2A => b.fcvt v
  | 0x2B => one f.exp2
  | 0x2C => one f.flog2
  | 0x2D => one f.recip
  | 0x2E => one f.rsqrt
  | _ => .error eOpcode

/-- Moves and bitwise ops, 0x40 to 0x46 (R249). -/
def BerylBank.moveOp (b : BerylBank) (v : VOp) : Except Nat VOut :=
  let word (x : Nat) : VOut := (b.putC v 32 16 (laneList x 32 16), 0)
  let la := laneList (b.c v.a) 32 16
  match v.op with
  | 0x40 => .ok (word (b.c v.a))
  | 0x41 => .ok (word (b.c v.a &&& b.c v.b))
  | 0x42 => .ok (word (b.c v.a ||| b.c v.b))
  | 0x43 => .ok (word (b.c v.a ^^^ b.c v.b))
  | 0x44 => .ok (b.putC v 32 16 ((laneList (b.c v.b) 32 16).map fun i => la.getD (i % 16) 0), 0)
  | 0x45 => .ok (b.putC v 32 16 ((List.range 16).map fun _ => b.get (kS (v.a % 16))), 0)
  | 0x46 => if v.maskEn then .error eOpcode else .ok ([(kS (v.d % 16), la.getD (v.imm % 16) 0)], 0)
  | _ => .error eOpcode

/-- The V slot. -/
def BerylBank.vSlot (b : BerylBank) (w : Nat) : Except Nat VOut := do
  if w = 0 then return ([], 0)
  let v := VOp.ofBits w
  if !(← b.stageOn v.stage) then return ([], 0)
  if 0x01 ≤ v.op ∧ v.op ≤ 0x0D then b.intOp v
  else if 0x20 ≤ v.op ∧ v.op ≤ 0x2E then b.floatOp v
  else if 0x40 ≤ v.op ∧ v.op ≤ 0x46 then b.moveOp v
  else .error eOpcode

/-! ### A bundle (R242, R253 to R255, R258, R259) -/

/-- The end of the bundle at `at_`: the iterations that end with it, innermost loop first (R253, R255). -/
def BerylBank.advance (b : BerylBank) (at_ : Nat) : Nat → BerylBank
  | 0 => b.set kPC ((at_ + 1) % 2 ^ 13)
  | fuel + 1 =>
    match b.loops with
    | [] => b.set kPC ((at_ + 1) % 2 ^ 13)
    | l :: ls =>
      if at_ + 1 ≠ l.first + l.body then b.set kPC ((at_ + 1) % 2 ^ 13)
      else
        let b := if l.rot then b.set kVRB ((b.get kVRB + 31) % 32) else b
        let left := l.count + l.sc - 1 - (l.iter + 1)
        let b := b.set kLC0 left
        if left = 0 then ({ b with loops := ls }).advance at_ fuel
        else ({ b with loops := { l with iter := l.iter + 1 } :: ls }).set kPC l.first
where
  /-- The counter of the innermost loop. -/
  kLC0 : Nat := kLC ((b.loops.head?.map (·.lc)).getD 0)

/-- The active loops that a branch to `t` leaves running: those in whose body the target lies (R248). -/
def keepLoops (t : Int) : List BerylLoop → List BerylLoop
  | [] => []
  | l :: ls =>
    let r := keepLoops t ls
    if (l.first : Int) ≤ t ∧ t < (l.first + l.body : Nat) ∧ r.length = ls.length then l :: r else r

/-- Where the bank goes after the bundle at `pc`; a target is kept in 32 bits, so that one outside I memory is refused
when it is fetched (R248). -/
def BerylBank.goNext (b : BerylBank) (pc : Nat) : BerNext → BerylBank
  | .seq => b.advance pc 5
  | .halt => { b with running := false }
  | .jump t => { b with loops := keepLoops t b.loops }.set kPC (ofSigned 32 t)
  | .enter l => (({ b with loops := l :: b.loops }).set (kLC l.lc) (l.count + l.sc - 1)).set kPC l.first
  | .past body => b.advance (pc + body) 5

/-- Whether a list of register numbers holds one twice. -/
def twice : List Nat → Bool
  | [] => false
  | k :: ks => ks.contains k || twice ks

/-- The address of the fetch: a program counter outside the bank's part of I memory, or in a block that is not
valid, fails with ERR_PERM (R236, R237, R248). -/
def State.fetchable (s : State) (p bank pc : Nat) : Bool :=
  decide (pc < 4096) && s.berylPart p bank 2 (16 * pc) 16
    && (bank = 0 || bitOf (s.beryl p).valid (64 + 16 * pc / 4096))

/-- The bundle at the program counter executed: the state after it, or the fault that it raises.  `fx` and `fy` are
what the checks of the lines that its X and its Y slot read find (R235, R260). -/
def State.runBundle (s : State) (p bank slot : Nat) (fx fy : List LineCheck) : Except Fail State := do
  let b := s.berylBank p bank
  let pc := b.get kPC
  let w := leNat (s.berylBytes p (2 * 2 ^ 20 + 16 * pc) 16)
  let (xw, s) ← s.xySlot p bank slot b 0 (bits w 0 24) fx
  let (yw, s) ← s.xySlot p bank slot b 1 (bits w 24 24) fy
  let (vw, st) ← plainFail (b.vSlot (bits w 48 48))
  let (sw, clr, nx) ← plainFail (b.sSlot (bits w 96 32) pc)
  let ws := xw ++ yw ++ vw ++ sw
  if twice (ws.map (·.1)) then .error (eOpcode, 0)
  let b := s.berylBank p bank
  let b := ws.foldl (fun b x => b.set x.1 x.2) b
  let b := b.set kSTAT ((if clr then 0 else b.get kSTAT) ||| st)
  return s.setBank p bank ({ b with seen := b.seen ||| st }.goNext pc nx)

/-- What BER_SAT counts of a command that ends (R249 of chapter 6, R250, R251). -/
def State.countSeen (s : State) (p slot seen : Nat) : State :=
  let s := if bitOf seen 0 then s.count F.BER_SAT_acc_sat p 1 else s
  let s := if bitOf seen 1 then s.count F.BER_SAT_int_sat p 1 else s
  let s := if bitOf seen 2 || bitOf seen 3 then s.count F.BER_SAT_special p 1 else s
  if seen ≠ 0 then s.setFld F.BER_SAT_last_slot p slot else s

/-- The program of a bank has ended: its BRUN has done its work, flagged when the bank is poisoned (R258,
R260), with the digest of its stores (R378). -/
def State.endProgram (s : State) (p bank slot : Nat) : State :=
  let b := s.berylBank p bank
  let s := ((s.setBank p bank { b with running := false, loops := [], seen := 0 }).countSeen p slot b.seen).onCmd p slot
    b.seq fun c => if c.digest then { c with digests := [⟨b.crc, b.stored, b.tainted⟩] } else c
  s.worked p slot b.seq b.poison

/-- The context slot whose program a bank runs. -/
def State.bankSlot (s : State) (p bank : Nat) : Nat :=
  if bank = 0 then 0 else s.fld F.CORE_LEASE_STATUS_rental_slot p

/-- Whether a bank may issue a bundle now (R43, R238, R258). -/
def State.bankIssues (s : State) (p bank : Nat) : Bool :=
  let slot := s.bankSlot p bank
  bank < 2 && (s.berylBank p bank).running && s.engineServes p slot 1
    && (s.core p).evict.all (fun v => v.slot ≠ slot)
    && (s.ctx p slot).any fun x => !x.evicted && !x.frozen && x.tickHold.isNone
        && (x.cmd (s.berylBank p bank).seq).isSome

/-- The end of a program by a fault of one of its bundles (R259). -/
def State.bundleFault (s : State) (p bank slot : Nat) (f : Fail) : State :=
  let b := s.berylBank p bank
  let s := (s.setBank p bank { b with running := false, loops := [], seen := 0 }).countSeen p slot b.seen
  match (s.ctx p slot).bind fun x => x.cmd b.seq with
  | some c => if slot = 0 then (s.skip p slot c f.1 f.2 (s.breaks c)).settle
      else (s.teardown p slot f.1 f.2 (some c)).afterRelease p
  | none => s

/-- BUNDLE (R242): one bundle, with what the checks of its fetch and of the lines that its X and Y slots read find
(R235, R260).  BER_STALL counts the cycles of its holds, which depend on arbitration: a free value (R243, log entry
9). -/
def execBundle (p bank : Nat) (fetched : LineCheck) (loaded : List LineCheck × List LineCheck) (s : State) : Host.Outcome State Fault Refusal :=
  done <|
    if !s.bankIssues p bank then s
    else
      let slot := s.bankSlot p bank
      let pc := (s.berylBank p bank).get kPC
      if !s.fetchable p bank pc then s.bundleFault p bank slot (ePerm, 0)
      else if fetched = .uncorrectable then
        (((((s.count F.BER_FAULT_uncorrected p 1).setFld F.BER_FAULT_last_slot p slot).uncorrectable p).berylPoison p bank
          slot).endProgram p bank slot).settle
      else
        let s := if fetched = .correctable then
            ((s.count F.BER_FAULT_corrected p 1).setFld F.BER_FAULT_last_slot p slot).correctedError p
          else s
        match s.runBundle p bank slot loaded.1 loaded.2 with
        | .error f => s.bundleFault p bank slot f
        | .ok s =>
          let s := if bank = 1 then
              let (v, s) := (s.count F.BER_ISSUE_count p 1).free
              s.count F.BER_STALL_count p v
            else s
          if (s.berylBank p bank).running then s else (s.endProgram p bank slot).settle

/-! ### Commands (R256, R257) -/

/-- The bank of a context slot. -/
def bankOfSlot (slot : Nat) : Nat := if slot = 0 then 0 else 1

/-- The start of a Beryl command: decoded, once, the entries read kept (R150); its granules claimed (R194); then
acting. -/
def State.berylCmd (s : State) (p slot op : Nat) (check : Nat → Ctx → QCmd → CList → Except Fail Unit)
    (bufs : QCmd → CList → List (Except Fail Buf)) (act : Nat → QCmd → CList → State → State) : State :=
  match s.startOp p slot 1 op, s.logicalOf p with
  | some (x, c), some n =>
    match x.listOf c with
    | none => s
    | some l =>
      match if c.plan.isSome then .ok () else check n x c l with
      | .error f => s.failSettle p slot c f
      | .ok () =>
        let bs := (bufs c l).filterMap fun b => match b with | .ok b => some b | .error _ => none
        let c := { c with plan := some ⟨bs, []⟩ }
        let s := s.onCmd p slot c.seq fun d => { d with plan := c.plan }
        let (own, clm) := claimSets n bs
        if slot ≠ 0 ∧ !s.claimable p slot x.owner own clm then s.holdClaim p slot c.seq own clm
        else
          let s := if slot ≠ 0 then s.claimAll p slot x.owner own clm else s
          (act n c l (s.onCmd p slot c.seq fun c => { c with claim := false })).settle
  | _, _ => s

/-- A Beryl command other than BRUN has done its work; it is flagged while the bank is poisoned (R260). -/
def State.berylWorked (s : State) (p slot seq : Nat) : State :=
  s.worked p slot seq (s.berylBank p (bankOfSlot slot)).poison

/-- The fields of BLOAD and BSTORE: memory, offset and bytes. -/
def QCmd.berMem (c : QCmd) : Nat := c.pay 40 2
def QCmd.berOff (c : QCmd) : Nat := c.pay 42 17
def QCmd.berLen (c : QCmd) : Nat := c.pay 59 12 * 64

/-- A buffer that a Beryl command names: an entry of another kind is not a device buffer in the core's own scratchpad,
and fails with ERR_PERM (R257). -/
def State.berEntry (s : State) (c : QCmd) (l : CList) (i : Nat) : Except Fail Buf :=
  match s.planBuf c l.bufBase l.bufCount i eOob with
  | .error f =>
    let kind := leAt (s.bytesAt (l.bufBase + 64 * i) 64) 0 1
    if f.1 = eOpcode ∧ kind ≠ 1 ∧ kind ≠ 2 then .error (ePerm, 0) else .error f
  | .ok b => .ok b

/-- The buffer of BLOAD and BSTORE. -/
def State.berBuf (s : State) (c : QCmd) (l : CList) : Except Fail Buf := s.berEntry c l (c.pay 0 12)

/-- Failures of an entry that come first: all but those that stand in a row of R257. -/
def entryFirst (b : Except Fail Buf) : Except Fail Unit :=
  match b with
  | .error f => if f.1 = eOob ∨ f.1 = ePerm then .ok () else .error f
  | .ok _ => .ok ()

/-- An entry without the right to be used. -/
def entryPerm (b : Except Fail Buf) : Except Fail Unit :=
  match b with
  | .error f => if f.1 = ePerm then .error f else .ok ()
  | .ok _ => .ok ()

/-- The decode of BLOAD and BSTORE (R257). -/
def State.moveCheck (s : State) (p slot n : Nat) (x : Ctx) (c : QCmd) (l : CList) (store : Bool) : Except Fail Unit := do
  let m := c.berMem
  let sp : Span := { buf := s.berBuf c l, index := c.pay 0 12, off := c.pay 12 28, len := c.berLen, align := 64,
                     write := store }
  failIf (c.pay 71 57 ≠ 0 || m = 3 || (store && m = 2)) eOpcode 0
  entryFirst sp.buf
  sp.on Buf.reservedCheck
  entryPerm sp.buf
  sp.on fun b => do
    failIf (outsideOwn n b) ePerm 0
    s.bufPerm x.owner n b store
  failIf (s.berylForeign p (bankOfSlot slot) m c.berOff c.berLen) ePerm 0
  match sp.buf with
  | .error f => .error f
  | .ok b => failIf (decide (b.length < sp.off)) eOob sp.index
  failIf (sp.off % 64 ≠ 0 || c.berOff % 64 ≠ 0) eAlign sp.index
  sp.on fun b => failIf (decide (b.length < sp.off + sp.len)) eLen sp.index
  failIf (decide (berylSize m < c.berOff + c.berLen)) eLen 0

/-- The digest of the lines that BLOAD or BSTORE wrote, in ascending address: their bytes and tags (R378). -/
def QCmd.moveDigest (c : QCmd) (ls : List (Bytes × Bool)) : QCmd :=
  if c.digest then
    { c with digests := [⟨crc64 (ls.flatMap (·.1)), 64 * ls.length, ls.any (·.2)⟩] }
  else c

/-- One line moved into a Beryl memory, with its tag (R193, R260). -/
def State.loadLine (s : State) (p slot src key : Nat) (found : LineCheck) : State :=
  let s := s.spmFound src found
  let t := s.poisoned src
  let s := s.berylWrite p key (s.bytesAt src 64) t
  if t then s.berylPoison p (bankOfSlot slot) slot else s

/-- One line moved out of a Beryl memory (R235, R260). -/
def State.storeLine (s : State) (p slot key dst : Nat) (found : LineCheck) : State :=
  let s := s.berylFound p (bankOfSlot slot) slot key found
  let s := if s.berylTagged p key 64 then s.berylPoison p (bankOfSlot slot) slot else s
  s.writeMem dst (s.berylBytes p key 64) (s.berylBank p (bankOfSlot slot)).poison

/-- BLOAD (R256), with what the checks of the lines read find (R193). -/
def execBload (p : Nat) (move : BerylMove) (s : State) : Host.Outcome State Fault Refusal :=
  done (s.berylCmd p move.slot 1 (fun n x c l => s.moveCheck p move.slot n x c l false) (fun c l => [s.berBuf c l])
    fun _ c l s =>
      match s.berBuf c l with
      | .error _ => s
      | .ok b =>
        let src (i : Nat) : Nat := b.base + c.pay 12 28 + 64 * i
        let s := (List.range (c.pay 59 12)).foldl (fun s i =>
          s.loadLine p move.slot (src i) (c.berMem * 2 ^ 20 + c.berOff + 64 * i) (checkAt move.found i)) s
        let ls := (List.range (c.pay 59 12)).map fun i => (s.bytesAt (src i) 64, s.poisoned (src i))
        (s.onCmd p move.slot c.seq (·.moveDigest ls)).berylWorked p move.slot c.seq)

/-- BSTORE (R256), with what the checks of the words read find (R235). -/
def execBstore (p : Nat) (move : BerylMove) (s : State) : Host.Outcome State Fault Refusal :=
  done (s.berylCmd p move.slot 2 (fun n x c l => s.moveCheck p move.slot n x c l true) (fun c l => [s.berBuf c l])
    fun _ c l s =>
      match s.berBuf c l with
      | .error _ => s
      | .ok b =>
        let dst (i : Nat) : Nat := b.base + c.pay 12 28 + 64 * i
        let s := (List.range (c.pay 59 12)).foldl (fun s i =>
          s.storeLine p move.slot (c.berMem * 2 ^ 20 + c.berOff + 64 * i) (dst i) (checkAt move.found i)) s
        let ls := (List.range (c.pay 59 12)).map fun i => (s.bytesAt (dst i) 64, s.poisoned (dst i))
        (s.onCmd p move.slot c.seq (·.moveDigest ls)).berylWorked p move.slot c.seq)

/-- The windows that a BRUN binds: their numbers and buffer indexes (R256). -/
def QCmd.bound (c : QCmd) : List (Nat × Nat) :=
  ((List.range 8).map fun w => (w, c.pay (12 + 12 * w) 12)).filter fun x => x.2 ≠ 0xFFF

/-- The decode of BRUN (R257). -/
def State.brunCheck (s : State) (p slot n : Nat) (x : Ctx) (c : QCmd) (l : CList) : Except Fail Unit := do
  let bufs := c.bound.map fun w => (w.2, s.berEntry c l w.2)
  let on (f : Buf → Except Fail Unit) : Except Fail Unit :=
    firstFail (bufs.map fun b => match b.2 with | .ok b => f b | .error _ => .ok ())
  failIf (c.pay 108 20 ≠ 0) eOpcode 0
  firstFail (bufs.map fun b => entryFirst b.2)
  on Buf.reservedCheck
  firstFail (bufs.map fun b => entryPerm b.2)
  on fun b => do
    failIf (outsideOwn n b) ePerm 0
    failIf (!s.mayReach x.owner n b.base b.length true) ePerm 0
  firstFail (bufs.map fun b => match b.2 with | .error f => .error f | .ok _ => .ok ())
  failIf (!s.berylPart p (bankOfSlot slot) 2 (16 * c.pay 0 12) 16) eLen 0

/-- BRUN (R256, R258): its program starts; its bundles are BUNDLE's. -/
def execBrun (p slot : Nat) (s : State) : Host.Outcome State Fault Refusal :=
  done (s.berylCmd p slot 3 (fun n x c l => s.brunCheck p slot n x c l)
    (fun c l => c.bound.map fun w => s.berEntry c l w.2)
    fun _ c l s =>
      let k := bankOfSlot slot
      let b := s.berylBank p k
      let ws := (List.range 8).map fun w =>
        match c.bound.find? fun x => x.1 = w with
        | some x => match s.berEntry c l x.2 with
          | .ok v => some (⟨x.2, v.base, v.length, v.rd, v.wr⟩ : BerylWin)
          | .error _ => none
        | none => none
      let b := { b with windows := ws, loops := [], running := true, seq := c.seq, seen := 0, crc := 0, stored := 0,
                        tainted := false }
      (s.setBank p k (b.set kPC (c.pay 0 12))).begin p slot c.seq)

/-- BSETS (R256). -/
def execBsets (p slot : Nat) (s : State) : Host.Outcome State Fault Refusal :=
  done (s.berylCmd p slot 4
    (fun _ _ c _ => failIf (c.pay 6 2 ≠ 0 || c.pay 104 24 ≠ 0 || decide (16 < c.pay 0 4 + c.pay 4 2)) eOpcode 0)
    (fun _ _ => [])
    fun _ c _ s =>
      let k := bankOfSlot slot
      let b := (List.range (c.pay 4 2)).foldl (fun (b : BerylBank) i => b.set (kS (c.pay 0 4 + i)) (c.pay (8 + 32 * i) 32))
        (s.berylBank p k)
      (s.setBank p k b).berylWorked p slot c.seq)

/-- BPCLR (R256, R260). -/
def execBpclr (p slot : Nat) (s : State) : Host.Outcome State Fault Refusal :=
  done (s.berylCmd p slot 5 (fun _ _ c _ => failIf (c.pay 0 128 ≠ 0) eOpcode 0) (fun _ _ => [])
    fun _ c _ s =>
      let k := bankOfSlot slot
      (s.setBank p k { s.berylBank p k with poison := false }).berylWorked p slot c.seq)

/-- The blocks of a BTRIM, as bit numbers of the valid bits. -/
def QCmd.trimmed (c : QCmd) : List Nat := (List.range 80).filter fun i => bitOf (c.pay 0 80) i

/-- BTRIM (R256): its blocks read as zero from then on (R237). -/
def execBtrim (p slot : Nat) (s : State) : Host.Outcome State Fault Refusal :=
  done (s.berylCmd p slot 6
    (fun _ _ c _ => do
      failIf (c.pay 80 48 ≠ 0 || slot = 0) eOpcode 0
      failIf (c.trimmed.any fun i => decide (i % 32 * 4096 < s.berylRadio p (i / 32))) ePerm 0)
    (fun _ _ => [])
    fun _ c _ s =>
      let b := c.trimmed.foldl (fun (b : BerylCore) i =>
        { b with valid := if bitOf b.valid i then b.valid - 2 ^ i else b.valid
                 mem := dropRange b.mem (blockKey i) 4096
                 tags := dropRange b.tags (blockKey i / 64) 64 }) (s.beryl p)
      (s.setBeryl p b).berylWorked p slot c.seq)

end Sys2Proof.Machine
end

