-- ==== Sys2Proof/Machine/Codec.lean ====
section
/-!
DEFINITION. The fields of a Jasper job (R291) and its codes (R292, R297): CRC attachment, rate matching and
interleaving as TS 38.212 and TS 36.212 give them, and the shape of the encoders and decoders.  The tables of those
documents and the decoders' arithmetic, which is that of the radio reference model, are opaque functions of Config
(log entry 10); what is written out here from the documents is PRESUMED (log entry 30).
-/
namespace Sys2Proof.Machine

/-! ### The job (R291, R292) -/

/-- A field of a job. -/
def jobF (b : Bytes) (off len : Nat) : Nat := leAt b off len

def jobOp (b : Bytes) : Nat := jobF b 0 1
def jobDecode (b : Bytes) : Bool := jobOp b % 2 = 1
def jobLdpc (b : Bytes) : Bool := jobOp b = 1 || jobOp b = 2
def jobPolar (b : Bytes) : Bool := jobOp b = 3 || jobOp b = 4
def jobTurbo (b : Bytes) : Bool := jobOp b = 5 || jobOp b = 6
def jobTbcc (b : Bytes) : Bool := jobOp b = 7 || jobOp b = 8
def jobNdi (b : Bytes) : Bool := bitOf (jobF b 1 1) 0
def jobLbrm (b : Bytes) : Bool := bitOf (jobF b 1 1) 1
def jobCell (b : Bytes) : Nat := bits (jobF b 2 2) 0 10
def jobDeadline (b : Bytes) : Nat := jobF b 4 4
def jobIn (b : Bytes) : Nat := jobF b 8 8
def jobOut (b : Bytes) : Nat := jobF b 0x10 8
def jobHarq (b : Bytes) : Nat := jobF b 0x18 8
def jobP0 (b : Bytes) : Nat := jobF b 0x20 2
def jobP1 (b : Bytes) : Nat := jobF b 0x22 2
def jobE (b : Bytes) (i : Nat) : Nat := if i < jobF b 0x2E 2 then jobF b 0x24 4 else jobF b 0x28 4
def jobC (b : Bytes) : Nat := jobF b 0x2C 2
def jobBg (b : Bytes) : Nat := bits (jobP1 b) 0 2
def jobFiller (b : Bytes) : Nat := if jobLdpc b || jobTurbo b then jobF b 0x32 2 else 0
def jobKcb (b : Bytes) : Nat := jobF b 0x30 2
def jobQm (b : Bytes) : Nat := jobF b 0x36 1
/-- The bits of a code block without filler.  kcb of a turbo job is a QPP size, which counts the filler bits that
TS 36.212 puts at the front of a block (DESIGN CHOICE, log entry 177). -/
def jobInfo (b : Bytes) : Nat := if jobTurbo b then jobKcb b - jobFiller b else jobKcb b

def jobIters (b : Bytes) : Nat := jobF b 0x38 1
def jobRows (b : Bytes) : Nat := jobF b 0x39 1
def jobSigEn (b : Bytes) : Bool := bitOf (jobF b 0x3A 2) 15
def jobSig (b : Bytes) : Nat := bits (jobF b 0x3A 2) 0 15

/-- The bits of all code blocks before block `i`. -/
def jobSumE (b : Bytes) (i : Nat) : Nat := (List.range i).foldl (fun n m => n + jobE b m) 0

/-- The bits of the transport-block CRC of an LDPC or turbo job. -/
def jobTbCrc (b : Bytes) : Nat :=
  if jobLdpc b ∨ jobTurbo b then
    match bits (jobP1 b) 8 2 with
    | 1 => 16
    | 2 => 24
    | _ => 0
  else 0

/-- The bits of the CRC of each code block: CRC24B when c is above 1; the polar and TBCC CRCs of p1. -/
def jobCbCrc (b : Bytes) : Nat :=
  if jobLdpc b ∨ jobTurbo b then (if 1 < jobC b then 24 else 0)
  else if jobPolar b then
    match bits (jobP1 b) 0 2 with
    | 0 => 24
    | 1 => 11
    | _ => 6
  else if bits (jobP1 b) 0 2 = 0 then 16 else 8

/-- The payload bits of a job, every CRC removed. -/
def jobPayload (b : Bytes) : Nat := jobC b * (jobInfo b - jobCbCrc b) - jobTbCrc b

/-- The circular-buffer length of a code block (R294): N of a polar block, three times kcb of a TBCC block. -/
def jobSoftLen (b : Bytes) : Nat :=
  if jobLbrm b then jobF b 0x34 2
  else if jobLdpc b then (if jobBg b = 1 then 66 else 50) * jobP0 b
  else if jobPolar b then jobP0 b
  else if jobTbcc b then 3 * jobKcb b
  else 3 * (jobKcb b + 4)

/-! ### CRCs (TS 38.212 section 5.1, TS 36.212 section 5.1.1) -/

/-- The remainder of a bit string, most significant bit first, under a generator of degree `w` whose lower bits are
`poly`, from the register value `init`. -/
def crcOver (w poly init : Nat) (l : List Bool) : Nat :=
  l.foldl (fun r b =>
    let n := r * 2 % 2 ^ w
    if bitOf r (w - 1) != b then n ^^^ poly else n) init

/-- A number as `w` bits, most significant first. -/
def msbBits (w x : Nat) : List Bool := (List.range w).map fun i => bitOf x (w - 1 - i)

/-- The number of bits, most significant first. -/
def msbValue (l : List Bool) : Nat := l.foldl (fun n b => 2 * n + if b then 1 else 0) 0

/-- A CRC: its bits, generator, the register at the start, and the mask put on its bits. -/
structure CrcKind where
  w : Nat
  poly : Nat
  init : Nat
  mask : Nat
deriving DecidableEq, Repr

/-- The bits of the CRC of a string. -/
def CrcKind.of (k : CrcKind) (l : List Bool) : List Bool := msbBits k.w (crcOver k.w k.poly k.init l ^^^ k.mask)

/-- Whether a string ends with its CRC. -/
def CrcKind.passes (k : CrcKind) (l : List Bool) : Bool :=
  decide (l.drop (l.length - k.w) = k.of (l.take (l.length - k.w)))

/-- The transport-block CRC of a job: CRC16 or CRC24A. -/
def jobTbKind (b : Bytes) : CrcKind := if jobTbCrc b = 16 then ⟨16, 0x1021, 0, 0⟩ else ⟨24, 0x864CFB, 0, 0⟩

/-- The CRC of its code blocks: CRC24B; CRC24C, CRC11 or CRC6; CRC16 masked by p0, or CRC8. -/
def jobCbKind (b : Bytes) : CrcKind :=
  if jobPolar b then
    match bits (jobP1 b) 0 2 with
    | 0 => ⟨24, 0xB2B117, Config.polarCrcStart b, 0⟩
    | 1 => ⟨11, 0x621, 0, 0⟩
    | _ => ⟨6, 0x21, 0, 0⟩
  else if jobTbcc b then
    if bits (jobP1 b) 0 2 = 0 then ⟨16, 0x1021, 0, jobP0 b⟩ else ⟨8, 0x9B, 0, 0⟩
  else ⟨24, 0x800063, 0, 0⟩

/-! ### Rate matching -/

/-- The column permutations of the sub-block interleavers: turbo, convolutional, polar. -/
def turboCols : List Nat :=
  [0, 16, 8, 24, 4, 20, 12, 28, 2, 18, 10, 26, 6, 22, 14, 30]
    ++ [1, 17, 9, 25, 5, 21, 13, 29, 3, 19, 11, 27, 7, 23, 15, 31]
def tbccCols : List Nat :=
  [1, 17, 9, 25, 5, 21, 13, 29, 3, 19, 11, 27, 7, 23, 15, 31]
    ++ [0, 16, 8, 24, 4, 20, 12, 28, 2, 18, 10, 26, 6, 22, 14, 30]
def polarCols : List Nat :=
  [0, 1, 2, 4, 3, 5, 6, 7, 8, 16, 9, 17, 10, 18, 11, 19] ++ [12, 20, 13, 21, 14, 22, 15, 23, 24, 25, 26, 28, 27, 29, 30, 31]

/-- The sub-block interleaver of a stream of `d` bits over 32 columns: for each place the bit that it holds, none for a
padding bit; `shift` is that of the third turbo stream. -/
def subBlock (cols : List Nat) (d shift : Nat) : List (Option Nat) :=
  let r := (d + 31) / 32
  let pad := 32 * r - d
  (List.range (32 * r)).map fun k =>
    let y := (cols.getD (k / r) 0 + 32 * (k % r) + shift) % (32 * r)
    if y < pad then none else some (y - pad)

/-- The circular buffer of a turbo block, as (stream, bit) of each place. -/
def turboBuffer (d : Nat) : List (Option (Nat × Nat)) :=
  let v (j shift : Nat) : List (Option (Nat × Nat)) := (subBlock turboCols d shift).map fun o => o.map fun i => (j, i)
  v 0 0 ++ ((v 1 0).zip (v 2 1)).flatMap fun x => [x.1, x.2]

/-- Whether a bit of a stream is a NULL bit: those of the first two streams that stem from filler bits (TS 36.212
section 5.1.3.2). -/
def turboNull (filler : Nat) (x : Nat × Nat) : Bool := decide (x.1 < 2) && decide (x.2 < filler)

/-- The places of the circular buffer of a turbo job that rate matching uses, as positions of the soft buffer, which
holds no padding (R294), and how many of them lie before its starting place. -/
def turboPlaces (kcb filler ncb start : Nat) : List Nat × Nat :=
  let buf := (turboBuffer (kcb + 4)).take ncb
  let r := buf.foldl (fun (r : List Nat × Nat × Nat × Nat) o =>
    let (ps, n, k, at_) := r
    match o with
    | none => (ps, n, k, at_ + 1)
    | some x =>
      if turboNull filler x then (ps, n + 1, k, at_ + 1)
      else (n :: ps, n + 1, if at_ < start then k + 1 else k, at_ + 1)) ([], 0, 0, 0)
  (r.1.reverse, r.2.2.1)

/-- The circular buffer of a TBCC block. -/
def tbccBuffer (d : Nat) : List (Option (Nat × Nat)) :=
  [0, 1, 2].flatMap fun j => (subBlock tbccCols d 0).map fun o => o.map fun i => (j, i)

/-- The place of the circular buffer at which a redundancy version starts. -/
def rateStart (b : Bytes) : Nat :=
  let n := jobSoftLen b
  let z := jobP0 b
  if jobLdpc b then
    let (c, k) := if jobBg b = 1 then (66, [0, 17, 33, 56]) else (50, [0, 13, 25, 43])
    k.getD (bits (jobF b 0x37 1) 0 2) 0 * n / (c * z) * z
  else
    let r := (jobKcb b + 4 + 31) / 32
    let ncb := if jobLbrm b then n else 96 * r
    r * (2 * ((ncb + 8 * r - 1) / (8 * r)) * bits (jobF b 0x37 1) 0 2 + 2)

/-- The first row count of the triangular interleaver for `e` bits. -/
def triangle (e : Nat) : Nat := ((List.range (e + 1)).find? fun t => decide (e ≤ t * (t + 1) / 2)).getD e

/-- The rate-matched bit that goes out in place `n` of block `i`: bit interleaving of LDPC over the modulation order,
the triangular interleaver of uplink polar, none elsewhere. -/
def rateOrder (b : Bytes) (i n : Nat) : Nat :=
  let e := jobE b i
  if jobLdpc b then n % jobQm b * (e / jobQm b) + n / jobQm b
  else if jobPolar b && bitOf (jobP1 b) 8 then
    let t := triangle e
    let rows := (List.range t).flatMap fun j => (List.range (t - j)).map fun r => r * t - r * (r - 1) / 2 + j
    (rows.filter fun k => k < e).getD n 0
  else n

/-- The circular-buffer position of the n-th rate-matched bit of code block `i`: fillers and padding are passed over,
and a shortened buffer wraps at its length. -/
def ratePosition (b : Bytes) (i n : Nat) : Nat :=
  let k := rateOrder b i n
  let len := jobSoftLen b
  if jobLdpc b then
    let lo := min len (jobKcb b - 2 * jobP0 b)
    let f := min (len - lo) (jobFiller b)
    let k0 := rateStart b
    let from' := if k0 ≤ lo then k0 else if lo + f ≤ k0 then k0 - f else lo
    let x := (from' + k) % (len - f)
    if x < lo then x else x + f
  else if jobPolar b then
    let e := jobE b i
    let y := if len ≤ e then k % len else if 16 * jobKcb b ≤ 7 * e then k + (len - e) else k
    polarCols.getD (32 * y / len) 0 * (len / 32) + y % (len / 32)
  else if jobTurbo b then
    let all := 3 * (32 * ((jobKcb b + 4 + 31) / 32))
    let ncb := if jobLbrm b then min len all else all
    let (ps, before) := turboPlaces (jobKcb b) (jobFiller b) ncb (rateStart b % ncb)
    ps.getD ((before + k) % ps.length) 0
  else k % len

/-! ### Encoders -/

/-- One step of the turbo constituent encoder: the three registers and an input give the parity and the registers. -/
def rscStep (s : Bool × Bool × Bool) (x : Bool) : Bool × (Bool × Bool × Bool) :=
  let a := x != (s.2.1 != s.2.2)
  (a != (s.1 != s.2.2), (a, s.1, s.2.1))

/-- The parity of a string, and the six tail bits: systematic and parity of each of three steps. -/
def rsc (l : List Bool) : List Bool × List (Bool × Bool) :=
  let r := l.foldl (fun (acc : List Bool × (Bool × Bool × Bool)) x =>
    let (z, s) := rscStep acc.2 x
    (acc.1 ++ [z], s)) ([], (false, false, false))
  let tail := (List.range 3).foldl (fun (acc : List (Bool × Bool) × (Bool × Bool × Bool)) _ =>
    let x := acc.2.2.1 != acc.2.2.2
    let (z, s) := rscStep acc.2 x
    (acc.1 ++ [(x, z)], s)) ([], r.2)
  (r.1, tail.1)

/-- The three streams of a turbo block (TS 36.212 section 5.1.3.2). -/
def turboStreams (l : List Bool) : List (List Bool) :=
  let k := l.length
  let (f1, f2) := Config.qppParam k
  let (z, t) := rsc l
  let (z', t') := rsc ((List.range k).map fun i => l.getD ((f1 * i + f2 * i * i) % k) false)
  let x (i : Nat) := (t.getD i (false, false)).1
  let p (i : Nat) := (t.getD i (false, false)).2
  let x' (i : Nat) := (t'.getD i (false, false)).1
  let p' (i : Nat) := (t'.getD i (false, false)).2
  [l ++ [x 0, p 1, x' 0, p' 1], z ++ [p 0, x 2, p' 0, x' 2], z' ++ [x 1, p 2, x' 1, p' 2]]

/-- The three streams of a TBCC block: constraint length 7, generators 133, 171 and 165 octal, started with the last six
bits (TS 36.212 section 5.1.3.1). -/
def tbccStreams (l : List Bool) : List (List Bool) :=
  let k := l.length
  let tap (g i : Nat) : Bool := (List.range 7).foldl (fun v m => v != (bitOf g (6 - m) && l.getD ((i + k - m) % k) false)) false
  [0x5B, 0x79, 0x75].map fun g => (List.range k).map (tap g)

/-- The circular buffer of a code block from its bits, CRC included. -/
def codedBuffer (b : Bytes) (l : List Bool) : List Bool :=
  let pick (buf : List (Option (Nat × Nat))) (ss : List (List Bool)) : List Bool :=
    (buf.filterMap id).map fun x => (ss.getD x.1 []).getD x.2 false
  if jobLdpc b then
    let info := l ++ List.replicate (jobFiller b) false
    info.drop (2 * jobP0 b) ++ Config.ldpcParity (jobBg b) (jobP0 b) info
  else if jobPolar b then Config.polarCode b l
  else if jobTurbo b then pick (turboBuffer (jobKcb b + 4)) (turboStreams (List.replicate (jobFiller b) false ++ l))
  else pick (tbccBuffer (jobKcb b)) (tbccStreams l)

/-- The bits of code block `i` of a payload: the transport-block CRC attached, the blocks cut, and each with its own
CRC. -/
def jobBlock (b : Bytes) (i : Nat) (payload : List Bool) : List Bool :=
  let tb := if jobTbCrc b = 0 then payload else payload ++ (jobTbKind b).of payload
  let own := jobInfo b - jobCbCrc b
  let l := (tb.drop (i * own)).take own
  if jobCbCrc b = 0 then l else l ++ (jobCbKind b).of l

/-- The rate-matched bits of code block `i`. -/
def jobEncode (b : Bytes) (i : Nat) (payload : List Bool) : List Bool :=
  let buf := codedBuffer b (jobBlock b i payload)
  (List.range (jobE b i)).map fun n => buf.getD (ratePosition b i n) false

/-! ### Decoders (R295, R297) -/

/-- The decoder input of an LDPC block from its combined buffer: fillers are certain zeros (R295), and positions in
columns beyond rows + K_b - 1 are left out (R297). -/
def ldpcInput (b : Bytes) (comb : Bytes) : Bytes :=
  let lo := jobKcb b - 2 * jobP0 b
  let known := comb.zipIdx.map fun x => if lo ≤ x.2 ∧ x.2 < lo + jobFiller b then (127 : Byte) else x.1
  known.take ((jobRows b + (if jobBg b = 1 then 22 else 10) - 2) * jobP0 b)

/-- Exactly iters iterations over base-graph rows 0 to rows - 1 (R297). -/
def ldpcDecode (b : Bytes) (comb : Bytes) : List Bool :=
  let st := (List.range (jobIters b)).foldl (fun st _ =>
    (List.range (jobRows b)).foldl (fun st row => Config.ldpcRow (jobBg b) (jobP0 b) row st) st)
    (Config.ldpcStart (ldpcInput b comb))
  Config.ldpcBits st

/-- The list decoder of size 8 (R297): of the surviving paths, best metric first, the first that passes the CRC, else
the first. -/
def polarDecode (b : Bytes) (comb : Bytes) : List Bool :=
  let paths := (Config.polarPaths b comb).take 8
  ((paths.find? (jobCbKind b).passes).orElse fun _ => paths.head?).getD []

/-- The decoder input of a turbo block: filler positions are certain zeros (R295). -/
def turboInput (b : Bytes) (comb : Bytes) : Bytes :=
  comb.zipIdx.map fun x =>
    if (((turboBuffer (jobKcb b + 4)).filterMap id)[x.2]?).any (turboNull (jobFiller b)) then (127 : Byte) else x.1

/-- iters full iterations of max-log-MAP (R297), and the bits after the filler. -/
def turboDecode (b : Bytes) (comb : Bytes) : List Bool :=
  let inp := turboInput b comb
  (Config.turboBits (jobKcb b) inp
    ((List.range (jobIters b)).foldl (fun st _ => Config.turboIteration (jobKcb b) inp st) [])).drop (jobFiller b)

/-- The bits of a code block from its combined buffer. -/
def jobDecoded (b : Bytes) (comb : Bytes) : List Bool :=
  if jobLdpc b then ldpcDecode b comb
  else if jobPolar b then polarDecode b comb
  else if jobTurbo b then turboDecode b comb
  else Config.wrapViterbi (jobKcb b) comb

end Sys2Proof.Machine
end

