-- ==== Sys2Proof/Machine/Jasper.lean ====
section
/-!
DEFINITION. The Jasper channel codec engines (chapter 12): job rings, the checks of a job, code blocks,
soft buffers and scheduling.  The codes themselves are in Machine/Codec.lean.
-/
namespace Sys2Proof.Machine

/-! ### Rings (R289, R290) -/

/-- The device address of the header of job ring `j` of cluster `k`. -/
def State.ringAddr (s : State) (k j : Nat) : Nat := clmAddr k (s.clmRadio k - (8 - j) * 0x2000)

/-- The slot of sequence number `i` of a ring. -/
def State.jobAddr (s : State) (k j i : Nat) : Nat := s.ringAddr k j + 64 + 64 * (i % 64)

/-- Whether a cluster has job rings: it has a radio core and a radio region. -/
def State.hasRings (s : State) (k : Nat) : Bool := s.radioCluster k && decide (0x10000 ≤ s.clmRadio k)

/-- Jobs that Jasper sees beyond cons, at most 64; none when prod is behind cons (R290). -/
def State.jobsAhead (s : State) (k j : Nat) : Nat :=
  let i := k * 8 + j
  let d := toSigned 32 (s.fld F.JSP_RING_STATE_prod_seen i + 2 ^ 32 - s.fld F.JSP_RING_STATE_cons i)
  min d.toNat 64

/-- The Jasper side of a cluster. -/
def State.jsp (s : State) (k : Nat) : JasperRec := look JasperRec.init s.jasper k

/-- The state with it replaced. -/
def State.setJsp (s : State) (k : Nat) (r : JasperRec) : State :=
  { s with jasper := put JasperRec.init s.jasper k r }

/-- What the 64 bytes of a job hold (R291). -/
def State.jobBytes (s : State) (k j i : Nat) : Bytes := s.bytesAt (s.jobAddr k j i) 64

/-- JOB_RING_PROD_WRITE (R290): the producer's write of prod reaches the header and is observed; an
overrun is counted. -/
def execJobRingProdWrite (k j prod : Nat) (s : State) : Host.Outcome State Fault Refusal :=
  done <|
    if 32 ≤ k ∨ 8 ≤ j ∨ !s.hasRings k then s
    else
      let i := k * 8 + j
      let s := s.writeMem (s.ringAddr k j) (leBytes 4 prod) false
      let s := s.setFld F.JSP_RING_STATE_prod_seen i prod
      if 64 < toSigned 32 (prod % 2 ^ 32 + 2 ^ 32 - s.fld F.JSP_RING_STATE_cons i) then
        s.count F.JSP_CNT_ring_overrun k 1
      else s

/-! ### The job (R291, R292) -/

/-- The soft buffer of block `i`, 64-byte aligned behind the header of the area. -/
def jobSoft (b : Bytes) (i : Nat) : Nat := jobHarq b + 64 + i * ((jobSoftLen b + 63) / 64 * 64)

/-! ### The checks of R293 -/

/-- A reserved bit or field that is not zero; `harq`: harq_addr is reserved in encode, polar and TBCC
jobs. -/
def jobReserved (b : Bytes) : Bool :=
  jobOp b = 0 || 8 < jobOp b || bits (jobF b 1 1) 2 6 ≠ 0 || bits (jobF b 2 2) 10 6 ≠ 0
    || bits (jobIn b) 44 20 ≠ 0 || bits (jobOut b) 44 20 ≠ 0 || bits (jobHarq b) 44 20 ≠ 0
    || bits (jobF b 0x37 1) 2 6 ≠ 0
    || ((!jobDecode b || jobPolar b || jobTbcc b) && jobHarq b ≠ 0)
    || (jobLdpc b && (bits (jobP1 b) 2 6 ≠ 0 || bits (jobP1 b) 10 6 ≠ 0))
    || (jobPolar b && (bits (jobP1 b) 7 1 ≠ 0 || bits (jobP1 b) 9 7 ≠ 0))
    || (jobTurbo b && (jobP0 b ≠ 0 || bits (jobP1 b) 0 8 ≠ 0 || bits (jobP1 b) 10 6 ≠ 0))
    || (jobTbcc b && bits (jobP1 b) 2 14 ≠ 0)
    || ((jobPolar b || jobTbcc b) && jobIters b ≠ 0)
    || (!jobLdpc b && jobRows b ≠ 0)

/-- The lifting sizes of TS 38.212: a * 2^n up to 384 with a from 2, 3, 5, 7, 9, 11, 13, 15 (PRESUMED, log
entry 30). -/
def liftingSize (z : Nat) : Bool :=
  decide (z ≤ 384) && [2, 3, 5, 7, 9, 11, 13, 15].any fun a => (List.range 9).any fun n => z = a * 2 ^ n

/-- The block sizes of the turbo code of TS 36.212 (PRESUMED, log entry 30). -/
def qppSize (n : Nat) : Bool :=
  (decide (40 ≤ n) && decide (n ≤ 512) && n % 8 = 0) || (decide (512 < n) && decide (n ≤ 1024) && n % 16 = 0)
    || (decide (1024 < n) && decide (n ≤ 2048) && n % 32 = 0)
    || (decide (2048 < n) && decide (n ≤ 6144) && n % 64 = 0)

/-- A format that the code does not have. -/
def jobBadFormat (b : Bytes) : Bool :=
  (jobLdpc b && (!liftingSize (jobP0 b) || bits (jobP1 b) 8 2 = 3))
    || (jobTurbo b && (!qppSize (jobKcb b) || bits (jobP1 b) 8 2 = 3))
    || (jobPolar b && bits (jobP1 b) 0 2 = 3) || (jobTbcc b && 1 < bits (jobP1 b) 0 2)

/-- The buffers of a job as (address, bytes). -/
def jobBuffers (b : Bytes) : List (Nat × Nat) :=
  let e := jobSumE b (jobC b)
  let pay := (jobPayload b + 7) / 8
  if jobDecode b then
    [(jobIn b, e), (jobOut b, 64 + pay)]
      ++ (if jobHarq b = 0 then [] else [(jobHarq b, jobSoft b (jobC b) - jobHarq b)])
  else [(jobIn b, pay), (jobOut b, (e + 7) / 8)]

/-- A field outside R291 or R292.  A polar job without uplink channel interleaving is a downlink one (DEDUCED, log entry
191). -/
def jobBadField (b : Bytes) : Bool :=
  let z := jobP0 b
  let bg := bits (jobP1 b) 0 2
  jobC b = 0 || 256 < jobC b || jobC b < jobF b 0x2E 2 || !([1, 2, 4, 6, 8, 10].contains (jobQm b))
    || (jobQm b ≠ 0 && (jobF b 0x24 4 % jobQm b ≠ 0 || jobF b 0x28 4 % jobQm b ≠ 0))
    || (jobLdpc b && (bg = 0 || bg = 3 || (if bg = 1 then 22 else 10) * z < jobKcb b))
    || (jobLdpc b && (jobIters b < 8 || 16 < jobIters b || jobRows b < 4
        || (if bg = 1 then 46 else 42) < jobRows b))
    || (jobTurbo b && decide (jobKcb b ≤ jobFiller b))
    || (jobPolar b && (!([32, 64, 128, 256, 512, 1024].contains z) || (z = 1024 && !bitOf (jobP1 b) 8) || 3 < bits (jobP1 b) 2 5
        || jobKcb b < 12 || 1706 < jobKcb b || 2 < jobC b))
    || (jobTurbo b && (jobIters b < 1 || 8 < jobIters b))
    || (jobTbcc b && (jobKcb b < 8 || 256 < jobKcb b))

/-- The regions in which a job's buffers may lie, as device ranges (R293): the radio region of the cluster
memory, and for each radio core of the cluster that is mapped (R23) its vault regions of kinds 2 and 3 and those of its
scratchpad. -/
def State.jobRegions (s : State) (k : Nat) : List (Nat × Nat) :=
  let ns := (List.range 8).map (fun j => 8 * k + j) |>.filter fun n => s.isRadio n && (s.physOf n).isSome
  [(clmAddr k 0, s.clmRadio k)]
    ++ ns.flatMap (fun n => (s.regions 2 n ++ s.regions 3 n).map fun r => (vaultAddr n r.1, r.2))
    ++ ns.flatMap fun n => (s.regions 1 n).map fun r =>
        let lo := r.1 / 0x10000
        (spmAddr n (lo * 0x10000), ((r.1 + r.2 + 0xFFFF) / 0x10000 - lo) * 0x10000)

/-- The first failing check of a job, 0 when none fails (R293). -/
def State.jobCheck (s : State) (k : Nat) (b : Bytes) : Nat :=
  let bufs := jobBuffers b
  let rs := s.jobRegions k
  if jobReserved b then eOpcode
  else if jobBadFormat b then eFmt
  else if bufs.any fun x => x.1 % 64 ≠ 0 then eAlign
  else if bufs.any fun x => locate x.1 = .reserved then eOob
  else if (bufs.any fun x => !rs.any fun r => decide (r.1 ≤ x.1) && decide (x.1 < r.1 + r.2)) ∨ (jobSigEn b ∧ !s.permitted (jobSig b) 256) then ePerm
  else if jobBadField b ∨ bufs.any fun x => !rs.any fun r => decide (r.1 ≤ x.1) && decide (x.1 < r.1 + r.2) && decide (x.1 + x.2 ≤ r.1 + r.2) then eLen
  else 0

/-! ### The end of a job (R298, R301, R303, R304) -/

/-- Bits in the order of R291: bit 7 of a byte comes first; an open rest of the last byte is taken from the
bits of `rest`. -/
def packBits (l : List Bool) (rest : Nat) : Bytes :=
  (List.range ((l.length + 7) / 8)).map fun i =>
    BitVec.ofNat 8 ((List.range 8).foldl (fun n m =>
      2 * n + (if (match l[8 * i + m]? with | some v => v | none => rest.testBit m) then 1 else 0)) 0)

/-- The bits of bytes in that order. -/
def unpackBits (bs : Bytes) : List Bool :=
  bs.flatMap fun b => (List.range 8).map fun m => b.toNat.testBit (7 - m)

/-- `l` brought to `n` bits. -/
def fitBits (n : Nat) (l : List Bool) : List Bool := (List.range n).map fun i => l.getD i false

/-- Completed jobs at the front of a ring let cons advance (R301). -/
def State.advanceCons (s : State) (k j : Nat) : Nat → State
  | 0 => s
  | fuel + 1 =>
    let i := s.fld F.JSP_RING_STATE_cons (k * 8 + j)
    let r := s.jsp k
    if r.complete.contains (j, i) then
      let s := s.setJsp k { r with complete := r.complete.filter fun e => e ≠ (j, i) }
      let s := s.setFld F.JSP_RING_STATE_cons (k * 8 + j) (i + 1)
      (s.writeMem (s.ringAddr k j + 4) (leBytes 4 (i + 1)) false).advanceCons k j fuel
    else s

/-- The object of a job that is not executed set broken (R293). -/
def State.breakJob (s : State) (b : Bytes) : State :=
  if jobSigEn b then s.breakObj 256 (jobSig b) else s

/-- A job ends: outcome, code and cb_fail into its slot, its counters, its signal unless it was erroneous,
then cons (R293, R301). -/
def State.jobEnd (s : State) (k j i : Nat) (b : Bytes) (outcome code fails : Nat) : State :=
  let s := s.writeMem (s.jobAddr k j i + 0x3C) (leBytes 1 outcome ++ leBytes 1 code ++ leBytes 2 fails) false
  let s := match outcome with
    | 0 => s.count F.JSP_CNT_done k 1
    | 1 => s.count F.JSP_CNT_late k 1
    | 2 => s.count F.JSP_CNT_aborted k 1
    | _ => s.count F.JSP_CNT_error k 1
  let s := if code = ePoison then s.count F.JSP_CNT_poison k 1 else s
  let s := if outcome = 3 then s.breakJob b
    else if jobSigEn b then s.send 256 (jobSig b) false 1 (100000 + k * 8 + j) else s
  let r := s.jsp k
  (s.setJsp k { r with complete := r.complete ++ [(j, i)] }).advanceCons k j 64 |>.settle

/-- The result of a decode job (R298): record and bits with every CRC removed; the number of failed blocks. -/
def JspRun.result (r : JspRun) : Bool × Bytes :=
  let b := r.job
  let c := jobC b
  let own := jobInfo b - jobCbCrc b
  let raw := (List.range c).flatMap fun i => (r.bits.drop (i * jobInfo b)).take own
  let tb : Bool := if jobTbCrc b ≠ 0 then (jobTbKind b).passes raw
    else if jobCbCrc b = 0 then true else r.pass.all id
  let map := if jobCbCrc b = 0 then (if tb then 1 else 0)
    else (List.range c).foldl (fun n i => if r.pass.getD i false then n + 2 ^ i else n) 0
  (tb, leBytes 1 (if tb then 1 else 0) ++ leBytes 1 0 ++ leBytes 2 c
    ++ leBytes 2 (r.pass.filter (!·)).length ++ leBytes 2 0 ++ leBytes 32 map ++ leBytes 24 0)

/-- The output of a job written (R291, R298, R303): a decode job's record and bits go out unpoisoned, an
encode job's lines with the tag where a poisoned input bit reaches them.  An encode job writes whole lines (R186).
Bits and bytes beyond the output are open values of the job and its result (R297; log entry 68). -/
def State.jobOutput (s : State) (r : JspRun) : State :=
  let b := r.job
  let v := (Config.jobTail b r.bits 0).toNat
  if jobDecode b then
    let keep := jobInfo b - jobCbCrc b
    let pay := (List.range (jobC b)).flatMap fun i => (r.bits.drop (i * jobInfo b)).take keep
    let s := s.writeMem (jobOut b) r.result.2 false
    s.writeMem (jobOut b + 64) (packBits (pay.take (jobPayload b)) v) false
  else
    let out := packBits r.bits v
    let s := s.writeMem (jobOut b) (out ++ (List.range ((64 - out.length % 64) % 64)).map fun i =>
      Config.jobTail b r.bits (i + 1)) false
    r.bad.foldl (fun s i =>
      let lo := jobOut b + jobSumE b i / 8
      let hi := jobOut b + (jobSumE b (i + 1) + 7) / 8
      s.tagWrite lo (hi - lo) true) s

/-! ### Code blocks (R295, R299, R302) -/

/-- Whether any poisoned line is read in a range (R303). -/
def State.readsPoison (s : State) (a n : Nat) : Bool := s.anyPoison a n

/-- Bytes read, poisoned lines as zeros (R303). -/
def State.erasures (s : State) (a n : Nat) : Bytes :=
  (List.range n).map fun i => if s.poisoned (a + i) then 0 else s.byte (a + i)

/-- The received values of block `i` added at the positions that rate matching assigns, saturating to 127
either way (R295). -/
def combine (b : Bytes) (i : Nat) (llrs soft : Bytes) : Bytes :=
  (llrs.zipIdx).foldl (fun soft (x, n) =>
    let p := ratePosition b i n
    match soft[p]? with
    | some y =>
      let v := toSigned 8 y.toNat + toSigned 8 x.toNat
      soft.set p (BitVec.ofNat 8 (ofSigned 8 (if v > 127 then 127 else if v < -127 then -127 else v)))
    | none => soft) soft

/-- Whether the stored buffer of block `i` counts: with a soft-buffer area, ndi 0 and the valid bit set.  A poisoned
header line reads as zeros (R303). -/
def State.softValid (s : State) (b : Bytes) (i : Nat) : Bool :=
  jobHarq b ≠ 0 && !jobNdi b && bitOf (leNat (s.erasures (jobHarq b + i / 8) 1)) (i % 8)

/-- The valid bit of block `i` set or cleared: the header line written whole (R186). -/
def State.setValid (s : State) (b : Bytes) (i : Nat) (v : Bool) : State :=
  let l := s.erasures (jobHarq b) 64
  let x := leAt l (i / 8) 1
  let y := if bitOf x (i % 8) then x - 2 ^ (i % 8) else x
  s.writeMem (jobHarq b) (l.set (i / 8) (BitVec.ofNat 8 (if v then y + 2 ^ (i % 8) else y))) false

/-- The combined buffer of block `i` written back in whole lines (R186, R295); the bytes behind it in its last line
stay as they read. -/
def State.softWrite (s : State) (b : Bytes) (i : Nat) (comb : Bytes) : State :=
  let a := jobSoft b i
  s.writeMem a (comb ++ s.erasures (a + comb.length) ((64 - comb.length % 64) % 64)) false

/-- A decode block: combined, decoded, its CRC checked, and its buffer written back (R295, R297). -/
def State.decodeBlock (s : State) (r : JspRun) : State × JspRun :=
  let b := r.job
  let i := r.blk
  let src := jobIn b + jobSumE b i
  let len := jobSoftLen b
  let stored := s.softValid b i
  let soft := if stored then s.erasures (jobSoft b i) len else List.replicate len 0
  let comb := combine b i (s.erasures src (jobE b i)) soft
  let out := fitBits (jobInfo b) (jobDecoded b comb)
  let ok := jobCbCrc b = 0 || (jobCbKind b).passes out
  let poison := r.poison || s.readsPoison src (jobE b i) || (stored && s.readsPoison (jobSoft b i) len)
  let s := s.readPoison src (jobE b i)
  let s := if stored then s.readPoison (jobSoft b i) len else s
  let s := if jobHarq b = 0 then s
    else ((((s.readPoison (jobHarq b) 64).setValid b i false).softWrite b i comb)).setValid b i true
  (s, { r with blk := i + 1, bits := r.bits ++ out, pass := r.pass ++ [ok], poison := poison })

/-- An encode block (R291, R303): block `i` depends on its own payload bits, and the block that carries the
transport-block CRC on all of them. -/
def State.encodeBlock (s : State) (r : JspRun) : State × JspRun :=
  let b := r.job
  let i := r.blk
  let pay := (jobPayload b + 7) / 8
  let own := jobInfo b - jobCbCrc b
  let all := i + 1 = jobC b ∧ jobTbCrc b ≠ 0
  let lo := if all then 0 else i * own / 8
  let hi := if all then pay else min pay (((i + 1) * own + 7) / 8)
  let tainted := decide (lo < hi) && s.anyPoison (jobIn b + lo) (hi - lo)
  let out := jobEncode b i ((unpackBits (s.bytesAt (jobIn b) pay)).take (jobPayload b))
  let s := if lo < hi then s.readPoison (jobIn b + lo) (hi - lo) else s
  (s, { r with blk := i + 1, bits := r.bits ++ out, poison := r.poison || tainted,
               bad := if tainted then r.bad ++ [i] else r.bad })

/-- The cycles of block `i` (R302), with those that the job and its first block add. -/
def jobCycles (b : Bytes) (i : Nat) : Nat :=
  let kcb := jobKcb b
  let core := match jobOp b with
    | 1 => 50 + 10 * jobRows b * jobIters b
    | 2 => 20 + 2 * (if bits (jobP1 b) 0 2 = 1 then 46 else 42)
    | 3 => 64 + jobP0 b * Nat.log2 (jobP0 b) / 8 + 4 * kcb
    | 4 => 16 + jobP0 b / 16
    | 5 => 60 + jobIters b * kcb / 8
    | 6 => 20 + kcb / 16
    | 7 => 32 + 3 * kcb
    | _ => 8 + kcb / 8
  core + if i = 0 then 40 + (jobE b 0 + 63) / 64 else 0

/-! ### Scheduling (R288, R299, R300) -/

/-- The logical number of a physical engine of a cluster. -/
def State.jasperLogical (s : State) (k e : Nat) : Option Nat := [0, 1].find? fun l => s.jasperOf k l = e

/-- Whether a physical engine takes jobs: in service, with its jasper_radio bit (R288). -/
def State.radioEngine (s : State) (k e : Nat) : Bool :=
  s.fld F.JSP_ENGINE_state (k * 3 + e) = 0 && (s.jasperLogical k e).any fun l => s.cutBits 3 k (32 + l) 1 = 1

/-- (int32)(deadline - now). -/
def State.slack (s : State) (b : Bytes) : Int :=
  toSigned 32 (jobDeadline b + 2 ^ 32 - s.total % 2 ^ 32)

/-- The candidate of a ring: its oldest pending job neither running nor complete (R299). -/
def State.candidate (s : State) (k j : Nat) : Option Nat :=
  let r := s.jsp k
  let c := s.fld F.JSP_RING_STATE_cons (k * 8 + j)
  ((List.range (s.jobsAhead k j)).map fun d => (c + d) % 2 ^ 32).find? fun i =>
    !(r.complete.contains (j, i)) && !(r.running.any fun e => e.2.any fun t => t.ring = j ∧ t.index = i)

/-- The job of a candidate: as parked, else as its slot holds it now. -/
def State.candidateJob (s : State) (k j i : Nat) : Bytes :=
  match (s.jsp k).parked.find? fun t => t.ring = j ∧ t.index = i with
  | some t => t.job
  | none => s.jobBytes k j i

/-- The rings with a candidate, its sequence number and slack. -/
def State.candidates (s : State) (k : Nat) : List (Nat × Nat × Int) :=
  if !s.hasRings k then []
  else (List.range 8).filterMap fun j => (s.candidate k j).map fun i => (j, i, s.slack (s.candidateJob k j i))

/-- The candidate that a free engine takes: the smallest slack, the lower ring among equals. -/
def State.nextJob (s : State) (k : Nat) : Option (Nat × Nat × Int) :=
  (s.candidates k).foldl (fun b c => match b with
    | some b' => if c.2.2 < b'.2.2 then some c else b
    | none => some c) none

/-- An engine begins or resumes a job. -/
def State.engineRuns (s : State) (k e : Nat) (t : JspRun) : State :=
  let r := s.jsp k
  let s := s.setJsp k { r with running := put none r.running e (some t)
                               parked := r.parked.filter fun u => !(u.ring = t.ring ∧ u.index = t.index) }
  (s.setFld F.JSP_ENGINE_busy (k * 3 + e) 1).setFld F.JSP_ENGINE_ring (k * 3 + e) t.ring

/-- Engine `e` takes the candidate of ring `j`, a job of kind `op` or of a reserved op: the checks of R293, then R300,
then its start or resumption.  With no radio engine left in the cluster a job still ends late (R304). -/
def State.takeJob (s : State) (k e j op : Nat) : State :=
  if 32 ≤ k ∨ 3 ≤ e then s
  else
    match s.nextJob k with
    | none => s
    | some (j', i, slack) =>
      let o := jobOp (s.candidateJob k j i)
      if j' ≠ j ∨ (o ≠ op ∧ 1 ≤ o ∧ o ≤ 8) then s
      else
        let b := s.candidateJob k j i
        let none' := !([0, 1, 2].any fun e => s.radioEngine k e)
        if none' then (if slack < 0 then s.jobEnd k j i b 1 0 0 else s)
        else if !s.radioEngine k e ∨ s.fld F.JSP_ENGINE_busy (k * 3 + e) = 1 then s
        else match (s.jsp k).parked.find? fun t => t.ring = j ∧ t.index = i with
          | some t => s.engineRuns k e t
          | none =>
            let code := s.jobCheck k b
            if code ≠ 0 then s.jobEnd k j i b 3 code 0
            else if slack < 0 then s.jobEnd k j i b 1 0 0
            else
              let s := s.engineRuns k e { ring := j, index := i, job := b, blk := 0, bits := [], pass := [],
                                          poison := false, bad := [] }
              let c := look CellRec.init s.cells (jobCell b)
              if jobHarq b = 0 ∨ c.harq.contains (jobHarq b) then s
              else { s with cells := put CellRec.init s.cells (jobCell b)
                                       { c with harq := c.harq ++ [jobHarq b] } }

/-- LDPC_DECODE (R297, R299). -/
def execLdpcDecode (k e j : Nat) (s : State) : Host.Outcome State Fault Refusal := done (s.takeJob k e j 1)

/-- LDPC_ENCODE (R292, R299). -/
def execLdpcEncode (k e j : Nat) (s : State) : Host.Outcome State Fault Refusal := done (s.takeJob k e j 2)

/-- POLAR_DECODE (R297, R299). -/
def execPolarDecode (k e j : Nat) (s : State) : Host.Outcome State Fault Refusal := done (s.takeJob k e j 3)

/-- POLAR_ENCODE (R292, R299). -/
def execPolarEncode (k e j : Nat) (s : State) : Host.Outcome State Fault Refusal := done (s.takeJob k e j 4)

/-- TURBO_DECODE (R297, R299). -/
def execTurboDecode (k e j : Nat) (s : State) : Host.Outcome State Fault Refusal := done (s.takeJob k e j 5)

/-- TURBO_ENCODE (R292, R299). -/
def execTurboEncode (k e j : Nat) (s : State) : Host.Outcome State Fault Refusal := done (s.takeJob k e j 6)

/-- TBCC_DECODE (R297, R299). -/
def execTbccDecode (k e j : Nat) (s : State) : Host.Outcome State Fault Refusal := done (s.takeJob k e j 7)

/-- TBCC_ENCODE (R292, R299). -/
def execTbccEncode (k e j : Nat) (s : State) : Host.Outcome State Fault Refusal := done (s.takeJob k e j 8)

/-- The engine is free. -/
def State.engineFree (s : State) (k e : Nat) : State :=
  let r := s.jsp k
  (s.setJsp k { r with running := put none r.running e none }).setFld F.JSP_ENGINE_busy (k * 3 + e) 0

/-- The running job has done its last block. -/
def State.jobDone (s : State) (k e : Nat) (t : JspRun) : State :=
  let fails := (t.pass.filter (!·)).length
  let s := (s.engineFree k e).count F.JSP_CNT_cb_crc_fail k fails
  (s.jobOutput t).jobEnd k t.ring t.index t.job 0 (if t.poison then ePoison else 0) fails

/-- CODE_BLOCK_END (R299): the block is done; the job ends, or is parked when a candidate's deadline is
strictly earlier, or goes on.  A block waits while requests to a buffer of the job are held (R22, R189), and where the
core of a buffer has been unmapped the job ends with ERR_PERM (R23; outcome 3: DESIGN CHOICE, log entry 177). -/
def execCodeBlockEnd (k e : Nat) (s : State) : Host.Outcome State Fault Refusal :=
  done <| match look none (s.jsp k).running e with
    | none => s
    | some t =>
      if (jobBuffers t.job).any fun x => s.rangeHeld x.1 x.2 then s
      else if (jobBuffers t.job).any fun x => s.rangeLost x.1 x.2 then
        (s.engineFree k e).jobEnd k t.ring t.index t.job 3 ePerm (t.pass.filter (!·)).length
      else
      let s := s.count F.JSP_ENGINE_busy_cycles (k * 3 + e) (jobCycles t.job t.blk)
      let (s, t) := if jobDecode t.job then s.decodeBlock t else s.encodeBlock t
      if jobC t.job ≤ t.blk then s.jobDone k e t
      else if (s.candidates k).any fun c => decide (c.2.2 < s.slack t.job) then
        let s := s.engineFree k e
        let r := s.jsp k
        s.setJsp k { r with parked := r.parked ++ [t] }
      else s.engineRuns k e t

/-- The running job of an engine that is retired ends with outcome 2 (R304). -/
def State.abortJob (s : State) (k e : Nat) : State :=
  match look none (s.jsp k).running e with
  | none => s
  | some t =>
    let fails := (t.pass.filter (!·)).length
    ((s.engineFree k e).count F.JSP_CNT_cb_crc_fail k fails).jobEnd k t.ring t.index t.job 2 0 fails

end Sys2Proof.Machine
end

