-- ==== Sys2Proof/Machine/Cells.lean ====
section
/-!
DEFINITION. Cells (chapter 11): commands and their checks, frame timing, placement on cores, slot plans,
the cluster Lantern, PRACH detections, the noise floor and the report ring.
-/
namespace Sys2Proof.Machine

/-- What the pipeline holds for a cell. -/
def State.cell (s : State) (c : Nat) : CellRec := look CellRec.init s.cells c

/-- The state with it replaced. -/
def State.setCell (s : State) (c : Nat) (r : CellRec) : State :=
  { s with cells := put CellRec.init s.cells c r }

/-- kind, cluster, core_mask and weight of a cell's entry (R61). -/
def State.cellKind (s : State) (c : Nat) : Nat := s.cutBits 4 c 32 4
def State.cellCluster (s : State) (c : Nat) : Nat := s.cutBits 4 c 40 5
def State.cellMask (s : State) (c : Nat) : Nat := s.cutBits 4 c 48 8
def State.cellWeight (s : State) (c : Nat) : Nat := s.cutBits 4 c 56 8

/-! ### The FRONTHAUL section (R328) -/

/-- The entry of a cell in the FRONTHAUL section. -/
def State.cellFh (s : State) (c lo w : Nat) : Nat := s.cutBits 8 (0x100 + c) lo w

/-- The interface and the VLAN of a cell. -/
def State.cellIf (s : State) (c : Nat) : Nat := s.cellFh c 32 5
def State.cellVlan (s : State) (c : Nat) : Nat := s.cellFh c 96 12

/-- The uplink and downlink FIFOs of a cell. -/
def State.ulFifo (s : State) (c : Nat) : Nat := 16 * s.cellCluster c + s.cellFh c 40 4
def State.dlFifo (s : State) (c : Nat) : Nat := 16 * s.cellCluster c + s.cellFh c 44 4

/-- A width field: 0 means 16. -/
def iqWidth (v : Nat) : Nat := if v = 0 then 16 else v

/-- The antenna groups of a cell: more than one only where it is of kind 1 (R320, R328). -/
def State.cellGroups (s : State) (c : Nat) : Nat :=
  let g := s.cellFh c 124 4
  if g = 0 ∨ s.cellKind c ≠ 1 then 1 else g

/-- The cells that the section binds, and those of them that have a CELL entry: only such a cell has a cluster, and with
it FIFOs. -/
def State.boundCells (s : State) : List Nat :=
  ((s.keys 8).filter fun k => 0x100 ≤ k ∧ k < 0x500).map fun k => k - 0x100
def State.fhCells (s : State) : List Nat := s.boundCells.filter fun c => (s.entry 4 c).isSome

/-- Antenna ports that a cell's kind admits: 4, or 64 for kind 1 (DEDUCED, log entry 34). -/
def State.cellPorts (s : State) (c : Nat) : Nat := if s.cellKind c = 1 then 64 else 4

/-- The shaper node of a cell's antenna group (R320). -/
def State.subNode (s : State) (c g : Nat) : Nat := if g = 0 then c else 1024 + 7 * s.cellCluster c + g - 1

/-- Whether a cell's uplink FIFO is native: the radio pipeline processes no other cell (R316). -/
def State.cellNative (s : State) (c : Nat) : Bool := s.fld F.FIFO_CFG_legacy (s.ulFifo c) = 0

/-! ### Placement (R267) -/

/-- The cells of a cluster, in ascending number. -/
def State.clusterCells (s : State) (k : Nat) : List Nat := (s.keys 4).filter fun c => s.cellCluster c = k

/-- The logical slots of a cluster that are radio cores named by no core_mask. -/
def State.freeRadioSlots (s : State) (k : Nat) : List Nat :=
  (List.range 8).filter fun j =>
    s.isRadio (8 * k + j) && (s.clusterCells k).all fun c => !bitOf (s.cellMask c) j

/-- The slot with the least load, the lowest among equals. -/
def leastLoaded (load : SMap Nat) : List Nat → Option Nat
  | [] => none
  | j :: js =>
    match leastLoaded load js with
    | some b => if look 0 load b < look 0 load j then some b else some j
    | none => some j

/-- The pooled cells of a cluster with the slot on which each is placed; a core's pooled weight is at most 2, and a cell
for which no core has room is on none (DESIGN CHOICE, log entry 160). -/
def State.pooled (s : State) (k : Nat) : List (Nat × Nat) :=
  (((s.clusterCells k).filter fun c => s.cellMask c = 0).foldl (fun (acc, load) c =>
    match leastLoaded load ((s.freeRadioSlots k).filter fun j => look 0 load j + s.cellWeight c ≤ 2) with
    | some j => (acc ++ [(c, j)], put 0 load j (look 0 load j + s.cellWeight c))
    | none => (acc, load)) (([] : List (Nat × Nat)), ([] : SMap Nat))).1

/-- The logical cores on which a cell runs. -/
def State.cellCores (s : State) (c : Nat) : List Nat :=
  let k := s.cellCluster c
  if s.cellMask c ≠ 0 then ((List.range 8).filter fun j => bitOf (s.cellMask c) j).map fun j => 8 * k + j
  else ((s.pooled k).filter fun e => e.1 = c).map fun e => 8 * k + e.2

/-- The core that takes symbol `sym` of a cell: the symbols are spread over its cores in ascending slot order (R267). -/
def State.symbolCore (s : State) (c sym : Nat) : Option Nat :=
  let ns := s.cellCores c
  ns[sym % ns.length]?

/-- Whether a cell uses a logical core. -/
def State.cellUses (s : State) (c n : Nat) : Bool := (s.entry 4 c).isSome && (s.cellCores c).contains n

/-! ### The configuration (R265, R270) -/

def cfgRat (b : Bytes) : Nat := leAt b 0 1
def cfgMu (b : Bytes) : Nat := leAt b 1 1
def cfgPrb (b : Bytes) : Nat := leAt b 2 2
def cfgTx (b : Bytes) : Nat := bits (leAt b 5 1) 0 4
def cfgRx (b : Bytes) : Nat := bits (leAt b 5 1) 4 4
def cfgRxRef (b : Bytes) : Int := toSigned 16 (leAt b 0x0A 2)
def cfgTaWin (b : Bytes) : Nat := leAt b 0x0D 1
def cfgThr (b : Bytes) : Nat := leAt b 0x0E 1
def cfgDuplex (b : Bytes) : Nat := leAt b 4 1
def cfgPeriod (b : Bytes) : Nat := leAt b 0x0C 1
def cfgTdd (b : Bytes) : Nat := leAt b 0x20 8
def cfgPrach (b : Bytes) : Nat := leAt b 0x28 8
def cfgSsb (b : Bytes) : Nat := leAt b 0x30 8
def cfgOffset (b : Bytes) : Nat := leAt b 0x10 8
def cfgLead (b : Bytes) : Nat := leAt b 0x18 2
def cfgEntries (b : Bytes) : Nat := leAt b 0x1A 2
def cfgPlan (b : Bytes) : Nat := leAt b 0x1C 4
def cfgReport (b : Bytes) : Nat := leAt b 0x38 8
def cfgRingLen (b : Bytes) : Nat := ringEntries (leAt b 0x40 1) 5

/-- Nanoseconds of a slot: 1 ms / 2^mu; an LTE slot counts as mu 0 (DEDUCED, log entry 32). -/
def cfgSlot (b : Bytes) : Nat := 1000000 / 2 ^ cfgMu b

/-- Whether the carrier is FR2: 120 kHz, or 60 kHz with one of the FR2 block counts. -/
def cfgFr2 (b : Bytes) : Bool := cfgMu b = 3 || (cfgMu b = 2 && (cfgPrb b = 66 || cfgPrb b = 132))

/-- The resource-block counts of the bandwidths of R265: those of the base-station tables of 3GPP TS 38.104
and TS 36.104 that it cites (PRESUMED, log entry 30). -/
def cfgPrbOk (b : Bytes) : Bool :=
  if cfgRat b = 1 then [6, 15, 25, 50, 75, 100].contains (cfgPrb b)
  else match cfgMu b with
    | 0 => [25, 52, 79, 106, 133, 160, 188, 216, 242, 270].contains (cfgPrb b)
    | 1 => [11, 24, 38, 51, 65, 78, 92, 106, 119, 133, 162, 189, 217, 245, 273].contains (cfgPrb b)
    | 2 => [11, 18, 24, 31, 38, 44, 51, 58, 65, 79, 93, 107, 121, 135, 66, 132].contains (cfgPrb b)
    | _ => [32, 66].contains (cfgPrb b)

/-- The most downlink and uplink layers of a kind (R265). -/
def layerLimit (kind : Nat) (b : Bytes) : Nat × Nat :=
  if cfgRat b = 1 then (4, 2)
  else if kind = 1 then (if cfgFr2 b then (0, 0) else (16, 8))
  else if cfgFr2 b then (2, 2) else (4, 4)

/-- Result 2 of R272: the configuration exceeds the cell's kind. -/
def State.cellKindBad (s : State) (c : Nat) (b : Bytes) : Bool :=
  let kind := s.cellKind c
  let l := leAt b 6 1
  let m := layerLimit kind b
  cfgRat b ≠ (if kind = 2 then 1 else 0)
    || (kind ≠ 1 && (2 < cfgTx b || 2 < cfgRx b))
    || m.1 < bits l 0 4 + 1 || m.2 < bits l 4 4 + 1
    || (kind = 1 && (List.range 8).any fun j => !s.garnetRadio (8 * s.cellCluster c + j))

/-- Whether the plan buffers lie in the radio region below the job rings (R270, R289). -/
def State.planFits (s : State) (c : Nat) (b : Bytes) : Bool :=
  cfgPlan b % 64 = 0
    && decide (cfgPlan b + 4 * (64 + 64 * cfgEntries b) + 0x10000 ≤ s.clmRadio (s.cellCluster c))

/-- Whether a report ring on the package lies in the radio region of the cluster (R286). -/
def State.reportFits (s : State) (c : Nat) (b : Bytes) : Bool :=
  let r := cfgReport b
  r % 2 = 0 || match locate (r - 1) with
    | .clm k off => k = s.cellCluster c && decide (off + 64 * cfgRingLen b ≤ s.clmRadio k)
    | _ => false

/-! ### TDD (R265, R270, R285) -/

/-- Microseconds of a period code of TS 38.331 (PRESUMED, log entry 30); 0 for none. -/
def tddPeriod (code : Nat) : Nat := [500, 625, 1000, 1250, 2000, 2500, 5000, 10000, 3000, 4000].getD code 0

/-- The slots of an NR pattern. -/
def tddSlots (mu p : Nat) : Nat := tddPeriod (bits p 0 4) * 2 ^ mu / 1000

/-- Whether an NR pattern is one: whole slots, downlink first, uplink last, what is left open between them. -/
def tddPatternOk (mu p : Nat) : Bool :=
  let us := tddPeriod (bits p 0 4) * 2 ^ mu
  let used := bits p 4 7 + bits p 15 7
  let syms := bits p 11 4 + bits p 22 4
  decide (0 < us) && us % 1000 = 0 && bits p 26 6 = 0 && decide (bits p 11 4 < 14) && decide (bits p 22 4 < 14)
    && (decide (used + 2 ≤ us / 1000) || (used + 1 = us / 1000 && decide (syms ≤ 14)) || (used = us / 1000 && syms = 0))

/-- The downlink and uplink symbols of the LTE special-subframe configurations of TS 36.211 (PRESUMED, log entry 30). -/
def lteSpecial (n : Nat) : Nat × Nat :=
  [(3, 1), (9, 1), (10, 1), (11, 1), (12, 1), (3, 2), (9, 2), (10, 2), (11, 2), (6, 2), (6, 6)].getD n (14, 0)

/-- The subframes of the LTE uplink-downlink configurations of TS 36.211 (PRESUMED, log entry 30): 0 downlink, 1 uplink,
2 special. -/
def lteFrame (n : Nat) : List Nat :=
  [[0, 2, 1, 1, 1, 0, 2, 1, 1, 1], [0, 2, 1, 1, 0, 0, 2, 1, 1, 0], [0, 2, 1, 0, 0, 0, 2, 1, 0, 0],
   [0, 2, 1, 1, 1, 0, 0, 0, 0, 0], [0, 2, 1, 1, 0, 0, 0, 0, 0, 0], [0, 2, 1, 0, 0, 0, 0, 0, 0, 0],
   [0, 2, 1, 1, 1, 0, 2, 1, 1, 0]].getD n []

/-- Whether the tdd field lies within R265. -/
def tddOk (b : Bytes) : Bool :=
  let t := cfgTdd b
  let p1 := bits t 0 32
  let p2 := bits t 32 32
  if cfgRat b = 1 then bits t 3 1 = 0 && bits t 8 56 = 0 && (cfgDuplex b = 0 || (decide (bits t 0 3 < 7) && decide (bits t 4 4 < 11)))
  else bits p1 26 6 = 0 && bits p2 26 6 = 0 && (cfgDuplex b = 0 ||
    (tddPatternOk (cfgMu b) p1 && (p2 = 0 || tddPatternOk (cfgMu b) p2)
      && 20000 % (tddPeriod (bits p1 0 4) + if p2 = 0 then 0 else tddPeriod (bits p2 0 4)) = 0))

/-- What a symbol of a slot is under a pattern of `n` slots of an NR cell: 0 downlink, 1 uplink, 2 guard. -/
def tddPatternKind (p n slot sym : Nat) : Nat :=
  if slot < bits p 4 7 ∨ (slot = bits p 4 7 ∧ sym < bits p 11 4) then 0
  else if n ≤ slot + bits p 15 7 ∨ (n = slot + bits p 15 7 + 1 ∧ 14 ≤ sym + bits p 22 4) then 1
  else 2

/-- What a symbol of a slot, counted from frame 0, is for the uplink: 0 none, 1 uplink, 2 guard. -/
def symbolKind (b : Bytes) (slot sym : Nat) : Nat :=
  let t := cfgTdd b
  if cfgDuplex b = 0 then 1
  else if cfgRat b = 1 then
    match (lteFrame (bits t 0 3)).getD (slot % 10) 0 with
    | 2 =>
      let (d, u) := lteSpecial (bits t 4 4)
      if sym < d then 0 else if 14 ≤ sym + u then 1 else 2
    | k => k
  else
    let n1 := tddSlots (cfgMu b) (bits t 0 32)
    let n2 := if bits t 32 32 = 0 then 0 else tddSlots (cfgMu b) (bits t 32 32)
    let m := slot % (n1 + n2)
    if m < n1 then tddPatternKind (bits t 0 32) n1 m sym else tddPatternKind (bits t 32 32) n2 (m - n1) sym

/-- Whether a PRACH configuration index gives a long format (3GPP, PRESUMED, log entry 30). -/
def prachLong (b : Bytes) : Bool :=
  let i := bits (cfgPrach b) 0 8
  if cfgRat b = 1 then cfgDuplex b = 0 || decide (i < 48) else !cfgFr2 b && decide (i < (if cfgDuplex b = 0 then 87 else 67))

/-- Whether the prach field lies within R265 and R286: an index that the documents define, at most 8 frequency
occasions, a root sequence that the format has, a restricted set that it has, a start within the carrier. -/
def prachOk (b : Bytes) : Bool :=
  let x := cfgPrach b
  let i := bits x 0 8
  bits x 41 23 = 0 && decide (bits x 8 3 ≤ 3) && decide (bits x 11 15 ≤ (if prachLong b || cfgRat b = 1 then 837 else 137))
    && decide (bits x 30 2 ≤ (if prachLong b then 2 else 0)) && decide (bits x 32 9 < cfgPrb b)
    && (cfgRat b = 0 || (bits x 8 3 = 0
      && (if cfgDuplex b = 0 then decide (i < 64) && !([30, 46, 60, 61, 62].contains i) else decide (i < 58))))

/-- Whether the ssb field lies within R265: a period code of TS 38.331 and a subcarrier offset of its range (PRESUMED,
log entry 30); reserved for LTE. -/
def ssbOk (b : Bytes) : Bool :=
  if cfgRat b = 1 then cfgSsb b = 0
  else bits (cfgSsb b) 24 40 = 0 && decide (bits (cfgSsb b) 8 3 ≤ 5)
    && decide (bits (cfgSsb b) 19 5 ≤ (if cfgFr2 b then 11 else 23))

/-- Result 3 of R272: a field outside R265 or R270, or a reserved byte that is not zero. -/
def State.cellValueBad (s : State) (c : Nat) (b : Bytes) : Bool :=
  let out (x lo hi : Nat) : Bool := decide (x < lo) || decide (hi < x)
  1 < cfgRat b || out (cfgMu b) 0 (if cfgRat b = 1 then 0 else 3) || !cfgPrbOk b
    || 1 < leAt b 4 1 || (cfgFr2 b && leAt b 4 1 = 0)
    || 6 < cfgTx b || 6 < cfgRx b
    || (if cfgRat b = 1 then 503 else 1007) < leAt b 8 2
    || out (leAt b 0x0C 1) 1 64 || out (cfgTaWin b) 1 255
    || cfgOffset b % 1000000 ≠ 0 || 10240000000 ≤ cfgOffset b
    || out (cfgLead b) 50 2000 || out (cfgEntries b) 1 255
    || !s.planFits c b || out (leAt b 0x40 1) 1 12
    || bits (cfgReport b) 1 5 ≠ 0 || !s.reportFits c b
    || leAt b 7 1 ≠ 0 || leAt b 0x0F 1 ≠ 0 || leAt b 0x41 63 ≠ 0
    || !tddOk b || !prachOk b || !ssbOk b

/-- Result 4 of R272 (R269). -/
def State.cellTickBad (s : State) (b : Bytes) : Bool := decide (cfgSlot b < s.period)

/-- Whether the FRONTHAUL section binds stream FIFOs to the cell's antenna ports (R272, R328). -/
def State.cellBound (s : State) (c : Nat) : Bool := (s.entry 8 (0x100 + c)).isSome

/-! ### Frames and slots (R269) -/

/-- The frame count of an instant, with 1,024 frames added so that it is not negative. -/
def cfgFrames (b : Bytes) (t : Nat) : Nat := (t + 10240000000 - cfgOffset b) / 10000000

/-- The slot, counted from frame 0 with 1,024 frames added, that runs at an instant. -/
def cfgSlots (b : Bytes) (t : Nat) : Nat := (t + 10240000000 - cfgOffset b) / cfgSlot b

/-- The frame number and the slot in the frame at an instant. -/
def cfgFrame (b : Bytes) (t : Nat) : Nat := cfgFrames b t % 1024
def cfgSlotIn (b : Bytes) (t : Nat) : Nat := (t + 10240000000 - cfgOffset b) % 10000000 / cfgSlot b

/-- The first frame start at or after an instant. -/
def nextFrameStart (b : Bytes) (t : Nat) : Nat :=
  (t + 10240000000 - cfgOffset b + 9999999) / 10000000 * 10000000 + cfgOffset b - 10240000000

/-- The instant at which a command acts (R271): the named frame's next start, or the next frame boundary; a
start less than 2 ms ahead counts as the next at least 2 ms ahead. -/
def cmdInstant (b : Bytes) (next : Bool) (frame t : Nat) : Nat :=
  let t0 := nextFrameStart b t
  let t1 := if next then t0 else t0 + (frame + 1024 - cfgFrame b t0) % 1024 * 10000000
  if t1 < t + 2000000 then t1 + 10000000 else t1

/-! ### Commands (R271 to R274) -/

/-- The state of a cell, which PF1's cell event follows (R431). -/
def State.setCellState (s : State) (c v : Nat) : State :=
  if s.fld F.CLU_CELL_STATE_state c = v then s else (s.setFld F.CLU_CELL_STATE_state c v).message 1 6

/-- The result of a command. -/
def State.cellOutcome (s : State) (c r : Nat) : State := s.setFld F.CLU_CELL_STATE_last_result c r

/-- The jobs of a cell in ring `j` of a cluster that no engine runs, parked ones included, end as aborted (DESIGN
CHOICE, log entry 161). -/
def State.dropRing (s : State) (k j c : Nat) : State :=
  let r := s.jsp k
  let cons := s.fld F.JSP_RING_STATE_cons (k * 8 + j)
  let idx := ((List.range (s.jobsAhead k j)).map fun d => (cons + d) % 2 ^ 32).filter fun i =>
    !r.complete.contains (j, i) && jobCell (s.candidateJob k j i) = c
  idx.foldl (fun s i =>
    let b := s.candidateJob k j i
    let r := s.jsp k
    (s.setJsp k { r with parked := r.parked.filter fun t => !(t.ring = j ∧ t.index = i) }).jobEnd k j i b 2 0 0) s

/-- The codec work of a cell that stops: running jobs first, then those of the rings. -/
def State.dropJobs (s : State) (k c : Nat) : State :=
  let s := [0, 1, 2].foldl (fun s e => match look none (s.jsp k).running e with
    | some t => if jobCell t.job = c then s.abortJob k e else s
    | none => s) s
  (List.range 8).foldl (fun s j => s.dropRing k j c) s

/-- The frames of a cell that wait in its leaf queues are dropped: it transmits nothing further. -/
def State.dropFrames (s : State) (nodes : List Nat) : State :=
  { s with fh := { s.fh with
      queues := nodes.foldl (fun m n => put [] (put [] m (2 * n) []) (2 * n + 1) []) s.fh.queues
      deficit := nodes.foldl (fun m n => put 0 (put 0 m (2 * n) 0) (2 * n + 1) 0) s.fh.deficit } }

/-- R271: the cell stops; its queued slot work and its HARQ soft buffers are discarded, and its frames not yet sent.
`old` holds the cut under which it ran. -/
def State.stopCell (s old : State) (c : Nat) : State :=
  let s := s.dropJobs (old.cellCluster c) c
  let s := s.dropFrames ((List.range (old.cellGroups c)).map (old.subNode c))
  let r := s.cell c
  let s := r.harq.foldl (fun s a => s.writeMem a (leBytes 32 0) false) s
  (s.setCell c { CellRec.init with config := r.config, nextId := r.nextId }).setCellState c 0 |>.handoverStep c

/-- R274: a cell that is not OFF is stopped with last_result 8. -/
def State.removeCell (s old : State) (c : Nat) : State :=
  if s.fld F.CLU_CELL_STATE_state c = 0 then s else (s.stopCell old c).cellOutcome c 8

/-- The first failing check of a START or RECONFIG on a fetched configuration, 0 when none fails (R272). -/
def State.configCheck (s : State) (c : Nat) (b : Bytes) : Nat :=
  if s.cellKindBad c b then 2
  else if s.cellValueBad c b then 3
  else if s.cellTickBad b then 4
  else if !s.cellBound c then 7
  else 0

/-- The host address of the configuration. -/
def State.cfgAddr (s : State) (c : Nat) : Nat := s.fld F.CLU_CELL_CFG_ADDR_addr c * 64

/-- Whether the fetch of the configuration fails on PCIe. -/
def State.cfgFetchFails (s : State) (c : Nat) : Bool := s.hostError none (s.cfgAddr c) 128

/-- The checks of a command that need no configuration (R272); a command whose fetch is held waits like one that
waits for its frame. -/
def State.cmdState (s : State) (c op : Nat) : Nat :=
  let st := s.fld F.CLU_CELL_STATE_state c
  if (s.entry 4 c).isNone then 1
  else if (s.cell c).fetch.isSome ∨ (s.cell c).waiting.isSome ∨ (op = 1 ∧ st ≠ 0) ∨ (op ≠ 1 ∧ st = 0) then 5
  else 0

/-- The result of a command (R272): what needs no configuration first, then the fetch, then the configuration (DEDUCED,
log entry 33). -/
def State.cmdCheck (s : State) (c op : Nat) (b : Bytes) : Nat :=
  if s.cmdState c op ≠ 0 then s.cmdState c op
  else if op = 2 then 0
  else if s.cfgFetchFails c then 6
  else s.configCheck c b

/-- R273: the radio context of each core of the cell, where slot 0 is empty. -/
def State.radioContexts (s : State) (c : Nat) : State :=
  (s.cellCores c).foldl (fun s n =>
    match s.physOf n with
    | some p => if (s.ctx p 0).isNone then s.newContext p 0 256 else s
    | none => s) s

/-- An accepted command waits for its frame at `t`; the twin's mirror follows a STOP (R271, R273, R415). -/
def State.cellAccept (s : State) (c op t : Nat) (config : Bytes) : State :=
  let s := s.setCell c { s.cell c with waiting := some { op := op, at' := t, config := config } }
  let s := if op = 2 then s.mirrorSend (.cellStop c (s.tickAt t)) else s
  match op with
  | 1 => ((s.setReg .CLU_CELL_CNT c 0).radioContexts c).setCellState c 1
  | 2 => s.setCellState c 3
  | _ => s

/-- A command with its configuration fetched, which the twin's mirror gets whatever its checks say (R415): its result,
and its wait for its frame (R271, R272). -/
def State.cellGo (s : State) (c op : Nat) (next : Bool) (frame : Nat) : State :=
  let b := s.hostBytes none (s.cfgAddr c) 128
  let code := s.cmdCheck c op b
  let fetched := op ≠ 2 ∧ s.cmdState c op = 0 ∧ !s.cfgFetchFails c
  let s := if fetched then s.mirrorSend (.cellConfig c b) else s
  let s := s.cellOutcome c code
  if code ≠ 0 then s
  else
    let base := if op = 1 then b else (s.cell c).config
    s.cellAccept c op (cmdInstant base next (frame % 1024) s.total) b

/-- A command written to a cell (R271, R272): a START or RECONFIG that passes the checks before its fetch waits for it
while PF1 may not issue it (R426, R428). -/
def State.cellCmd (s : State) (c op : Nat) (next : Bool) (frame : Nat) : State :=
  if 1024 ≤ c ∨ op = 0 then s
  else if !s.pf1Ready then s.badAccess 3 (0x100008 + 256 * c)
  else if op ≠ 2 ∧ s.cmdState c op = 0 ∧ !s.canIssue 1 then
    s.setCell c { s.cell c with fetch := some { op := op, next := next, frame := frame, since := s.time.clk } }
  else s.cellGo c op next frame

/-- A held fetch of a cell tried again: made where PF1 may issue it; failed once it has been held longer than 1 ms
(R428), which is result 6 (R272). -/
def State.retryFetch (s : State) (c : Nat) : State :=
  let r := s.cell c
  match r.fetch with
  | none => s
  | some f =>
    let s' := s.setCell c { r with fetch := none }
    if s.canIssue 1 then s'.cellGo c f.op f.next f.frame
    else if s.heldOut 256 (some f.since) then s'.cellOutcome c 6
    else s

/-- The held fetches of all cells tried again. -/
def State.retryFetches (s : State) : State := (s.cells.map (·.1)).foldl State.retryFetch s

/-- CELL_START (R271 to R273). -/
def execCellStart (cell : Nat) (next : Bool) (atFrame : Nat) (s : State) : Host.Outcome State Fault Refusal :=
  done (s.cellCmd cell 1 next atFrame)

/-- CELL_STOP (R271, R272). -/
def execCellStop (cell : Nat) (next : Bool) (atFrame : Nat) (s : State) : Host.Outcome State Fault Refusal :=
  done (s.cellCmd cell 2 next atFrame)

/-- CELL_RECONFIG (R271, R272). -/
def execCellReconfig (cell : Nat) (next : Bool) (atFrame : Nat) (s : State) :
    Host.Outcome State Fault Refusal :=
  done (s.cellCmd cell 3 next atFrame)

/-- A configuration that takes the new one but for rat, mu, n_prb, duplex, n_tx and n_rx, which lie in bytes
0 to 5 (R271). -/
def reconfigured (old new : Bytes) : Bytes := old.take 6 ++ new.drop 6

/-- A configuration comes into force for the pipeline: it is given to the reference model, and the noise periods count
from here on. -/
def State.useConfig (s : State) (c : Nat) (b : Bytes) : State :=
  let r := s.cell c
  s.setCell c { r with waiting := none, config := b, inputs := r.inputs ++ [.config b]
                       periods := some (cfgSlots b s.total / cfgPeriod b) }

/-- CELL_FRAME_ACTION (R271): the waiting command acts at the start of its frame. -/
def execCellFrameAction (cell : Nat) (s : State) : Host.Outcome State Fault Refusal :=
  done <|
    let r := s.cell cell
    match r.waiting with
    | none => s
    | some w =>
      if s.total < w.at' then s
      else match w.op with
        | 1 => (s.useConfig cell w.config).setCellState cell 2
        | 2 => s.stopCell s cell
        | _ => s.useConfig cell (reconfigured r.config w.config)

/-- Whether a cell transmits and receives: ACTIVE, or STOPPING until its frame. -/
def State.cellRuns (s : State) (c : Nat) : Bool :=
  s.fld F.CLU_CELL_STATE_state c = 2 || s.fld F.CLU_CELL_STATE_state c = 3

/-- Whether the radio pipeline processes a cell now (R316). -/
def State.cellPiped (s : State) (c : Nat) : Bool := s.cellRuns c && s.cellNative c

/-! ### The cluster Lantern (R275) -/

/-- Whether a Lantern is in service for a cluster. -/
def State.lanternReady (s : State) (k : Nat) : Bool :=
  let l := s.fld F.CLU_CORE_MAP_lantern_phys k
  decide (l < 2) && s.fld F.HLTH_UNIT_state (lanternUnit k l) = 0

/-- What the Lantern of a cluster reaches in device memory (R275): the radio region of its cluster memory and the radio
tables of its cluster's radio cores. -/
def State.lanternReach (s : State) (k a n : Nat) : Bool :=
  let inside (lo len : Nat) : Bool := decide (lo ≤ a) && decide (a + n ≤ lo + len)
  inside (clmAddr k 0) (s.clmRadio k)
    || ((List.range 8).map fun j => 8 * k + j).any fun m =>
        s.isRadio m && (s.physOf m).isSome && (s.regions 3 m).any fun r => inside (vaultAddr m r.1) r.2

/-- A write of CLU_LANT_CTL: run 1 starts the Lantern, 0 stops it at once; fault is W1C.  A Lantern started at an entry
that it does not reach stops on a fault (DESIGN CHOICE, log entry 162). -/
def State.lantWrite (s : State) (k v : Nat) : State :=
  let s := (s.setFld F.CLU_LANT_CTL_entry k (bits v 0 23)).setFld F.CLU_LANT_CTL_run k (bits v 24 1)
  let s := if bitOf v 26 then s.setFld F.CLU_LANT_CTL_fault k 0 else s
  let go := bitOf v 24 && s.lanternReady k
  let reach := s.lanternReach k (clmAddr k (bits v 0 23)) 1
  let s := if go && !reach then s.setFld F.CLU_LANT_CTL_fault k 1 else s
  s.setFld F.CLU_LANT_CTL_running k (if go && reach then 1 else 0)

/-- CLU_LANT_CTL_WRITE. -/
def execCluLantCtlWrite (k value : Nat) (s : State) : Host.Outcome State Fault Refusal :=
  done (if 32 ≤ k then s
    else if !s.pf1Ready then s.badAccess 3 (0x200000 + 256 * k)
    else s.lantWrite k value)

/-- The Lantern of a cluster stops on a fault. -/
def State.lantFault (s : State) (k : Nat) : State :=
  (s.setFld F.CLU_LANT_CTL_running k 0).setFld F.CLU_LANT_CTL_fault k 1

/-- LANTERN_FAULT. -/
def execLanternFault (k : Nat) (s : State) : Host.Outcome State Fault Refusal :=
  done (if s.fld F.CLU_LANT_CTL_running k = 1 then s.lantFault k else s)

end Sys2Proof.Machine
end

