-- ==== Sys2Proof/Machine/Evict.lean ====
section
/-!
DEFINITION. The eviction of a rental context into its save area, and its restore (R202 to R205).
-/
namespace Sys2Proof.Machine

/-- The device address, in the save area of a slot, of the image of granule `g` (R202). -/
def imageAddr (n slot g : Nat) : Nat := vaultAddr n (saveArea slot + 0x80000 + g * 0x10000)

/-- One granule copied with its poison tags (R203, R204, R205); poisoned vault lines read are counted (R186). -/
def State.copyLines (s : State) (src dst lines : Nat) : State :=
  (List.range lines).foldl (fun s i =>
    s.writeMem (dst + 64 * i) (s.bytesAt (src + 64 * i) 64) (s.poisoned (src + 64 * i)))
    (s.readPoison src (64 * lines))

/-- The granules of a mask in ascending order. -/
def granulesOf (mask : Nat) : List Nat := (List.range 64).filter fun g => bitOf mask g

/-- Whether a context in a slot may be evicted: a rental slot that holds one that is not evicted (R205). -/
def State.evictable (s : State) (p slot : Nat) : Bool :=
  slot ≠ 0 && (s.ctx p slot).any fun x => !x.evicted

/-- CTX_EVICT (R203, R205): refused, or the eviction starts. -/
def State.evict (s : State) (p slot : Nat) : State :=
  if s.fld F.CORE_CTX_CMD_busy p = 1 then s.setFld F.CORE_CTX_CMD_last_result p 2
  else if !s.evictable p slot then s.setFld F.CORE_CTX_CMD_last_result p 1
  else (s.setCore p { s.core p with evict := some { slot := slot, restore := false } }).setFld
    F.CORE_CTX_CMD_busy p 1

/-- CTX_EVICT (R203). -/
def execCtxEvict (p slot : Nat) (s : State) : Host.Outcome State Fault Refusal :=
  done (s.evict p slot).settle

/-- The ranges that an eviction or a restore of the context in a slot reads and writes: its save area but for the digest
log, and its granules. -/
def State.spillRanges (s : State) (p slot n : Nat) : List (Nat × Nat) :=
  (vaultAddr n (saveArea slot), 0x480000)
    :: (granulesOf (s.fld F.CORE_SPM_OWNER_granules (p * 4 + slot))).map fun g => (granuleAddr n g, 0x10000)

/-- Steps 1 of R203 and R46: no radio lease runs, and the context's transactions have ended, its ordered adds among them
(R376), as have those still on their way to its granules; requests to the save area are not held (R189). -/
def State.spillReady (s : State) (p slot n : Nat) : Bool :=
  s.fld F.CORE_LEASE_STATUS_phase p = 0 && (s.core p).quiet slot
    && ((s.ctx p slot).all fun x => x.queue.all fun c => c.inFlight = 0)
    && ((s.adds ++ s.refused ++ s.ordered.flatMap (·.waiting)).all fun a => !(a.core = p && a.slot = slot))
    && (s.spillRanges p slot n).all fun r => !s.rangeHeld r.1 r.2
      && (s.adds ++ s.refused).all fun a => !(decide (r.1 ≤ a.line * 64) && decide (a.line * 64 < r.1 + r.2))

/-- The record of a context written to its save area, and its Beryl state where the context has never run (R202, R203).
The manual does not lay out the record's bytes (log entry 11). -/
def State.saveRecord (s : State) (p slot n : Nat) : State :=
  match s.ctx p slot with
  | none => s
  | some x =>
    let a := vaultAddr n (saveArea slot)
    let k := p * 4 + slot
    let b := recordImage x (s.fld F.CORE_ND_COUNT_count k) (s.fld F.CORE_DIGEST_PTR_head k)
      (decide (s.fld F.CORE_DIGEST_PTR_wrapped k = 1))
    let s := s.writeMem a b false
    let s := if x.savedBeryl.isSome then s
      else s.saveBeryl (a + berylArea) { (s.core p).beryl with bank1 := BerylBank.init, valid := 0 }
    s.setCtx p slot (some { x with record := b, savedBeryl := some (x.savedBeryl.getD BerylBank.init) })

/-- Steps 2 to 5 of R203: engine state, record and granules saved, granules released to zeroing, the slot evicted.
CORE_SPM_OWNER keeps showing the granules that the context reclaims. -/
def State.evictSlot (s : State) (p slot n : Nat) : State :=
  let running := s.fld F.CORE_LEASE_STATUS_rental_slot p = slot
  let s := if running then (s.saveEngines p slot).setFld F.CORE_LEASE_STATUS_rental_slot p 7 else s
  let mask := s.fld F.CORE_SPM_OWNER_granules (p * 4 + slot)
  let s := s.saveRecord p slot n
  let s := (granulesOf mask).foldl (fun s g => s.copyLines (granuleAddr n g) (imageAddr n slot g) 1024) s
  let s := s.setCore p { s.core p with zeroing := (s.core p).zeroing ||| mask, evict := none }
  let s := s.onCtx p slot fun x => { x with evicted := true, evictedAt := s.time.clk, savedGranules := mask }
  (s.setFld F.CORE_CTX_CMD_busy p 0).setFld F.CORE_CTX_CMD_last_result p 0

/-- A core that retires softly evicts its rental contexts one after another (R392). -/
def State.retireEvict (s : State) (p : Nat) : State :=
  if s.fld F.HLTH_UNIT_state p ≠ 2 ∨ (s.core p).evict ≠ none then s
  else match [1, 2, 3].find? fun sl => s.evictable p sl with
    | some sl => s.evict p sl
    | none => s

/-- EVICT_END (R203). -/
def execEvictEnd (p : Nat) (s : State) : Host.Outcome State Fault Refusal :=
  done <| match (s.core p).evict, s.logicalOf p with
    | some v, some n =>
      if v.restore ∨ !s.spillReady p v.slot n then s else ((s.evictSlot p v.slot n).retireEvict p).settle
    | _, _ => s

/-- The restore of R204: granules back from the images, the context from its record, engine state back to the
engines where the context runs. -/
def State.restoreSlot (s : State) (p slot n : Nat) : State :=
  let mask := s.fld F.CORE_SPM_OWNER_granules (p * 4 + slot)
  let s := (granulesOf mask).reverse.foldl
    (fun s g => s.copyLines (imageAddr n slot g) (granuleAddr n g) 1024) s
  let by233 := (s.core p).evictFor = some slot
  let s := s.readPoison (vaultAddr n (saveArea slot)) 0x4000
  let s := s.onCtx p slot fun x =>
    { s.loadRecord (vaultAddr n (saveArea slot)) x with evicted := false, savedGranules := 0, restoredAt := if by233 then some s.time.clk else x.restoredAt }
  let s := if by233 then s.setCore p { s.core p with evictFor := none } else s
  let s := if s.fld F.CORE_LEASE_STATUS_rental_slot p = slot then s.loadEngines p slot else s
  let s := s.setCore p { s.core p with evict := none }
  (s.setFld F.CORE_CTX_CMD_busy p 0).setFld F.CORE_CTX_CMD_last_result p 0

/-- RESTORE_END (R204). -/
def execRestoreEnd (p : Nat) (s : State) : Host.Outcome State Fault Refusal :=
  done <| match (s.core p).evict, s.logicalOf p with
    | some v, some n =>
      if v.restore ∧ s.fld F.CORE_LEASE_STATUS_phase p = 0
          ∧ (s.spillRanges p v.slot n).all fun r => !s.rangeHeld r.1 r.2 then (s.restoreSlot p v.slot n).settle
      else s
    | _, _ => s

end Sys2Proof.Machine
end

