-- ==== Sys2Proof/Machine/Lists.lean ====
section
/-!
DEFINITION. Portals and command lists (R75, R76, R90 to R99, R483): submissions, the fetch of commands,
their completion, the credit mirror and the message store.
-/
namespace Sys2Proof.Machine

/-! ### Submission (R92, R95, R96) -/

/-- Whether a list or buffer table at a device address lies in the pages that its owner may read: for a
slice, the vault pages of its partition (R92). -/
def State.tableReach (s : State) (owner n a len : Nat) : Bool :=
  len = 0 || (match locate a with | .vault _ _ => true | _ => owner = 256) && s.mayReach owner n a len false

/-- The ranges on the package that a descriptor names: the list, unless in host memory, and the table. -/
def Desc.ranges (d : Desc) : List (Nat × Nat) :=
  (if d.listHost then [] else [(d.listAddr, 32 * d.cmds)])
    ++ (if d.bufs = 0 then [] else [(d.bufTable, 64 * d.bufs)])

/-- Whether the owner may submit to the descriptor's core: a member of the slice's partition, or a radio
core (R92, R99), and mapped (R23). -/
def State.targetAllowed (s : State) (owner n : Nat) : Bool :=
  (s.physOf n).isSome
    && (if owner = 256 then s.isRadio n
        else match s.partitionOf owner with
          | some q => s.isMember q n
          | none => false)

/-- The first failing check of a descriptor, in the order of R92. -/
def State.descCheck (s : State) (owner : Nat) (d : Desc) : Option Nat :=
  if d.reservedSet then some eOpcode
  else if d.listAddr % 32 ≠ 0 ∨ d.doneAddr % 16 ≠ 0 ∨ (d.bufs ≠ 0 ∧ d.bufTable % 64 ≠ 0) then some eAlign
  else if 4096 < d.bufs then some eLen
  else if !s.targetAllowed owner d.core ∨ (d.syncEn ∧ !s.permitted d.syncId owner) then some ePerm
  else if d.ranges.any fun r => touchesReserved r.1 r.2 then some eOob
  else if d.ranges.any fun r => !s.tableReach owner d.core r.1 r.2 then some ePerm
  else none

/-- The detail of its error record (R102): the object, where it is the done_sync object that the owner may not use. -/
def State.descDetail (s : State) (owner : Nat) (d : Desc) (code : Nat) : Nat :=
  if code = ePerm ∧ s.targetAllowed owner d.core ∧ d.syncEn ∧ !s.permitted d.syncId owner then d.syncId else 0

/-- A descriptor that fails a check (R92): credit, error record, completion record, broken. -/
def State.discardDesc (s : State) (owner : Nat) (d : Desc) (code : Nat) : State :=
  let s := s.creditReturn owner
  let s := s.errRecord owner code 2 3 0xFF d.core 0 d.tag 0 (s.descDetail owner d code)
  let s := s.completionRecord owner d.doneAddr d.tag code 0
  if d.syncEn then s.breakObj owner d.syncId else s

/-- A write to the submission window that is no submission (R96). -/
def State.badSubmission (s : State) (portal : Nat) : State := s.count F.PORTAL_STATUS_bad_write portal 1

/-- A write of `desc` to a slot of the submission window (R92, R95, R96, R366); an ABSENT slice has no portal
(R353), and the radio portal is there once the device is ready. -/
def State.submit (s : State) (portal slot : Nat) (desc : Bytes) (via : Option Nat) : State :=
  if 256 < portal then s
  else if portal = 256 ∧ !s.pf1Ready then s.badAccess 3 (slot * 64)
  else if portal ≠ 256 ∧ s.fld F.SLC_STATE_state portal = 0 then s.badAccess 1 (portal * 0x10000 + slot * 64)
  else if !s.viaOk portal via ∨ 64 ≤ slot ∨ desc.length ≠ 64 then s.badSubmission portal
  else if s.available portal = 0 then s.count F.PORTAL_STATUS_dropped_no_credit portal 1
  else
    let d := Desc.ofBytes desc
    let s := s.countWrap F.PORTAL_STATUS_accepted portal 1
    match s.descCheck portal d with
    | some code => (s.discardDesc portal d code).settle
    | none =>
      match s.physOf d.core with
      | some p => (s.deliver p portal d none).settle
      | none => s

/-- DESCRIPTOR_SUBMIT (R92, R95, R96). -/
def execDescriptorSubmit (portal slot : Nat) (desc : Bytes) (via : Option Nat) (s : State) :
    Host.Outcome State Fault Refusal :=
  done (s.submit portal slot desc via)

/-- SUBMISSION_WINDOW_BAD_WRITE (R96). -/
def execSubmissionWindowBadWrite (portal : Nat) (s : State) : Host.Outcome State Fault Refusal :=
  done <|
    if 256 < portal then s
    else if portal = 256 ∧ !s.pf1Ready then s.badAccess 3 0
    else if portal ≠ 256 ∧ s.fld F.SLC_STATE_state portal = 0 then s.badAccess 1 (portal * 0x10000)
    else s.badSubmission portal

/-! ### Fetch (R76, R483) -/

/-- The 32 bytes of a command of a list, and whether they arrive poisoned (R483). -/
def State.fetchBytes (s : State) (owner : Nat) (l : CList) : Bytes × Bool :=
  let a := l.desc.listAddr + 32 * l.fetched
  if l.desc.listHost then
    (s.hostBytes (s.pasidOf owner) a 32,
      s.hostError (s.pasidOf owner) a 32 || (!s.canIssue (fnOf owner) && s.heldOut owner l.hostSince))
  else (s.bytesAt a 32, s.anyPoison a 32)

/-- The translations that the next fetch from a list needs (R349). -/
def State.fetchPages (s : State) (owner : Nat) (l : CList) : List Nat :=
  if l.desc.listHost then s.untranslated owner (s.pasidOf owner) (l.desc.listAddr + 32 * l.fetched) 32 else []

/-- Whether the fetch from a list must wait: a host read needs a function that may issue requests, unless
it has been held past the wait limit (R368), and, with ATS, a translation (R349); a read on the package waits where
requests to its line are held (R22, R189). -/
def State.fetchWaits (s : State) (owner : Nat) (l : CList) : Bool :=
  if l.desc.listHost then
    if s.canIssue (fnOf owner) then decide (s.fetchPages owner l ≠ []) else !s.heldOut owner l.hostSince
  else s.rangeHeld (l.desc.listAddr + 32 * l.fetched) 32

/-- Whether the fetch fails because the core that holds the list has been unmapped (R23). -/
def State.fetchLost (s : State) (l : CList) : Bool :=
  !l.desc.listHost && s.rangeLost (l.desc.listAddr + 32 * l.fetched) 32

/-- A command as fetched. -/
def QCmd.fresh (seq : Nat) (raw : BitVec 256) (list index : Nat) : QCmd :=
  { seq := seq, raw := raw, list := list, index := index, phase := .queued, since := none, waitOk := false,
    latch0 := false, latch1 := false, claim := false, needs := [], needsClm := [], err := 0, detail := 0,
    noSignal := false, serial := false, toIssue := 0, inFlight := 0, readsLeft := 0, todo := [], stamps := [], plan := none,
    fault := none, digests := [], reads := [], writes := [],
    hostSince := none, pages := [] }

/-- A list after a change. -/
def Ctx.updList (x : Ctx) (no : Nat) (f : CList → CList) : Ctx :=
  { x with lists := x.lists.map fun l => if l.no = no then f l else l }

/-- A command of the radio context that arrived poisoned (R483), or not at all (R23): skipped, its list flagged. -/
def State.skipFetch (s : State) (p slot : Nat) (x : Ctx) (l : CList) (code : Nat) : State :=
  let s := s.errRecord x.owner code 0 3 slot ((s.logicalOf p).getD 0) 0 l.desc.tag l.fetched 0
  let s := s.onCtx p slot fun x => x.updList l.no fun l =>
    { l with fetched := l.fetched + 1, done := l.done + 1, flagged := l.flagged + 1,
             status := if l.status = 0 then code else l.status }
  s.listsAdvance p slot x.lists.length

/-- A rental context whose list holds a poisoned command (R483), or one that does not arrive (R23), is torn down. -/
def State.tearFetch (s : State) (p slot : Nat) (l : CList) (code : Nat) : State :=
  s.teardown p slot code 0 (some { QCmd.fresh 0 0x300 l.no l.fetched with phase := .worked })

/-- Fetching in list order, lists in acceptance order, until a queue is full (R76). -/
def State.fetch (s : State) (p slot : Nat) : Nat → State
  | 0 => s
  | fuel + 1 =>
    match s.ctx p slot with
    | none => s
    | some x =>
      match x.lists.find? fun l => l.fetched < l.desc.cmds with
      | none => s
      | some l =>
        if x.evicted ∨ x.frozen ∨ s.fetchWaits x.owner l then s
        else
          let (b, bad) := s.fetchBytes x.owner l
          let lost := s.fetchLost l
          if bad ∨ lost then
            let code := if lost then ePerm else ePoison
            let s := if l.desc.listHost ∨ lost then s else s.readPoison (l.desc.listAddr + 32 * l.fetched) 32
            if slot = 0 then (s.skipFetch p slot x l code).fetch p slot fuel else s.tearFetch p slot l code
          else
            let c := QCmd.fresh x.nextSeq (BitVec.ofNat 256 (leNat b)) l.no l.fetched
            if 64 ≤ (x.queueOf c.engine).length then s
            else
              let x := x.updList l.no fun l => { l with fetched := l.fetched + 1 }
              (s.setCtx p slot (some { x with queue := x.queue ++ [c], nextSeq := x.nextSeq + 1 })).fetch
                p slot fuel

/-- A held fetch asks for its translations (R349), or notes since when its function holds it (R368). -/
def State.fetchAsk (s : State) (p slot : Nat) : State :=
  match s.ctx p slot with
  | none => s
  | some x =>
    match x.lists.find? fun l => l.fetched < l.desc.cmds with
    | some l =>
      if s.canIssue (fnOf x.owner) then s.askTranslation x.owner (s.fetchPages x.owner l)
      else s.onCtx p slot fun x => x.updList l.no fun l => { l with hostSince := some (l.hostSince.getD s.time.clk) }
    | none => s

/-- COMMAND_FETCH (R76, R483): one fetch brings at most 256 commands, what the four queues hold. -/
def execCommandFetch (p slot : Nat) (s : State) : Host.Outcome State Fault Refusal :=
  done (((s.fetch p slot 256).fetchAsk p slot).afterRelease p)

/-! ### Completion (R80, R93) -/

/-- Whether host writes or ordered adds of a command are still on their way (R80, R173). -/
def State.unfinished (s : State) (p slot seq : Nat) : Bool :=
  (s.host.held.any fun h => h.flag = some (p, slot, seq))
    || (s.adds.any fun a => a.core = p ∧ a.slot = slot ∧ a.seq = seq)
    || (s.refused.any fun a => a.core = p ∧ a.slot = slot ∧ a.seq = seq)
    || s.ordered.any fun l => l.waiting.any fun a => a.core = p ∧ a.slot = slot ∧ a.seq = seq

/-- R46, R54: a WAIT or a BARRIER whose conditions hold is honoured, and so completes, only while the Control
engine serves its context; one that failed completes at once (R84). -/
def State.honoured (s : State) (p slot : Nat) (x : Ctx) (c : QCmd) : Bool :=
  !(c.isWait || c.isBarrier) || c.noSignal || (s.engineServes p slot 3 && !x.evicted)

/-- Whether the record that a command is to log cannot be written yet (R22, R80, R189). -/
def State.logHeld (s : State) (p slot : Nat) (x : Ctx) (c : QCmd) : Bool :=
  (c.digests ≠ [] || (c.engine = 3 && c.opcode = 6)) && (s.logicalOf p).any fun n =>
    s.rangeHeld (vaultAddr n (saveArea slot + 0x480000 + x.digestPos % 188416 * 64)) 64

/-- COMMAND_COMPLETE (R54, R80): the oldest command of an engine's queue, once its work has ended. -/
def execCommandComplete (p slot engine : Nat) (s : State) : Host.Outcome State Fault Refusal :=
  done <| match s.ctx p slot with
    | none => s
    | some x =>
      match x.queueOf engine with
      | c :: _ =>
        if c.phase = .worked ∧ !s.unfinished p slot c.seq ∧ s.honoured p slot x c ∧ !s.logHeld p slot x c then
          s.complete p slot x c
        else s
      | [] => s

/-! ### The credit mirror and the message store (R97, R98) -/

/-- CREDIT_MIRROR_WRITE (R97): the window has closed; message 2 follows the write that shows a rise. -/
def execCreditMirrorWrite (portal : Nat) (s : State) : Host.Outcome State Fault Refusal :=
  done <|
    let r := s.slice portal
    match r.mirrorAt with
    | none => s
    | some t =>
      if s.time.clk < t then s
      else
        let s := s.setSlice portal { r with mirrorAt := none, rise := false }
        let s := if s.fld F.PORTAL_CREDIT_MIRROR_enable portal = 1 then
            s.hostWrite portal (s.fld F.PORTAL_CREDIT_MIRROR_addr portal * 8) (leBytes 8 (s.portalCredits portal))
          else s
        if r.rise then s.portalMessage portal 2 else s

/-- A write to a word of a message store entry (R98): word 0 is the address, word 1 data and mask; a
pending message is sent once when the mask clears.  A slice that TDISP has locked discards it (R365). -/
def State.msgWrite (s : State) (sl m word value : Nat) : State :=
  let i := sl * 8 + m
  if 256 ≤ sl ∨ 8 ≤ m then s
  else if s.tdiLocked sl then s.badAccess 0 (0xA00000 + sl * 0x1000 + 0x100 + 16 * m + 8 * word)
  else if word = 0 then s.setFld F.SLC_MSG_addr i value
  else
    let s := (s.setFld F.SLC_MSG_data i value).setFld F.SLC_MSG_mask i (bits value 32 1)
    if bits value 32 1 = 0 ∧ s.fld F.SLC_MSG_pending i = 1 then
      (s.setFld F.SLC_MSG_pending i 0).portalMessage sl m
    else s

/-- SLC_MSG_WRITE (R98). -/
def execSlcMsgWrite (sl m word value : Nat) (s : State) : Host.Outcome State Fault Refusal :=
  done (s.msgWrite sl m word value)

end Sys2Proof.Machine
end

