-- ==== Sys2Proof/Machine/Retire.lean ====
section
/-!
DEFINITION. The retirement of units and the installation of their spares (R20 to R24, R304, R306, R388 to
R395, R405).
-/
namespace Sys2Proof.Machine

/-! ### Groups and spares (R386) -/

/-- The retirement group of a unit. -/
def groupOf (u : Nat) : Option Nat :=
  if u < 736 then clusterOf u
  else if 768 ≤ u ∧ u < 816 then some (32 + (u - 768) / 6)
  else if 816 ≤ u ∧ u < 834 then some (40 + (u - 816) / 9)
  else none

/-- The units of the kind of a unit within its group, ascending; a vault goes with its core (R391). -/
def peers (u : Nat) : List Nat :=
  if u < 288 then (List.range 9).map fun i => u / 9 * 9 + i
  else if u < 576 then (List.range 9).map fun i => (u - 288) / 9 * 9 + i
  else if u < 672 then (List.range 3).map fun i => 576 + (u - 576) / 3 * 3 + i
  else if u < 736 then (List.range 2).map fun i => 672 + (u - 672) / 2 * 2 + i
  else if 768 ≤ u ∧ u < 816 then (List.range 6).map fun i => 768 + (u - 768) / 6 * 6 + i
  else if 816 ≤ u ∧ u < 834 then (List.range 9).map fun i => 816 + (u - 816) / 9 * 9 + i
  else []

/-- The spare that a retirement of a unit takes: the lowest other one in service that is promised to no other unit. -/
def State.spareFor (s : State) (u : Nat) : Option Nat :=
  (peers u).find? fun v => v ≠ u && s.fld F.HLTH_UNIT_state v = 1
    && (s.health.moves.all fun m => m.spare ≠ some v) && s.health.installs.all fun i => i.2 ≠ some v

/-- The health controller's record replaced. -/
def State.onHealth (s : State) (f : HealthBlk → HealthBlk) : State := { s with health := f s.health }

/-- A unit's state set at its retirement; what its last pass showed before no longer counts (R72). -/
def State.markRetired (s : State) (u st : Nat) (hard : Bool) : State :=
  ((s.setFld F.HLTH_UNIT_state u st).setFld F.HLTH_UNIT_hard u (if hard then 1 else 0)).onHealth fun h =>
    { h with passedOut := put false h.passedOut u false }

/-- spares_out when no spare is found (R383, R395). -/
def State.noSpare (s : State) (u : Nat) (v : Option Nat) : State :=
  match v with
  | some _ => s
  | none => s.healthEvent F.HLTH_EVENT_spares_out u

/-! ### Cores and vaults (R391, R392) -/

/-- The controller of a vault answers no more: every line not yet copied is written poisoned (R391).  Where a copy runs,
which lines it has copied by now is a free value (DESIGN CHOICE, log entry 171). -/
def State.poisonVault (s : State) (n : Nat) (copying : Bool) : State :=
  let lo := vaultAddr n 0 / 64
  let lost (l : Nat) : Bool := !copying || !Config.lineCopied s.freeCtr l || look false s.poison l
  { s with
    poison := s.poison.filter (fun e => decide (e.1 < lo))
      ++ ((List.range 18874368).filter fun i => lost (lo + i)).map (fun i => (lo + i, true))
      ++ s.poison.filter fun e => decide (lo + 18874368 ≤ e.1)
    freeCtr := s.freeCtr + 1 }

/-- R392, radio context of a core retired hard: every queued and running command is skipped with ERR_POISON,
commands not yet fetched with them, and the lists complete. -/
def State.abortRadio (s : State) (p : Nat) : State :=
  match s.ctx p 0 with
  | none => s
  | some x =>
    let s := x.queue.foldl (fun s c => (s.breakAll x.owner (s.breaks c)).cmdError p 0 x c ePoison 0 0) s
    let s := s.setCore p ((s.core p).freeBanks 0)
    let s := s.setCtx p 0 (some { x with queue := [], lists := [] })
    x.lists.foldl (fun s l =>
      s.listDone p 0 x.owner
        { l with status := if l.status = 0 then ePoison else l.status
                 flagged := l.flagged + (l.desc.cmds - l.done) } none) s

/-- What stops at once in a core retired hard (R392); evicted contexts survive only where their images are
being copied already (R395). -/
def State.stopCore (s : State) (p : Nat) (keepEvicted : Bool) : State :=
  let s := s.abortRadio p
  let s := [1, 2, 3].foldl (fun s sl =>
    if (s.ctx p sl).any fun x => keepEvicted && x.evicted then s else s.teardown p sl ePoison 0 none) s
  let s := s.setCore p { s.core p with evict := none, nextSlot := none, windowOpen := false }
  let s := s.setFld F.CORE_CTX_CMD_busy p 0
  (s.endLease p).afterRelease p

/-- A restore under way on a core that retires softly: the context stays evicted with the granules that it has
claimed, and the scheduler restores it on the spare (R395). -/
def State.dropRestore (s : State) (p : Nat) : State :=
  if (s.core p).evict.any fun v => v.restore then
    (s.setCore p { s.core p with evict := none }).setFld F.CORE_CTX_CMD_busy p 0
  else s

/-- A core and its vault retire; `u` is the unit that the evidence concerns, and `answers` tells whether the
vault's controller still answers.  A core into whose vault a copy still runs retires without a spare (R395). -/
def State.retireCore (s : State) (u p : Nat) (hard answers : Bool) : State :=
  let st := s.fld F.HLTH_UNIT_state p
  let mark (s : State) (v : Nat) : State := (s.markRetired p v hard).markRetired (vaultUnit p) v hard
  if st = 1 then
    let promised := s.health.moves.any fun m => m.spare = some p
    let s := (mark s 3).onHealth fun h => { h with
      moves := h.moves.map fun m => if m.spare = some p then { m with spare := none } else m
      installs := h.installs ++ [(p, none)] }
    let s := s.healthEvent F.HLTH_EVENT_retired u
    if promised then s.healthEvent F.HLTH_EVENT_spares_out u else s
  else if st = 2 then
    if hard then
      let lost := !answers && s.health.moves.any fun m => m.old = p && !m.copied
      let s := match s.logicalOf p with
        | some n => if lost then s.poisonVault n true else s
        | none => s
      let s := (mark s 3).onHealth fun h => { h with
        moves := h.moves.map fun m => if m.old = p then { m with hard := true } else m }
      (s.stopCore p true).healthEvent F.HLTH_EVENT_retired u
    else s
  else if st = 0 then
    let took := s.health.copying.any fun e => s.logicalOf p = some e.2
    let spare := if took then none else s.spareFor p
    let s := (mark s (if hard then 3 else 2)).onHealth fun h => { h with
      moves := h.moves ++ [{ old := p, spare := spare, hard := hard, copied := false }] }
    let s := s.healthEvent F.HLTH_EVENT_retired u
    let s := s.noSpare u spare
    if hard then
      let s := if answers then s else match s.logicalOf p with
        | some n => s.poisonVault n false
        | none => s
      s.stopCore p false
    else ((s.dropRestore p).retireEvict p).settle
  else s

/-! ### Retirement of a unit -/

/-- A unit whose spare is installed at the next tick boundary retires; a retired spare leaves the unit to which it was
promised without one (R395). -/
def State.retireSpared (s : State) (u : Nat) (hard : Bool) : State :=
  let was := s.fld F.HLTH_UNIT_state u
  let spare := s.spareFor u
  let s := (s.markRetired u 3 hard).healthEvent F.HLTH_EVENT_retired u
  if was = 1 then
    let promised := s.health.installs.any fun i => i.2 = some u
    let s := s.onHealth fun h => { h with
      installs := h.installs.map fun i => if i.2 = some u then (i.1, none) else i }
    if promised then s.healthEvent F.HLTH_EVENT_spares_out u else s
  else (s.noSpare u spare).onHealth fun h => { h with installs := h.installs ++ [(u, spare)] }

/-- The controller of a retired core's vault stops answering while the copy from it runs (R391). -/
def State.copyLost (s : State) (p : Nat) : State :=
  let s := s.health.copying.foldl (fun s e => if e.1 = p then s.poisonVault e.2 true else s) s
  let s := match s.logicalOf p with
    | some n => if s.health.moves.any fun m => m.old = p && !m.copied then s.poisonVault n true else s
    | none => s
  s.onHealth fun h => { h with
    copying := h.copying.filter fun e => e.1 ≠ p
    moves := h.moves.map fun m => if m.old = p then { m with copied := true } else m }

/-- Every unit that can retire: cores, vaults, Jasper engines, Lanterns, SerDes; the others fail on hard
evidence (R388, R393, R394, R304, R306, R405).  What a failed unit does from then on lies where it acts:
`State.clmFailed`, `State.mayStep`; the manual names no service of a management Lantern. -/
def State.retire (s : State) (u : Nat) (hard answers : Bool) : State :=
  if 840 ≤ u then s
  else if 3 ≤ s.fld F.HLTH_UNIT_state u then
    if 288 ≤ u ∧ u < 576 ∧ !answers then s.copyLost (u - 288) else s
  else if u < 288 then s.retireCore u u hard answers
  else if u < 576 then s.retireCore u (u - 288) hard answers
  else if u < 672 then
    let k := (u - 576) / 3
    let e := (u - 576) % 3
    ((s.abortJob k e).setFld F.JSP_ENGINE_state (u - 576) 2).retireSpared u hard
  else if u < 736 then
    let k := (u - 672) / 2
    let active := s.fld F.CLU_CORE_MAP_lantern_phys k = (u - 672) % 2
    let s := if active then s.setFld F.CLU_LANT_CTL_running k 0 else s
    let s := if active && hard then s.setFld F.CLU_LANT_CTL_fault k 1 else s
    let run := s.fld F.CLU_LANT_CTL_run k = 1
    let s := if active then s.onHealth fun h => { h with
        ranBefore := h.ranBefore.filter (fun j => j ≠ k) ++ if run then [k] else [] } else s
    s.retireSpared u hard
  else if 768 ≤ u ∧ u < 816 then
    let port := (u - 768) / 6
    let s := match s.serdesLane port ((u - 768) % 6) with
      | some l => s.ifDown (s.ifOfLane port l)
      | none => s
    s.retireSpared u hard
  else if 816 ≤ u ∧ u < 834 then
    let c := (u - 816) / 9
    let s := match s.clinkLane c ((u - 816) % 9) with
      | some _ => s.clinkDown c
      | none => s
    s.retireSpared u hard
  else if hard then
    (s.setFld F.HLTH_UNIT_state u 4).healthEvent F.HLTH_EVENT_failed u
  else s

/-- The hard retirement of R388. -/
def State.retireHard (s : State) (u : Nat) : State := s.retire u true true

/-! ### Soft retirement (R389, R390) -/

/-- Soft retirements of a group within the last 24 hours, a half-open window. -/
def State.inWindow (s : State) (g : Nat) : Nat :=
  (s.health.soft.filter fun e => e.1 = g ∧ s.time.clk < e.2 + 86400000000000).length

/-- retire_limit of the cut; 2 before the first (R56). -/
def State.retireLimit (s : State) : Nat := if (s.entry 1 0).isSome then s.cutBits 1 0 40 4 else 2

/-- A unit at or below the threshold that has not left service, a spare among them (R389). -/
def State.lowScore (s : State) (u : Nat) : Bool :=
  decide (u < 840) && decide (s.fld F.HLTH_UNIT_score u ≤ s.fld F.HLTH_CFG_retire_threshold 0)
    && decide (s.fld F.HLTH_UNIT_state u ≤ 1 ∨ s.fld F.HLTH_UNIT_state u = 4)

/-- The three conditions of R389; for a spare the second asks for another spare of its kind (DESIGN CHOICE, log entry
172). -/
def State.mayRetire (s : State) (u : Nat) : Bool :=
  decide (s.fld F.HLTH_UNIT_state u ≤ 1) && (s.spareFor u).isSome
    && match groupOf u with
      | some g => decide (s.inWindow g < s.retireLimit)
      | none => false

/-- Whether another unit of the group goes first (R390): the lower score, then the lower number. -/
def State.outranked (s : State) (u : Nat) : Bool :=
  (List.range 834).any fun v => v ≠ u && groupOf v = groupOf u && s.lowScore v && s.mayRetire v
    && (decide (s.fld F.HLTH_UNIT_score v < s.fld F.HLTH_UNIT_score u)
      || (s.fld F.HLTH_UNIT_score v = s.fld F.HLTH_UNIT_score u && decide (v < u)))

/-- SOFT_RETIREMENT (R389, R390): a unit at or below the threshold retires, or is flagged. -/
def execSoftRetirement (u : Nat) (s : State) : Host.Outcome State Fault Refusal :=
  done <|
    if !s.lowScore u then s
    else if s.mayRetire u then
      if s.outranked u then s
      else
        let s := s.onHealth fun h =>
          { h with soft := h.soft ++ [((groupOf u).getD 0, s.time.clk)] }
        s.retire u false true
    else if s.fld F.HLTH_UNIT_flagged u = 1 then s
    else (s.setFld F.HLTH_UNIT_flagged u 1).healthEvent F.HLTH_EVENT_flagged u

/-! ### Hard evidence (R388) -/

/-- HEALTH_POLL (R388): units that leave two successive polls unanswered retire. -/
def execHealthPoll (unanswered : List Nat) (s : State) : Host.Outcome State Fault Refusal :=
  done <|
    let gone := unanswered.filter fun u => s.health.missed.contains u
    gone.foldl (fun s u => s.retire u true (!(decide (288 ≤ u) && decide (u < 576))))
      (s.onHealth fun h => { h with missed := unanswered })

/-- JASPER_FAULT (R304): the engine retires and its job ends with outcome 2. -/
def execJasperFault (k e : Nat) (s : State) : Host.Outcome State Fault Refusal :=
  done <|
    if 32 ≤ k ∨ 3 ≤ e ∨ 3 ≤ s.fld F.HLTH_UNIT_state (jasperUnit k e) then s
    else ((s.count F.HLTH_UNIT_use_faults (jasperUnit k e) 1).scoreDown (jasperUnit k e) 32).retireHard
      (jasperUnit k e)

/-- SERDES_FAIL (R306, R405): the SerDes retires, and the link that uses its lane goes down. -/
def execSerdesFail (u : Nat) (s : State) : Host.Outcome State Fault Refusal :=
  done (if 768 ≤ u ∧ u < 834 then s.retireHard u else s)

/-- VAULT_COPY_END (R391): the copy of a retired core's vault has ended. -/
def execVaultCopyEnd (p : Nat) (s : State) : Host.Outcome State Fault Refusal :=
  done (s.onHealth fun h => { h with
    moves := h.moves.map fun m => if m.old = p then { m with copied := true } else m
    copying := h.copying.filter fun e => e.1 ≠ p })

/-! ### Installation at a tick boundary (R22 to R24, R392, R393) -/

/-- CLU_CORE_MAP's spare and retired bits brought up to date (R24). -/
def State.refreshMap (s : State) (k : Nat) : State :=
  let ps := List.range 9
  let spare := match ps.find? fun j => s.fld F.HLTH_UNIT_state (9 * k + j) = 1 with
    | some j => j
    | none => 15
  let gone := ps.foldl (fun m j =>
    if s.fld F.HLTH_UNIT_state (9 * k + j) = 3 ∧ s.logicalOf (9 * k + j) = none then m + 2 ^ j else m) 0
  (s.setFld F.CLU_CORE_MAP_spare_core_slot k spare).setFld F.CLU_CORE_MAP_retired_cores k gone

/-- One nibble of core_slot_map. -/
def State.setSlotMap (s : State) (k j e : Nat) : State :=
  let m := s.fld F.CLU_CORE_MAP_core_slot_map k
  s.setFld F.CLU_CORE_MAP_core_slot_map k (m - bits m (4 * j) 4 * 2 ^ (4 * j) + e * 2 ^ (4 * j))

/-- The value of a register moved from one instance to another. -/
def State.moveReg (s : State) (r : Reg) (i j : Nat) : State :=
  (s.setReg r j (s.reg r i)).setReg r i (r.resetVal i)

/-- An ordered add, a synchronisation signal, a group wait, a held host request and a held memory request of the
contexts of core `p`, which now runs on `q` (R80, R88, R103, R173). -/
def OrdAdd.moved (p q : Nat) (a : OrdAdd) : OrdAdd := if a.core = p then { a with core := q } else a
def OrdLine.moved (p q : Nat) (l : OrdLine) : OrdLine := { l with waiting := l.waiting.map (OrdAdd.moved p q) }
def Signal.moved (p q : Nat) (g : Signal) : Signal :=
  if g.src / 32 = p then { g with src := q * 32 + g.src % 32 } else g
def GroupWait.moved (p q : Nat) (w : GroupWait) : GroupWait := if w.core = p then { w with core := q } else w
def HeldReq.moved (p q : Nat) (h : HeldReq) : HeldReq :=
  { h with flag := h.flag.map fun f => if f.1 = p then (q, f.2) else f }
def MemReq.moved (p q : Nat) : MemReq → MemReq
  | .remote r slot addr => .remote (if r = p then q else r) slot addr
  | m => m

/-- What stands outside a core on behalf of its contexts renamed with them, so that a command completes, is released
and keeps its order as if it had not moved. -/
def State.renameCore (s : State) (p q : Nat) : State :=
  { s with
    adds := s.adds.map (OrdAdd.moved p q)
    refused := s.refused.map (OrdAdd.moved p q)
    ordered := s.ordered.map (OrdLine.moved p q)
    signals := s.signals.map (Signal.moved p q)
    clink := { s.clink with waits := s.clink.waits.map (GroupWait.moved p q) }
    host := { s.host with held := s.host.held.map (HeldReq.moved p q) }
    cores := s.cores.map fun e => (e.1, { e.2 with memHeld := e.2.memHeld.map (MemReq.moved p q) }) }

/-- What goes with a logical core from physical core `p` to `q`: contexts, held descriptors and memory requests,
writes in flight, their registers, and copies of the page entries and of limit_cycles (R22, R200, R391, R392).  A
write to limit_cycles that waits for the boundary stays with its physical core (R38, R47). -/
def State.moveCore (s : State) (p q : Nat) : State :=
  let s := s.renameCore p q
  let c := s.core p
  let s := s.setCore q { s.core q with
    ctx := c.ctx, held := c.held, memHeld := c.memHeld, blockedSpell := c.blockedSpell,
    heldSpell := c.heldSpell, evictFor := c.evictFor, opalSeq := c.opalSeq, loose := c.loose }
  let s := s.setCore p { Core.init with spares := c.spares, pendLimit := c.pendLimit }
  let s := [0, 1, 2, 3].foldl (fun s sl =>
    (((s.moveReg .CORE_ND_COUNT (p * 4 + sl) (q * 4 + sl)).moveReg .CORE_DIGEST_PTR (p * 4 + sl)
      (q * 4 + sl)).moveReg .CORE_SCHED (p * 4 + sl) (q * 4 + sl)).moveReg .CORE_SPM_OWNER (p * 4 + sl)
      (q * 4 + sl)) s
  let s := (List.range 576).foldl (fun s g =>
    s.setReg .CORE_VAULT_PAGE (q * 576 + g) (s.reg .CORE_VAULT_PAGE (p * 576 + g))) s
  let s := s.setFld F.GAR_MAX_INSTR_TIME_limit_cycles q (s.fld F.GAR_MAX_INSTR_TIME_limit_cycles p)
  let move (i : Nat) : Nat := if i / 576 = p then q * 576 + i % 576 else i
  { s with slices := s.slices.map fun e => (e.1, { e.2 with zeroPages := e.2.zeroPages.map move }) }

/-- A logical core with no physical core left (R22, R23): what it held ends, and its memories are lost. -/
def State.unmap (s : State) (p n : Nat) : State :=
  let held := (s.core p).held
  let mem := (s.core p).memHeld
  let s := s.onHealth fun h => { h with copying := h.copying.filter fun e => e.2 ≠ n }
  let s := s.setCore p { s.core p with held := [], memHeld := [] }
  let s := [1, 2, 3].foldl (fun s sl => s.teardown p sl ePerm 0 none) s
  let s := s.abortRadio p
  let s := mem.foldl State.serveMem ((s.endContext p 0).setSlotMap (n / 8) (n % 8) 15)
  let s := held.foldl (fun s h => match h.step with
    | some _ => s.memberDone h.portal n ePerm
    | none => s.discardDesc h.portal h.desc ePerm) s
  let s := (s.zeroRange (vaultAddr n 0) 0x48000000).zeroRange (spmAddr n 0) 0x400000
  let s := ((s.keys 4).filter fun c => s.cellUses c n).foldl (fun s c => s.removeCell s c) s
  s.settle

/-- Whether a move is carried out at this boundary (R392). -/
def State.moveDue (s : State) (m : CoreMove) : Bool :=
  m.hard || m.spare.isNone
    || (m.copied && (s.core m.old).evict.isNone
      && [1, 2, 3].all (fun sl => (s.ctx m.old sl).all fun x => x.evicted)
      && (s.ctx m.old 0).all fun x => x.queue.isEmpty)

/-- A spare takes a retired core's logical number (R20, R22, R392). -/
def State.installCore (s : State) (m : CoreMove) : State :=
  match s.logicalOf m.old with
  | none => s
  | some n =>
    let k := n / 8
    let p := m.old
    let s := (s.setFld F.HLTH_UNIT_state p 3).setFld F.HLTH_UNIT_state (vaultUnit p) 3
    let s := if m.copied ∨ m.spare.isNone then s else s.onHealth fun h => { h with copying := h.copying ++ [(p, n)] }
    match m.spare with
    | none => (s.unmap p n).refreshMap k
    | some q =>
      let s := if m.hard then s.endContext p 0 else s
      let s := if (s.core p).windowOpen ∨ s.fld F.CORE_LEASE_STATUS_phase p ≠ 0 then s.closeWindow p else s
      let s := (s.moveCore p q).setSlotMap k (n % 8) (q % 9)
      let s := (s.setFld F.HLTH_UNIT_state q 0).setFld F.HLTH_UNIT_state (vaultUnit q) 0
      let s := (s.zeroRange (spmAddr n 0) 0x400000).serveHeld q fun _ => true
      let s := if m.hard && s.isRadio n then s.newContext q 0 256 else s
      (s.refreshMap k).afterRelease q

/-- The spare of a unit other than a core installed: a Jasper engine, the Lantern, a SerDes.  A logical Jasper engine
left without one has physical number 3; a Lantern that takes another's place has the retired one tested ahead of the
rotation (R396). -/
def State.installUnit (s : State) (u : Nat) (spare : Option Nat) : State :=
  if u < 288 then s.refreshMap (u / 9)
  else match spare with
    | none =>
      if 576 ≤ u ∧ u < 672 then
        let k := (u - 576) / 3
        if s.jasperOf k 0 = (u - 576) % 3 then s.setFld F.CLU_CORE_MAP_jsp_of_l0 k 3
        else if s.jasperOf k 1 = (u - 576) % 3 then s.setFld F.CLU_CORE_MAP_jsp_of_l1 k 3
        else s
      else s
    | some v =>
      let use (s : State) : State := s.setFld F.HLTH_UNIT_state v 0
      if u < 576 then s
      else if u < 672 then
        let k := (u - 576) / 3
        let e := (u - 576) % 3
        let e' := (v - 576) % 3
        let s := if s.jasperOf k 0 = e then (use s).setFld F.CLU_CORE_MAP_jsp_of_l0 k e'
          else if s.jasperOf k 1 = e then (use s).setFld F.CLU_CORE_MAP_jsp_of_l1 k e'
          else s
        if s.fld F.HLTH_UNIT_state v = 0 then s.setFld F.JSP_ENGINE_state (v - 576) 0 else s
      else if u < 736 then
        let k := (u - 672) / 2
        if s.fld F.CLU_CORE_MAP_lantern_phys k = (u - 672) % 2 then
          let s := ((use s).setFld F.CLU_CORE_MAP_lantern_phys k ((v - 672) % 2)).passAhead u
          let run := s.health.ranBefore.contains k
          let s := s.onHealth fun h => { h with ranBefore := h.ranBefore.filter fun j => j ≠ k }
          if run then s.setFld F.CLU_LANT_CTL_running k 1 else s
        else s
      else if u < 816 then
        let port := (u - 768) / 6
        match s.serdesLane port ((u - 768) % 6) with
        | some l => { use s with fh := { s.fh with lanes := put 0 s.fh.lanes (4 * port + l) ((v - 768) % 6 + 1) } }
        | none => s
      else
        let c := (u - 816) / 9
        match s.clinkLane c ((u - 816) % 9) with
        | some l =>
          let s := (use s).setFld F.CLINK_PORT_STATUS_spare_used c 1
          { s with clink := { s.clink with lanes := put 0 s.clink.lanes (8 * c + l) ((v - 816) % 9 + 1) } }
        | none => s

/-- Step 1 of R38: map changes and spares. -/
def State.installSpares (s : State) : State :=
  let due := s.health.moves.filter s.moveDue
  let units := s.health.installs
  let s := s.onHealth fun h => { h with moves := h.moves.filter (fun m => !due.contains m), installs := [] }
  let s := due.foldl (fun s m => s.installCore m) s
  let s := units.foldl (fun s i => s.installUnit i.1 i.2) s
  s.health.moves.foldl (fun s m => s.retireEvict m.old) s

end Sys2Proof.Machine
end

