-- ==== Sys2Proof/Machine/Health.lean ====
section
/-!
DEFINITION. Vigil (R396 to R401): tests and their records, targeted runs, staleness, and the start-up pass.
-/
namespace Sys2Proof.Machine

/-- Whether a unit is in idle time in which Vigil may use it (R396); units that are spare or retired always
are.  A management Lantern is idle between services, of which the manual names none (DESIGN CHOICE, log entry 174). -/
def State.vigilIdle (s : State) (u : Nat) : Bool :=
  if s.fld F.HLTH_UNIT_state u = 1 ∨ s.fld F.HLTH_UNIT_state u = 3 then true
  else if u < 288 then
    s.fld F.CORE_LEASE_STATUS_phase u = 0 && [1, 2, 3].all fun sl => !((s.ctx u sl).any (s.runnable u))
  else if u < 576 then (s.core (u - 288)).memHeld.isEmpty
  else if u < 672 then
    let k := (u - 576) / 3
    !s.radioEngine k ((u - 576) % 3)
      || (s.fld F.JSP_ENGINE_busy (u - 576) = 0 && (List.range 8).all fun j => s.jobsAhead k j = 0)
  else if u < 736 then false
  else if u < 768 then
    (List.range 128).any fun g => s.fld F.CLU_CLM_GRANULE_owner ((u - 736) * 128 + g) = 0x1FF
      && s.fld F.CLU_CLM_GRANULE_zeroing ((u - 736) * 128 + g) = 0
      && decide (s.clmRadio (u - 736) ≤ g * 65536)
  else if u < 834 then false
  else if u < 838 then true
  else s.lamp.all fun e => e.2.step.isNone || s.lampDie e.1 ≠ u - 838

/-- Whether it is a unit's turn in Vigil's background work: the first idle unit of those scheduled ahead (R397), else
the first idle one in the rotation (R396; units of ascending number, busy ones passed over: DESIGN CHOICE, log entry
174). -/
def State.vigilTurn (s : State) (u : Nat) : Bool :=
  match s.health.ahead.find? s.vigilIdle with
  | some v => v = u
  | none => ((List.range 840).find? fun i => s.vigilIdle ((s.health.rotation + i) % 840))
      = some ((u + 840 - s.health.rotation) % 840)

/-- The conditions of a run that the state shows (R398): load_class bits 0 and 1, and bit 2 of a unit in a cluster by
the power of its die. -/
def State.observed (s : State) (r : VigilRun) : VigilRun :=
  let inCluster := (clusterOf r.unit).isSome
  let cores := (List.range 288).filter fun p => (clusterOf r.unit).all fun k => p / 9 = k
  let radio := cores.any fun p => s.fld F.CORE_LEASE_STATUS_phase p = 2
  let streams := cores.any fun p => p ≠ r.unit && !(s.core p).array.isEmpty
  let hot := if inCluster then decide (400 ≤ r.power) else bitOf r.loadClass 2
  { r with loadClass := radio.toNat + 2 * streams.toNat + 4 * hot.toNat + 8 * (bitOf r.loadClass 3).toNat }

/-- Whether the pending request of R399 is this run: its unit, its test or a full pass, and every enabled
condition. -/
def State.requestMet (s : State) (r : VigilRun) : Bool :=
  let t := s.fld F.HLTH_VIGIL_REQ_test 0
  let target := toSigned 12 (s.fld F.HLTH_VIGIL_REQ_temp_target 0)
  let tol : Int := (4 * s.fld F.HLTH_VIGIL_REQ_temp_tol 0 : Nat)
  s.fld F.HLTH_VIGIL_REQ_pending 0 = 1 && s.fld F.HLTH_VIGIL_REQ_unit 0 = r.unit
    && (if t = 0xFFFF then r.fullPass else t = r.test && !r.fullPass)
    && (s.fld F.HLTH_VIGIL_REQ_temp_en 0 = 0 || decide (target - tol ≤ r.temp ∧ r.temp ≤ target + tol))
    && (s.fld F.HLTH_VIGIL_REQ_class_en 0 = 0 || r.loadClass = s.fld F.HLTH_VIGIL_REQ_load_class 0)

/-- The record of a run (R398), with phase 0; that of a full pass with a failed test names the first. -/
def State.vigilRecord (s : State) (r : VigilRun) : Bytes :=
  let out := s.fld F.HLTH_UNIT_state r.unit = 1 ∨ s.fld F.HLTH_UNIT_state r.unit = 3
  let kind := if r.targeted then 3 else if r.failed then 2 else 1
  leBytes 1 kind
    ++ leBytes 1 ((if r.failed then 2 else 0) + (if r.failed && r.rerunFailed then 4 else 0) + (if out then 8 else 0))
    ++ leBytes 2 r.unit ++ leBytes 2 r.test ++ leBytes 1 r.loadClass ++ leBytes 1 0
    ++ leBytes 2 (ofSigned 16 r.temp) ++ leBytes 2 r.volt ++ leBytes 2 r.ring ++ leBytes 2 r.power
    ++ leBytes 8 (s.tickNo % 2 ^ 48) ++ leBytes 4 r.detail ++ leBytes 4 0

/-- A record written to the Vigil ring or dropped (R398, R482). -/
def State.vigilWrite (s : State) (bs : Bytes) : State :=
  let n := ringEntries (s.fld F.HLTH_VIGIL_RING_size_code 0) 6
  let h := s.fld F.HLTH_VIGIL_PTR_head 0
  if ringRoom h (s.fld F.HLTH_VIGIL_PTR_tail 0) n then
    let phase := (h / n + 1) % 2
    (s.pf0Write (s.fld F.HLTH_VIGIL_RING_base_4k 0 * 4096 + h % n * 32)
      (bs.take 1 ++ leBytes 1 (leAt bs 1 1 + phase) ++ bs.drop 2)).countWrap F.HLTH_VIGIL_PTR_head 0 1
  else s.count F.HLTH_EVENT_vigil_lost 0 1

/-- A full pass ends (R387, R398, R400, R72). -/
def State.passEnd (s : State) (u : Nat) (passed : Bool) : State :=
  let s := s.count F.HLTH_UNIT_passes u 1
  let s := (s.setFld F.HLTH_UNIT_last_pass_ok u (if passed then 1 else 0)).setFld F.HLTH_UNIT_stale u 0
  let s := s.onHealth fun h => { h with
    lastPass := put 0 h.lastPass u s.time.clk
    ahead := h.ahead.filter fun v => v ≠ u
    failing := put none h.failing u none
    passedOut := put false h.passedOut u (passed && s.fld F.HLTH_UNIT_state u = 3) }
  if passed then s.scoreUp u 4 else s

/-- A failure that Vigil locates in a row or in a bank's logic of a vault has it remapped (R188). -/
def State.vigilRemap (s : State) (r : VigilRun) : State :=
  if r.unit < 288 ∨ 576 ≤ r.unit then s
  else match r.located with
    | some (b, some row) => s.remapRow (r.unit - 288) b row
    | some (b, none) => s.remapBank (r.unit - 288) b
    | none => s

/-- The run that the record of a pass names: the first test of the pass that failed, else this one (R398). -/
def State.passRun (s : State) (r : VigilRun) : VigilRun :=
  match look none s.health.failing r.unit with
  | some f => if r.fullPass then { f with fullPass := true, targeted := r.targeted } else r
  | none => r

/-- What a run leads to (R188, R387, R388, R397, R398). -/
def State.vigilRun (s : State) (r : VigilRun) : State :=
  let u := r.unit
  let r := s.observed r
  let record := s.vigilRecord (s.passRun r)
  let passed := !(s.passRun r).failed
  let s := if r.targeted then s.setFld F.HLTH_VIGIL_REQ_pending 0 0
    else s.onHealth fun h => { h with rotation := if r.fullPass then (u + 1) % 840 else u }
  let s := if r.failed then
      let s := (s.count F.HLTH_UNIT_vigil_fails u 1).healthEvent F.HLTH_EVENT_vigil_fail u
      (if r.rerunFailed then s else s.scoreDown u 64).vigilRemap r
    else s
  let s := if r.fullPass then s.passEnd u passed
    else if r.failed && !r.targeted then s.onHealth fun h => { h with
      failing := put none h.failing u (some ((look none h.failing u).getD r)) }
    else s
  let s := if r.fullPass || r.targeted then s.vigilWrite record else s
  if r.failed && r.rerunFailed then s.retireHard u else s

/-- VIGIL_TEST (R396 to R399): one test, or the last test of a full pass, of an idle unit. -/
def execVigilTest (run : VigilRun) (s : State) : Host.Outcome State Fault Refusal :=
  done <|
    if 840 ≤ run.unit ∨ !s.vigilIdle run.unit ∨ (run.targeted ∧ !s.requestMet (s.observed run))
        ∨ (!run.targeted ∧ (s.fld F.HLTH_CFG_vigil_en 0 = 0 ∨ !s.vigilTurn run.unit)) then s
    else s.vigilRun run

/-- A write of HLTH_VIGIL_REQ (R399): go places the request, in place of one that waits; cancel withdraws. -/
def State.vigilReqWrite (s : State) (v : Nat) : State :=
  let p := if bitOf v 48 then 1 else if bitOf v 49 then 0 else s.fld F.HLTH_VIGIL_REQ_pending 0
  (s.setReg .HLTH_VIGIL_REQ 0 (BitVec.ofNat 512 (bits v 0 48))).setFld F.HLTH_VIGIL_REQ_pending 0 p

/-- VIGIL_REQUEST (R399). -/
def execVigilRequest (value : Nat) (s : State) : Host.Outcome State Fault Refusal := done (s.vigilReqWrite value)

/-- VIGIL_CANCEL (R399). -/
def execVigilCancel (s : State) : Host.Outcome State Fault Refusal :=
  done (s.setFld F.HLTH_VIGIL_REQ_pending 0 0)

/-- Whether a unit's last full pass is older than stale_h hours (R400). -/
def State.staleDue (s : State) (u : Nat) : Bool :=
  let h := s.fld F.HLTH_CFG_stale_h 0
  decide (u < 840) && decide (h ≠ 0) && s.fld F.HLTH_UNIT_stale u = 0
    && decide (look 0 s.health.lastPass u + h * 3600000000000 < s.time.clk)

/-- VIGIL_STALE (R400). -/
def execVigilStale (u : Nat) (s : State) : Host.Outcome State Fault Refusal :=
  done (if s.staleDue u then (s.setFld F.HLTH_UNIT_stale u 1).healthEvent F.HLTH_EVENT_stale u else s)

/-- A change of boot_state, with the device event (R431, R439). -/
def State.setBoot (s : State) (v : Nat) : State :=
  if s.fld F.DEV_STATUS_boot_state 0 = v then s else (s.setFld F.DEV_STATUS_boot_state 0 v).deviceEvent

/-- The full pass of a unit at start-up: the run that the command gives for the unit, else a pass without a failure. -/
def startupRunOf (runs : List VigilRun) (u : Nat) : VigilRun :=
  match runs.find? fun r => r.unit = u with
  | some r => { r with fullPass := true, targeted := false }
  | none => { Config.startupRun u with unit := u, fullPass := true, targeted := false, failed := false,
                                       rerunFailed := false, located := none }

/-- STARTUP_VIGIL_PASS (R401, R442): one full pass of every unit; `runs` gives the first failed test of each unit that
fails its pass, and whether its rerun failed too. -/
def execStartupVigilPass (runs : List VigilRun) (s : State) : Host.Outcome State Fault Refusal :=
  done <|
    if s.fld F.DEV_STATUS_boot_state 0 ≠ 3 then s
    else
      let s := (List.range 840).foldl (fun s u => s.vigilRun (startupRunOf runs u)) s
      (s.onHealth fun h => { h with rotation := 0 }).setBoot 4

end Sys2Proof.Machine
end

