-- ==== Sys2Proof/Machine/Opal.lean ====
section
/-!
DEFINITION. Opal, the mover (R150 to R180).
-/
namespace Sys2Proof.Machine

/-! ### Tensors (R153 to R158) -/

/-- Bytes of an element; an FP4 element counts 1 here (R154). -/
def elemBytes (fmt : Nat) : Nat :=
  match fmt with
  | 0 => 4 | 1 => 2 | 2 => 2 | 8 => 2 | 9 => 4 | 10 => 4 | _ => 1

/-- Half-bytes of an element. -/
def elemNibs (fmt : Nat) : Nat := if fmt = 5 then 1 else 2 * elemBytes fmt

/-- The float format of a code (R154). -/
def opalFloat (fmt : Nat) : Option FFmt :=
  match fmt with
  | 0 => some fp32 | 1 => some bf16 | 2 => some fp16 | 3 => some e4m3 | 4 => some e5m2 | 5 => some e2m1
  | _ => none

/-- Bits of an integer format of a code (R154). -/
def opalInt (fmt : Nat) : Option Nat :=
  match fmt with
  | 7 => some 8 | 8 => some 16 | 9 => some 32 | _ => none

/-- The number of elements. -/
def Tensor.count (t : Tensor) : Nat := t.extent.foldl (· * ·) 1

/-- The index vector of element `n` in element order (R155). -/
def digits : List Nat → Nat → List Nat
  | [], _ => []
  | e :: es, n => n % e :: digits es (n / e)

/-- All index vectors in element order. -/
def Tensor.indices (t : Tensor) : List (List Nat) := (List.range t.count).map (digits t.extent)

/-- The position of an element, in half-bytes from the start of the buffer (R155). -/
def Tensor.pos (t : Tensor) (ix : List Nat) : Int :=
  2 * (t.offset : Int) + (elemNibs t.fmt : Int)
    * ((ix.zip t.stride).foldl (fun a q => a + (q.1 : Int) * q.2) 0)

/-- The key of a byte of a buffer: a device address, or a host address above 2 to the 70. -/
def Buf.key (b : Buf) : Nat := if b.host then 2 ^ 70 + b.base else b.base

/-- The index vectors that give the lowest and the highest position. -/
def Tensor.lowIx (t : Tensor) : List Nat := (t.extent.zip t.stride).map fun q => if q.2 < 0 then q.1 - 1 else 0
def Tensor.highIx (t : Tensor) : List Nat := (t.extent.zip t.stride).map fun q => if q.2 < 0 then 0 else q.1 - 1

/-- The lowest and highest byte of the footprint, from the start of the buffer (R158). -/
def Tensor.low (t : Tensor) : Int := (t.pos t.lowIx) / 2
def Tensor.high (t : Tensor) : Int := (t.pos t.highIx + (elemNibs t.fmt : Int) - 1) / 2

/-- The footprint as key and length; none for a tensor with an extent of 0. -/
def Tensor.footprint (t : Tensor) : List (Nat × Nat) :=
  if t.count = 0 then [] else [(t.buf.key + t.low.toNat, (t.high - t.low + 1).toNat)]

/-- An operand of a command: a tensor, whether it is read and written, and whether it is an index or scale
tensor. -/
structure Opnd where
  t : Tensor
  rd : Bool
  wr : Bool
  weak : Bool

/-- R158: a footprint that starts below the buffer, or an offset at or beyond its length. -/
def Tensor.startCheck (t : Tensor) : Except Fail Unit :=
  failIf (t.count ≠ 0 && (decide (t.buf.length ≤ t.offset) || decide (t.low < 0))) eOob t.index

/-- R158: a footprint that ends at or beyond the length. -/
def Tensor.endCheck (t : Tensor) : Except Fail Unit :=
  failIf (t.count ≠ 0 && decide ((t.buf.length : Int) ≤ t.high)) eLen t.index

/-- R157: for a main tensor every innermost run starts on a line and covers whole lines; for an index or
scale tensor the lowest byte starts a line and dimension 0 is dense. -/
def Opnd.alignCheck (o : Opnd) : Except Fail Unit :=
  let t := o.t
  let e0 := t.extent.headD 1
  let s0 := t.stride.headD 0
  let first : Int := if t.count = 0 then 2 * t.offset
    else if o.weak then t.pos t.lowIx else t.pos [if s0 < 0 then e0 - 1 else 0]
  let at64 := (2 * (t.buf.base : Int) + first) % 128 = 0
  if o.weak then failIf (!at64 || s0 ≠ 1) eAlign t.index
  else
    let outer := ((t.extent.zip t.stride).drop 1).all fun q =>
      q.1 ≤ 1 || q.2 * (elemNibs t.fmt : Int) % 128 = 0
    failIf (!at64 || (e0 * elemNibs t.fmt) % 128 ≠ 0 || (t.count ≠ 0 && !outer)) eAlign t.index

/-- R156. -/
def Opnd.strideCheck (o : Opnd) : Except Fail Unit :=
  let t := o.t
  let s0 := t.stride.headD 0
  failIf (!(s0 = 1 || s0 = 0 || (s0 = -1 && t.fmt ≠ 5))
      || (o.wr && (t.extent.zip t.stride).any fun q => decide (1 < q.1) && q.2 = 0)) eStride t.index

/-- The checks of R160 from R30 on; `perm`, `align` and `len` are those of the command itself at their
places. -/
def State.opalChecks (s : State) (owner n : Nat) (os : List Opnd) (oob perm align len : Except Fail Unit) :
    Except Fail Unit := do
  firstFail (os.map fun o => o.t.buf.reservedCheck)
  oob
  firstFail (os.map fun o => do
    if o.rd then s.bufPerm owner n o.t.buf false
    if o.wr then s.bufPerm owner n o.t.buf true)
  perm
  firstFail (os.map fun o => o.t.startCheck)
  firstFail (os.map Opnd.alignCheck)
  align
  firstFail (os.map Opnd.strideCheck)
  len
  firstFail (os.map fun o => o.t.endCheck)

/-- R174: whether the elements of a written tensor are distinct. -/
def Tensor.distinct (t : Tensor) : Bool :=
  let ds := ((t.extent.zip t.stride).filter fun q => 1 < q.1).mergeSort fun a b => a.2.natAbs ≤ b.2.natAbs
  (ds.zip (ds.drop 1)).all fun q => q.1.2.natAbs * q.1.1 ≤ q.2.2.natAbs

/-- Whether two lists of ranges share a byte. -/
def rangesMeet (a b : List (Nat × Nat)) : Bool :=
  a.any fun x => b.any fun y => decide (x.1 < y.1 + y.2) && decide (y.1 < x.1 + x.2)

/-! ### Reading and writing elements -/

/-- What a command has written so far, byte by byte under the key of `Buf.key`: the byte, 256 for poison,
512 and 1024 for its half-bytes written, 2048 for a half-byte written twice; whether poison was read; and the bytes in
the order in which they were written, newest first, each with whether it begins an innermost run. -/
structure Mover where
  ov : SMap (Option Nat)
  bad : Bool
  log : List (Bool × Nat × Nat)

/-- A command that has written nothing yet. -/
def moverStart : Mover := ⟨[], false, []⟩

/-- A byte as the command reads it, with its poison (R179). -/
def State.moverByte (s : State) (pasid : Option Nat) (m : Mover) (key : Nat) : Nat × Bool :=
  match look none m.ov key with
  | some v => (v % 256, bitOf v 8)
  | none =>
    if 2 ^ 70 ≤ key then
      ((s.hostByte pasid (key - 2 ^ 70)).toNat, s.hostError pasid ((key - 2 ^ 70) / 64 * 64) 64)
    else ((s.byte key).toNat, s.poisoned key)

/-- The bits of an element and whether a byte of it is poisoned. -/
def State.getElem (s : State) (pasid : Option Nat) (m : Mover) (t : Tensor) (ix : List Nat) : Nat × Bool :=
  let q := t.pos ix
  let key := t.buf.key + (q / 2).toNat
  if t.fmt = 5 then
    let (b, bad) := s.moverByte pasid m key
    (if q % 2 = 0 then b % 16 else b / 16, bad)
  else
    let bs := (List.range (elemBytes t.fmt)).map fun i => s.moverByte pasid m (key + i)
    (bs.foldr (fun b n => b.1 + 256 * n) 0, bs.any (·.2))

/-- One byte written, in the half-bytes of `mask` (1 low, 2 high); `run` when a run begins with it. -/
def State.putByte (s : State) (pasid : Option Nat) (m : Mover) (run : Bool) (key b mask : Nat) (bad : Bool) : Mover :=
  let old := look none m.ov key
  let was := (s.moverByte pasid m key).1
  let b := if mask = 3 then b else if mask = 1 then was / 16 * 16 + b % 16 else b % 16 * 16 + was % 16
  let prev := old.getD 0
  let pm := bits prev 9 2
  let v := b + (if bad || bitOf prev 8 then 256 else 0) + 512 * (pm ||| mask)
    + (if pm &&& mask ≠ 0 || bitOf prev 11 then 2048 else 0)
  { m with ov := put none m.ov key (some v), log := (run, key, v) :: m.log }

/-- An element written. -/
def State.putElem (s : State) (pasid : Option Nat) (m : Mover) (t : Tensor) (ix : List Nat) (v : Nat)
    (bad : Bool) : Mover :=
  let q := t.pos ix
  let key := t.buf.key + (q / 2).toNat
  let run := decide (ix.headD 0 = 0)
  if t.fmt = 5 then s.putByte pasid m run key v (if q % 2 = 0 then 1 else 2) bad
  else (List.range (elemBytes t.fmt)).foldl (fun m i =>
    s.putByte pasid m (run && i = 0) (key + i) (v / 256 ^ i % 256) 3 bad) m

/-- The written bytes gathered by line. -/
def byLine (ov : SMap (Option Nat)) : List LineOut :=
  ov.foldr (fun e acc =>
    let b := (e.1, e.2.getD 0)
    match acc with
    | o :: rest => if o.line = e.1 / 64 then { o with bytes := b :: o.bytes } :: rest else ⟨e.1 / 64, [b], none⟩ :: acc
    | [] => [⟨e.1 / 64, [b], none⟩]) []

/-- The result at bytes written twice by an aliasing command is unspecified in default mode (R174). -/
def State.unspecify (s : State) (m : Mover) : Mover × State :=
  m.ov.foldl (fun (r : Mover × State) e =>
    match e.2 with
    | some v =>
      if bitOf v 11 then
        let (f, s) := r.2.free
        ({ r.1 with ov := put none r.1.ov e.1 (some (v / 256 * 256 + f % 256)) }, s)
      else r
    | none => r) (m, s)

/-- The bytes of a tensor in element order, FP4 pairs packed (R177), as the command leaves them. -/
def State.tensorBytes (s : State) (pasid : Option Nat) (m : Mover) (t : Tensor) : Bytes :=
  let vs := t.indices.map fun ix => (s.getElem pasid m t ix).1
  packVals (4 * elemNibs t.fmt) vs

/-- Whether an element of a tensor is poisoned. -/
def State.tensorPoison (s : State) (pasid : Option Nat) (m : Mover) (t : Tensor) : Bool :=
  t.indices.any fun ix => (s.getElem pasid m t ix).2

/-! ### Conversion (R164, R165) -/

/-- A value rounded to an integer of `w` bits and saturated. -/
def toInt (w : Nat) : Val → Nat
  | .nan => 0
  | .inf n => ofSigned w (satSigned w (if n then -(2 ^ w : Nat) else (2 ^ w : Nat)))
  | .fin n m e =>
    let k := if 0 ≤ e then m * 2 ^ e.toNat else roundShift m (-e).toNat
    ofSigned w (satSigned w (if n then -(k : Int) else k))

/-- A value written in a format. -/
def toFmt (fmt : Nat) (v : Val) : Nat :=
  match opalFloat fmt, opalInt fmt with
  | some f, _ => (f.convert v).1
  | none, some w => toInt w v
  | none, none => 0

/-- The exact value of an element. -/
def ofFmt (fmt x : Nat) : Val :=
  match opalFloat fmt, opalInt fmt with
  | some f, _ => f.decode x
  | none, some w => .ofInt (toSigned w x)
  | none, none => .nan

/-- Whether OCOPY converts between two formats (R164). -/
def convertible (a b : Nat) : Bool :=
  a = b || (a ≠ 6 && a ≠ 10 && b ≠ 6 && b ≠ 10)

/-- Whether a format takes scales (R165). -/
def scalable (fmt : Nat) : Bool := 3 ≤ fmt ∧ fmt ≤ 5

/-- e_max of R146 for an Opal format. -/
def opalEmax (fmt : Nat) : Int := if fmt = 5 then 2 else if fmt = 3 then 8 else 15

/-- Components `a` and `b` of a list exchanged. -/
def swapAt {α : Type} [Inhabited α] (a b : Nat) (l : List α) : List α :=
  (l.set a (l.getD b default)).set b (l.getD a default)

/-- The index of the scale of an element. -/
def scaleIx (ix : List Nat) : List Nat := ix.set 0 (ix.headD 0 / 32)

/-- A source element's exact value with its scale. -/
def State.srcValue (s : State) (pasid : Option Nat) (m : Mover) (src : Tensor) (sc : Option Tensor)
    (ix : List Nat) : Val × Bool :=
  let (x, bad) := s.getElem pasid m src ix
  match sc with
  | none => (ofFmt src.fmt x, bad)
  | some t =>
    let (b, bad') := s.getElem pasid m t (scaleIx ix)
    ((ofFmt src.fmt x).mul (scaleVal b), bad || bad')

/-- A block of 32 destination elements with its scale (R146, R165). -/
def State.copyBlock (s : State) (pasid : Option Nat) (m : Mover) (src dst : Tensor) (ssc : Option Tensor)
    (dsc : Tensor) (a b : Nat) (ix : List Nat) : Mover :=
  let ixs := (List.range 32).map fun i => ix.set 0 (ix.headD 0 + i)
  let vs := ixs.map fun ix => s.srcValue pasid m src ssc (swapAt a b ix)
  let f := (opalFloat dst.fmt).getD e2m1
  let (sc, es, _, _) := blockScale f (opalEmax dst.fmt) (vs.map (·.1))
  let bad := vs.any (·.2)
  let m := { m with bad := m.bad || bad }
  let m := (ixs.zip (es.zip vs)).foldl (fun m q => s.putElem pasid m dst q.1 q.2.1 q.2.2.2) m
  s.putElem pasid m dsc (scaleIx ix) sc bad

/-- One element copied (R163, R164). -/
def State.copyElem (s : State) (pasid : Option Nat) (m : Mover) (src dst : Tensor) (ssc : Option Tensor)
    (a b : Nat) (ix : List Nat) : Mover :=
  let ix' := swapAt a b ix
  let (x, bad) := if src.fmt = dst.fmt ∧ ssc.isNone then s.getElem pasid m src ix'
    else
      let (v, bad) := s.srcValue pasid m src ssc ix'
      (toFmt dst.fmt v, bad)
  s.putElem pasid { m with bad := m.bad || bad } dst ix x bad

/-! ### The start of an Opal command -/

/-- The transactions that move a tensor, as key and length (R161): the lines of each innermost run, in pieces of at
most 256 bytes, or 512 for host memory; a run of stride 0 is one element. -/
def Tensor.pieces (t : Tensor) : List (Nat × Nat) :=
  let e0 := t.extent.headD 1
  let s0 := t.stride.headD 0
  let run := ((if s0 = 0 then 1 else e0) * elemNibs t.fmt + 1) / 2
  let size := if t.buf.host then 512 else 256
  let outer := { t with extent := t.extent.set 0 (min 1 e0) }
  outer.indices.flatMap fun ix =>
    let lo := t.buf.key + (t.pos (ix.set 0 (if s0 < 0 then e0 - 1 else 0)) / 2).toNat
    (List.range ((run + size - 1) / size)).map fun i => (lo + size * i, min size (run - size * i))

/-- A byte put into a list of bytes in ascending order, in place of an earlier one at its key. -/
def insByte (k v : Nat) : List (Nat × Nat) → List (Nat × Nat)
  | [] => [(k, v)]
  | e :: l => if k < e.1 then (k, v) :: e :: l else if k = e.1 then (k, v) :: l else e :: insByte k v l

/-- Lines of one transaction: four, or eight of host memory (R161). -/
def transLines (key : Nat) : Nat := if 2 ^ 70 ≤ key then 8 else 4

/-- The next byte of a command that writes in order, put into the transaction at the front where it continues that: on
its line, or on the next line of the same run (R161). -/
def stepTrans (acc : List (List LineOut)) (e : Bool × Nat × Nat) : List (List LineOut) :=
  let k := e.2.1
  match acc with
  | (l :: ls) :: rest =>
    if !e.1 && k / 64 = l.line then ({ l with bytes := insByte k e.2.2 l.bytes } :: ls) :: rest
    else if !e.1 && (k / 64 = l.line + 1 || k / 64 + 1 = l.line) && decide (ls.length + 1 < transLines k) then
      (⟨k / 64, [(k, e.2.2)], none⟩ :: l :: ls) :: rest
    else [⟨k / 64, [(k, e.2.2)], none⟩] :: acc
  | _ => [⟨k / 64, [(k, e.2.2)], none⟩] :: acc

/-- The write transactions of a command that writes in order (R171, R174, R175). -/
def orderedTrans (log : List (Bool × Nat × Nat)) : List (List LineOut) :=
  ((log.reverse.foldl stepTrans []).map List.reverse).reverse

/-- The same for the adds of a scatter-add: in order, each as whether it begins a run, its key, its value and its
poison; `mk` is the add of a line before it has elements. -/
def stepAdds (mk : Nat → OrdAdd) (acc : List (List LineOut)) (e : Bool × Nat × Nat × Bool) : List (List LineOut) :=
  let k := e.2.1
  let elem (a : OrdAdd) : OrdAdd := { a with elems := a.elems ++ [(k % 64, e.2.2.1)], poison := a.poison || e.2.2.2 }
  match acc with
  | (l :: ls) :: rest =>
    if !e.1 && k / 64 = l.line then ({ l with add := l.add.map elem } :: ls) :: rest
    else if !e.1 && (k / 64 = l.line + 1 || k / 64 + 1 = l.line) && decide (ls.length + 1 < 4) then
      (⟨k / 64, [], some (elem (mk (k / 64)))⟩ :: l :: ls) :: rest
    else [⟨k / 64, [], some (elem (mk (k / 64)))⟩] :: acc
  | _ => [⟨k / 64, [], some (elem (mk (k / 64)))⟩] :: acc

/-- The adds gathered by line, in the order in which the lines are first met: an ordinal adds to a line once (R173). -/
def gatherAdds (es : List (Bool × Nat × Nat × Bool)) : List (Bool × Nat × Nat × Bool) :=
  (es.map fun e => e.2.1 / 64).eraseDups.flatMap fun n =>
    match es.filter fun e => e.2.1 / 64 = n with
    | e :: l => e :: l.map fun f => (false, f.2)
    | [] => []

/-- The transactions of a scatter-add (R161, R173). -/
def addTrans (mk : Nat → OrdAdd) (es : List (Bool × Nat × Nat × Bool)) : List (List LineOut) :=
  ((es.foldl (stepAdds mk) []).map List.reverse).reverse

/-- The write transactions of a command (R161): the lines that it has written, by the pieces of its written tensors,
and any other line by itself. -/
def writeTrans (pieces : List (Nat × Nat)) (ls : List LineOut) : List (List LineOut) :=
  let r := pieces.foldl (fun (r : List (List LineOut) × List LineOut) q =>
    let (mine, rest) := r.2.partition fun l => decide (q.1 / 64 ≤ l.line) && decide (l.line * 64 < q.1 + q.2)
    (if mine = [] then r.1 else r.1 ++ [mine], rest)) ([], ls)
  r.1 ++ r.2.map fun l => [l]

/-- A decoded command: its operands, any single address that it writes, whether it has nothing to write whatever its
operands are (R176), and its checks. -/
structure OpalPlan where
  os : List Opnd
  addr : Option (Nat × Nat)
  idle : Bool
  check : Except Fail Unit

/-- What a command does: the state after the free values that it takes, whether it read poison, its ND_COUNT
increments, the bytes that its digest covers, its read and write transactions, and whether an entry of an index tensor,
by the tensor's entry in the table, was out of bounds. -/
structure OpalRes where
  st : State
  bad : Bool
  nd : Nat
  dig : Bytes
  reads : List (Nat × Nat)
  outs : List (List LineOut)
  oob : Option Nat

/-- The ranges that a plan reads and writes. -/
def OpalPlan.reads (d : OpalPlan) : List (Nat × Nat) :=
  (d.os.filter (·.rd)).flatMap fun o => o.t.footprint
def OpalPlan.writes (d : OpalPlan) : List (Nat × Nat) :=
  ((d.os.filter (·.wr)).flatMap fun o => o.t.footprint) ++ (d.addr.map fun a => [a]).getD []

/-- Transactions that may be issued now: slots free of the 256, or of the 192 and 64 of a radio core
(R161); those of contexts that have ended hold theirs. -/
def State.opalRoom (s : State) (p slot : Nat) : Nat :=
  let used := ([0, 1, 2, 3].filter fun sl => decide ((sl = 0) = (slot = 0))).foldl (fun n sl => n + s.flyingOf p sl) 0
  let radio := (s.logicalOf p).any s.isRadio
  (if slot = 0 then 64 else if radio then 192 else 256) - used

/-- Whether Opal issues for a context now: its lease runs, the context is not being evicted (R46, R203), and no
tick_align hold lasts (R87). -/
def State.opalIssues (s : State) (p slot : Nat) : Bool :=
  s.engineServes p slot 2 && ((s.core p).evict.all fun v => v.slot ≠ slot)
    && (s.ctx p slot).all fun x => x.tickHold.isNone

/-- Transactions of a command issued while slots are free (R161, R174); each takes its place in the order of its Opal
(R28), and the adds of an ordered scatter-add leave for their homes (R173). -/
def State.opalIssue (s : State) (p slot seq : Nat) : State :=
  match (s.ctx p slot).bind fun x => x.cmd seq with
  | none => s
  | some c =>
    if s.opalIssues p slot then
      let room := s.opalRoom p slot
      let k := min c.toIssue (if c.serial then min (1 - c.inFlight) room else room)
      let c' := { c with toIssue := c.toIssue - k, inFlight := c.inFlight + k }
      let new := c'.issued.drop c.issued.length
      let n := (s.core p).opalSeq
      let at' := (List.range new.length).map (n + ·)
      let s := s.setCore p { s.core p with opalSeq := n + new.length }
      let left : List OrdAdd := (new.zip at').flatMap fun (t : List LineOut × Nat) =>
        (t.1.filterMap LineOut.ordered).map fun (a : OrdAdd) => { a with core := p, slot := slot, stamp := t.2 }
      let s := { s with adds := s.adds ++ left }
      s.onCmd p slot seq fun c =>
        { c with toIssue := c.toIssue - k, inFlight := c.inFlight + k, stamps := c.stamps ++ at' }
    else s

/-- The write transactions in flight of a core's Opal with their places in its order of issue: those of the contexts in
the given slots, and those of contexts that have ended. -/
def State.flights (s : State) (p : Nat) (slots : List Nat) : List (Nat × List LineOut) :=
  (s.core p).loose.map (fun f => (f.stamp, f.lines)) ++ slots.flatMap fun sl =>
    match s.ctx p sl with
    | some x => (x.queueOf 2).flatMap fun c => c.stamps.zip c.issued
    | none => []

/-- R28: no write transaction of the same Opal issued before the given place is still on its way to one of the lines. -/
def State.inOrder (s : State) (p stamp : Nat) (lines : List Nat) : Bool :=
  (s.flights p [0, 1, 2, 3]).all fun f => decide (stamp ≤ f.1) || !f.2.any fun l => lines.contains l.line

/-- R28: what a command reads is read after the writes of other contexts that the same Opal has issued before. -/
def State.readsClear (s : State) (p slot : Nat) (rs : List (Nat × Nat)) : Bool :=
  (s.flights p ([0, 1, 2, 3].filter (· ≠ slot))).all fun f =>
    f.2.all fun l => rs.all fun r => decide (r.1 + r.2 ≤ l.line * 64) || decide (l.line * 64 + 64 ≤ r.1)

/-- Whether a command must wait for earlier ones of its queue (R162). -/
def Ctx.opalConflict (x : Ctx) (seq : Nat) (rd wr : List (Nat × Nat)) : Bool :=
  x.queue.any fun c => c.engine = 2 && decide (c.seq < seq)
    && (rangesMeet wr (c.reads ++ c.writes) || rangesMeet c.writes rd)

/-- A command whose transactions and ordered adds have all ended is done, or fails where its index was out of bounds
(R169). -/
def State.opalEnd (s : State) (p slot seq : Nat) : State :=
  let mine (a : OrdAdd) : Bool := a.core = p ∧ a.slot = slot ∧ a.seq = seq
  match (s.ctx p slot).bind fun x => x.cmd seq with
  | none => s
  | some c =>
    if c.phase ≠ .started ∨ c.toIssue ≠ 0 ∨ c.inFlight ≠ 0 ∨ s.adds.any mine ∨ s.refused.any mine
        ∨ s.ordered.any (fun l => l.waiting.any mine) then s
    else match c.fault with
      | some f => s.failCmd p slot c f
      | none => s.worked p slot seq false

/-- A command starts: its transactions are issued as slots are free, its reads before its writes; the poisoned vault
lines that it reads are counted (R186). -/
def State.opalBegin (s : State) (p slot seq : Nat) (d : OpalPlan) (serial : Bool) (r : OpalRes) : State :=
  let s := r.reads.foldl (fun s q => if q.1 < 2 ^ 70 then s.readPoison q.1 q.2 else s) s
  ((s.onCmd p slot seq fun c =>
    { c with phase := .started, reads := d.reads, writes := d.writes, toIssue := r.reads.length + r.outs.length,
             readsLeft := r.reads.length, todo := r.outs, stamps := [], serial := serial,
             err := if r.bad then ePoison else c.err, fault := r.oob.map fun i => (eOob, i)
             digests := if c.digest then
                 [{ crc := crc64 r.dig, bytes := r.dig.length, poison := r.bad }] else [] }).opalIssue p slot seq).opalEnd
    p slot seq

/-- What the host reads of a command wait for (R349, R368): their function, for which they are held since a
cycle, or pages to translate. -/
inductive HostWait where
  | ready (dead : Bool)
  | held
  | pages (pgs : List Nat)

/-- The host reads among the ranges that a plan reads: held past the wait limit they end as a host error. -/
def State.hostWait (s : State) (owner : Nat) (c : QCmd) (reads : List (Nat × Nat)) : HostWait :=
  let host := reads.filter fun r => decide (2 ^ 70 ≤ r.1)
  if host = [] then .ready false
  else if s.canIssue (fnOf owner) then
    let pgs := (host.flatMap fun r => s.untranslated owner (s.pasidOf owner) (r.1 - 2 ^ 70) r.2).eraseDups
    if pgs = [] then .ready false else .pages pgs
  else if s.heldOut owner c.hostSince then .ready true
  else .held

/-- The state in which every host read ends as a host error. -/
def State.hostDown (s : State) : State := { s with host := { s.host with fail := [(0, 2 ^ 128)] } }

/-- The logical cores whose memories a plan names. -/
def OpalPlan.cores (d : OpalPlan) : List Nat :=
  ((d.reads ++ d.writes).filter fun r => r.1 < 2 ^ 70).flatMap fun r => coresAt r.1 r.2

/-- Whether requests to the memories that a plan reads are held (R22, R189). -/
def OpalPlan.waits (d : OpalPlan) (s : State) : Bool :=
  d.cores.any s.logicalDown || (d.reads.filter fun r => r.1 < 2 ^ 70).any fun r => s.rangeHeld r.1 r.2

/-- Whether a written tensor of a plan has no footprint (R158), or the command has nothing to write (R176): it is a
no-op. -/
def OpalPlan.noop (d : OpalPlan) : Bool := d.idle || d.os.any fun o => o.wr && o.t.count = 0

/-- Whether source and destination of a plan overlap (R175); index and scale tensors are neither. -/
def OpalPlan.overlap (d : OpalPlan) : Bool :=
  d.os.any fun o => o.wr && !o.weak && d.os.any fun q => q.rd && !q.wr && !q.weak && rangesMeet o.t.footprint q.t.footprint

/-- Whether a written tensor of a plan is treated as aliasing (R174). -/
def OpalPlan.twice (d : OpalPlan) : Bool := d.os.any fun o => o.wr && !o.t.distinct

/-- The granules that a plan claims: those of its buffers, and of a cluster memory that an ODIGEST names (R194,
R198). -/
def OpalPlan.claims (d : OpalPlan) (n : Nat) : List Nat × List Nat :=
  let r := claimSets n (d.os.map fun o => o.t.buf)
  (r.1, r.2 ++ (d.addr.map fun a => clmNamed a.1 a.2).getD [])

/-- The checks of a decoded plan: those of its decode, made once; a core that has been unmapped since fails it
(R23, R150, R200). -/
def State.planCheck (s : State) (c : QCmd) (d : OpalPlan) : Except Fail Unit :=
  if c.plan.isNone then d.check else failIf (d.cores.any fun m => (s.physOf m).isNone) ePerm 0

/-- The start of an Opal command: decode, whose failure, a reserved header bit's too (R160), waits for the commands
before it (R162); the entries read are kept (R150); a command that conflicts with an earlier one, names a core whose
spare is awaited, or reads what another context's writes have not reached yet waits (R22, R28, R162); claims (R194,
R198); a no-op (R158, R176) ends; any other takes `act`, and its transactions. -/
def State.opal (s : State) (p slot op : Nat) (plan : Nat → Ctx → QCmd → CList → Except Fail OpalPlan)
    (act : Nat → Ctx → QCmd → OpalPlan → State → OpalRes) : State :=
  match s.startOp p slot 2 op, s.logicalOf p with
  | some (x, c), some n =>
    match x.listOf c with
    | none => s
    | some l =>
      if c.fault.isSome then s.settle
      else match (do failIf (c.reserved ≠ 0) eOpcode 0; let d ← plan n x c l; s.planCheck c d; pure d) with
      | .error f => (s.onCmd p slot c.seq fun c => { c with fault := some f }).settle
      | .ok d =>
        let (own, clm) := d.claims n
        let s := s.onCmd p slot c.seq fun c => { c with plan := some ⟨[], d.os.map (·.t)⟩ }
        if x.opalConflict c.seq d.reads d.writes || d.waits s || !s.readsClear p slot d.reads then s
        else if slot ≠ 0 ∧ !s.claimable p slot x.owner own clm then s.holdClaim p slot c.seq own clm
        else if d.noop then
          let s := if slot ≠ 0 then s.claimAll p slot x.owner own clm else s
          let s := s.onCmd p slot c.seq fun c => { c with claim := false }
          (s.opalBegin p slot c.seq d false ⟨s, false, 0, [], [], [], none⟩).settle
        else match s.hostWait x.owner c d.reads with
        | .held => s.onCmd p slot c.seq fun c => { c with hostSince := some (c.hostSince.getD s.time.clk) }
        | .pages pgs => (s.onCmd p slot c.seq fun c => { c with pages := pgs }).askTranslation x.owner pgs
        | .ready dead =>
          let s := if slot ≠ 0 then s.claimAll p slot x.owner own clm else s
          let s := s.onCmd p slot c.seq fun c => { c with claim := false, pages := [] }
          let serial := d.overlap || (d.twice && s.steady x.owner)
          let s := if serial then s.count F.OPAL_EVENTS_serial_runs p 1 else s
          let r := act n x c d (if dead then s.hostDown else s)
          let r := { r with st := { r.st with host := { r.st.host with fail := s.host.fail } } }
          let nd := r.nd + (if d.twice && !d.overlap && !s.steady x.owner then 1 else 0)
          let s := if nd = 0 then r.st else r.st.addNd p slot x.owner nd
          let s := if r.oob.isSome then s.count F.OPAL_EVENTS_index_oob p 1 else s
          (s.opalBegin p slot c.seq d serial r).settle
  | _, _ => s

/-- The reads of a plan's operands that are only read. -/
def OpalPlan.readPieces (d : OpalPlan) : List (Nat × Nat) := (d.os.filter fun o => o.rd && !o.wr).flatMap fun o => o.t.pieces

/-- The bytes of a line that were written twice, as they end. -/
def LineOut.patch (ov : SMap (Option Nat)) (l : LineOut) : LineOut :=
  { l with bytes := l.bytes.map fun e => match look none ov e.1 with
      | some v => if bitOf v 11 then (e.1, v) else e
      | none => e }

/-- What a command has moved: unspecified bytes where it aliases in default mode (R174), then its write transactions: in
the order in which it writes where that is laid down (`inOrder`: R171, R174, R175), else by the pieces of its written
tensors. -/
def State.moved (s : State) (owner : Nat) (d : OpalPlan) (m : Mover) (nd : Nat) (reads : List (Nat × Nat))
    (dig : State → Mover → Bytes) (inOrder : Bool) (oob : Option Nat) : OpalRes :=
  let loose := d.twice && !d.overlap && !s.steady owner
  let serial := d.overlap || (d.twice && s.steady owner)
  let (m, s) := if loose then s.unspecify m else (m, s)
  { st := s, bad := m.bad, nd := nd, dig := dig s m, reads := reads,
    outs := if inOrder || serial then
        (if loose then (orderedTrans m.log).map fun t => t.map (LineOut.patch m.ov) else orderedTrans m.log)
      else writeTrans ((d.os.filter (·.wr)).flatMap fun o => o.t.pieces) (byLine m.ov),
    oob := oob }

/-- A command whose operands are not those of its opcode moves nothing. -/
def State.movedNone (s : State) (owner : Nat) (d : OpalPlan) : OpalRes :=
  s.moved owner d moverStart 0 [] (fun _ _ => []) false none

/-- A tensor operand of a command. -/
def State.tensorAt (s : State) (c : QCmd) (l : CList) (i : Nat) : Except Fail Tensor :=
  s.planTensor c l.bufBase l.bufCount i

/-- A scale operand: absent where the field is 0xFFF. -/
def State.scaleAt (s : State) (c : QCmd) (l : CList) (i : Nat) : Except Fail (Option Tensor) :=
  if i = 0xFFF then .ok none else (s.tensorAt c l i).map some

/-- Whether a scale tensor is E8M0. -/
def badScale (t : Option Tensor) : Bool := t.any fun t => t.fmt ≠ 6

/-- Whether a scale tensor has the dimensions of its main tensor with extent 0 divided by 32 (R165). -/
def scaleExtBad (t : Tensor) (sc : Option Tensor) : Bool :=
  sc.any fun q => t.extent.headD 1 % 32 ≠ 0 || q.extent ≠ t.extent.set 0 (t.extent.headD 1 / 32)

/-! ### OCOPY, OFILL, ODIGEST -/

/-- The plan of an OCOPY.  An FP4 tensor with dimension 0 swapped is copied element by element as R163 says, although
R167 gives such a transposition to INT16 units only (DESIGN CHOICE, log entry 158). -/
def State.copyPlan (s : State) (n : Nat) (x : Ctx) (c : QCmd) (l : CList) : Except Fail OpalPlan := do
  failIf (c.pay 54 74 ≠ 0) eOpcode 0
  let src ← s.tensorAt c l (c.pay 0 12)
  let dst ← s.tensorAt c l (c.pay 12 12)
  let ssc ← s.scaleAt c l (c.pay 30 12)
  let dsc ← s.scaleAt c l (c.pay 42 12)
  let a := c.pay 24 3
  let b := c.pay 27 3
  failIf (decide (dst.ndim ≤ a) || decide (dst.ndim ≤ b) || decide (src.ndim ≤ a) || decide (src.ndim ≤ b))
    eOpcode 0
  let os := [Opnd.mk src true false false, Opnd.mk dst false true false]
    ++ (ssc.map fun t => [Opnd.mk t true false true]).getD []
    ++ (dsc.map fun t => [Opnd.mk t false true true]).getD []
  return { os := os, addr := none, idle := false, check := do
    failIf (decide (10 < src.fmt) || decide (10 < dst.fmt) || !convertible src.fmt dst.fmt || badScale ssc
      || badScale dsc || (ssc.isSome && !scalable src.fmt) || (dsc.isSome && !scalable dst.fmt)) eFmt 0
    s.opalChecks x.owner n os (.ok ()) (.ok ()) (.ok ())
      (failIf (dst.extent ≠ swapAt a b src.extent || scaleExtBad src ssc || scaleExtBad dst dsc) eLen dst.index) }

/-- OCOPY (R163 to R167). -/
def execOcopy (p slot : Nat) (s : State) : Host.Outcome State Fault Refusal :=
  done (s.opal p slot 1 s.copyPlan fun _ x c d s =>
    let pasid := s.pasidOf x.owner
    let a := c.pay 24 3
    let b := c.pay 27 3
    match d.os.map (·.t) with
    | src :: dst :: rest =>
      let ssc := if c.pay 30 12 = 0xFFF then none else rest.head?
      let dsc := if c.pay 42 12 = 0xFFF then none else rest.getLast?
      let m := match dsc with
        | none => dst.indices.foldl (fun m ix => s.copyElem pasid m src dst ssc a b ix) moverStart
        | some sc => (dst.indices.filter fun ix => ix.headD 0 % 32 = 0).foldl
            (fun m ix => s.copyBlock pasid m src dst ssc sc a b ix) moverStart
      s.moved x.owner d m 0 d.readPieces (fun s m => s.tensorBytes pasid m dst) false none
    | _ => s.movedNone x.owner d)

/-- The plan of an OFILL. -/
def State.fillPlan (s : State) (n : Nat) (x : Ctx) (c : QCmd) (l : CList) : Except Fail OpalPlan := do
  failIf (c.pay 12 20 ≠ 0 || c.pay 64 64 ≠ 0) eOpcode 0
  let dst ← s.tensorAt c l (c.pay 0 12)
  let os := [Opnd.mk dst false true false]
  return { os := os, addr := none, idle := false, check := do
    failIf (decide (10 < dst.fmt)) eFmt 0
    s.opalChecks x.owner n os (.ok ()) (.ok ()) (.ok ()) (.ok ()) }

/-- OFILL (R163). -/
def execOfill (p slot : Nat) (s : State) : Host.Outcome State Fault Refusal :=
  done (s.opal p slot 5 s.fillPlan fun _ x c d s =>
    let pasid := s.pasidOf x.owner
    match d.os.map (·.t) with
    | dst :: _ =>
      let m := dst.indices.foldl (fun m ix =>
        s.putElem pasid m dst ix (c.pay 32 32 % 2 ^ (4 * elemNibs dst.fmt)) false) moverStart
      s.moved x.owner d m 0 d.readPieces (fun s m => s.tensorBytes pasid m dst) false none
    | [] => s.movedNone x.owner d)

/-- The plan of an ODIGEST. -/
def State.digestPlan (s : State) (n : Nat) (x : Ctx) (c : QCmd) (l : CList) : Except Fail OpalPlan := do
  failIf (c.pay 56 72 ≠ 0) eOpcode 0
  let src ← s.tensorAt c l (c.pay 0 12)
  let os := [Opnd.mk src true false false]
  let a := c.pay 12 44
  return { os := os, addr := some (a, 8), idle := false, check := do
    failIf (decide (10 < src.fmt)) eFmt 0
    s.opalChecks x.owner n os (failIf (touchesReserved a 8) eOob 0) (failIf (!s.mayName x.owner n a 8 true) ePerm 0)
      (failIf (a % 8 ≠ 0) eAlign 0) (.ok ()) }

/-- ODIGEST (R177, R178). -/
def execOdigest (p slot : Nat) (s : State) : Host.Outcome State Fault Refusal :=
  done (s.opal p slot 8 s.digestPlan fun _ x c d s =>
    let pasid := s.pasidOf x.owner
    match d.os.map (·.t) with
    | src :: _ =>
      let bad := s.tensorPoison pasid moverStart src
      let out := leBytes 8 (crc64 (s.tensorBytes pasid moverStart src))
      let m := out.zipIdx.foldl (fun m q => s.putByte pasid m false (c.pay 12 44 + q.2) q.1.toNat 3 bad)
        { moverStart with bad := bad }
      s.moved x.owner d m 0 d.readPieces (fun _ _ => out) false none
    | [] => s.movedNone x.owner d)

/-! ### Gather and scatter (R168 to R172) -/

/-- An index entry: its value and whether its line is poisoned. -/
def State.indexEntries (s : State) (pasid : Option Nat) (idx : Tensor) : List (Int × Bool) :=
  (List.range (idx.extent.headD 0)).map fun j =>
    let (v, bad) := s.getElem pasid moverStart idx [j, 0, 0, 0, 0]
    (toSigned 32 v, bad)

/-- Whether an entry is out of bounds of an extent (R168); a poisoned one is not judged (R179). -/
def entryOob (ext : Nat) (e : Int × Bool) : Bool := !e.2 && (decide (e.1 < 0) || decide ((ext : Int) ≤ e.1))

/-- A permutation of a list chosen by a number. -/
def permute {α : Type} : Nat → Nat → List α → List α
  | 0, _, l => l
  | fuel + 1, f, l =>
    match l with
    | [] => []
    | _ :: _ =>
      let i := f % l.length
      match l[i]? with
      | some x => x :: permute fuel (f / l.length) (l.eraseIdx i)
      | none => l

/-- The order in which the first `n` entries are issued (R171): index order, or each window of 64 in an
order that the manual leaves open. -/
def State.issueOrder (s : State) (steady : Bool) (n : Nat) : List Nat × State :=
  if steady then (List.range n, s)
  else
    (List.range ((n + 63) / 64)).foldl (fun (r : List Nat × State) w =>
      let (f, s) := r.2.free
      let es := (List.range (min 64 (n - 64 * w))).map fun i => 64 * w + i
      (r.1 ++ permute 64 f es, s)) ([], s)

/-- Entries that duplicate an earlier entry of the same window (R171). -/
def duplicates (es : List (Int × Bool)) : Nat :=
  (es.zipIdx.filter fun q => !q.1.2 && (es.zipIdx.any fun r =>
    r.2 / 64 = q.2 / 64 && decide (r.2 < q.2) && !r.1.2 && r.1.1 = q.1.1)).length

/-- The indices of a tensor whose component `d` is `j`, in element order. -/
def Tensor.slice (t : Tensor) (d j : Nat) : List (List Nat) := t.indices.filter fun ix => ix.getD d 0 = j

/-- The plan of a gather or scatter. -/
def State.indexPlan (s : State) (gather : Bool) (n : Nat) (x : Ctx) (c : QCmd) (l : CList) : Except Fail OpalPlan := do
  failIf (c.pay 39 89 ≠ 0) eOpcode 0
  let src ← s.tensorAt c l (c.pay 0 12)
  let dst ← s.tensorAt c l (c.pay 12 12)
  let idx ← s.tensorAt c l (c.pay 24 12)
  let dim := c.pay 36 3
  failIf (decide (src.ndim ≤ dim) || decide (dst.ndim ≤ dim) || (!gather && dim = 0)) eOpcode 0
  let os := [Opnd.mk src true false false, Opnd.mk dst false true false, Opnd.mk idx true false true]
  let along := if gather then dst else src
  return { os := os, addr := none, idle := false, check := do
    failIf (decide (10 < src.fmt) || src.fmt ≠ dst.fmt || idx.fmt ≠ 9) eFmt 0
    s.opalChecks x.owner n os (.ok ()) (.ok ()) (.ok ()) (do
      failIf (src.extent.set dim 0 ≠ dst.extent.set dim 0) eLen dst.index
      failIf (idx.extent ≠ [along.extent.getD dim 1, 1, 1, 1, 1]) eLen idx.index) }

/-- The source reads of a gather (R161, R170): with dim 0 the line of each element, once in each window of 64 entries
of a run (the window is the model's measure of what is in flight: DESIGN CHOICE, log entry 50), else the slices of the
entries; `es` holds the entries moved, by position. -/
def gatherReads (src dst : Tensor) (dim : Nat) (es : List (Nat × Nat)) : List (Nat × Nat) :=
  if dim = 0 then
    let outer := { dst with extent := dst.extent.set 0 (min 1 (dst.extent.headD 1)) }
    outer.indices.flatMap fun ix =>
      let ls := es.map fun e => (e.1 / 64, (src.buf.key + (src.pos (ix.set 0 e.2) / 2).toNat) / 64)
      ls.eraseDups.map fun l => (l.2 * 64, 64)
  else es.flatMap fun e => ({ src with extent := src.extent.set dim 1,
                                       offset := (src.pos ([0, 0, 0, 0, 0].set dim e.2) / 2).toNat } : Tensor).pieces

/-- The first entry that is out of bounds, or the number of entries. -/
def firstOob (ext : Nat) (es : List (Int × Bool)) : Nat := (es.findIdx? (entryOob ext)).getD es.length

/-- The entries before `n` that are not poisoned, as position and value. -/
def entriesMoved (es : List (Int × Bool)) (n : Nat) : List (Nat × Nat) :=
  ((es.take n).zipIdx.filter fun q => !q.1.2).map fun q => (q.2, q.1.1.toNat)

/-- OGATHER (R168 to R170, R179). -/
def execOgather (p slot : Nat) (s : State) : Host.Outcome State Fault Refusal :=
  done (s.opal p slot 2 (s.indexPlan true) fun _ x c d s =>
    let pasid := s.pasidOf x.owner
    let dim := c.pay 36 3
    match d.os.map (·.t) with
    | [src, dst, idx] =>
      let es := s.indexEntries pasid idx
      let n := firstOob (src.extent.getD dim 1) es
      let (junk, s) := if es.any (·.2) then s.free else (0, s)
      let one (m : Mover) (ix : List Nat) : Mover :=
        let e := es.getD (ix.getD dim 0) (0, false)
        if e.2 then s.putElem pasid { m with bad := true } dst ix (junk % 2 ^ (4 * elemNibs dst.fmt)) true
        else
          let (v, bad) := s.getElem pasid m src (ix.set dim e.1.toNat)
          s.putElem pasid { m with bad := m.bad || bad } dst ix v bad
      let m := (dst.indices.filter fun ix => ix.getD dim 0 < n).foldl one moverStart
      s.moved x.owner d m 0 (idx.pieces ++ gatherReads src dst dim (entriesMoved es n))
        (fun s m => s.tensorBytes pasid m dst) false (if n < es.length then some idx.index else none)
    | _ => s.movedNone x.owner d)

/-- The elements of the source of a scatter in the order of issue: element order when it runs serially
(R174, R175), else entry by entry. -/
def scatterOrder (src : Tensor) (dim n : Nat) (serial : Bool) (order : List Nat) : List (List Nat) :=
  if serial then src.indices.filter fun ix => ix.getD dim 0 < n else order.flatMap (src.slice dim)

/-- The source reads of a scatter: the slices of its entries. -/
def scatterReads (src : Tensor) (dim : Nat) (es : List (Nat × Nat)) : List (Nat × Nat) :=
  es.flatMap fun e => ({ src with extent := src.extent.set dim 1,
                                  offset := (src.pos ([0, 0, 0, 0, 0].set dim e.1) / 2).toNat } : Tensor).pieces

/-- OSCATTER (R168, R169, R171, R174, R175, R178, R179).  Its digest covers the elements as they were read. -/
def execOscatter (p slot : Nat) (s : State) : Host.Outcome State Fault Refusal :=
  done (s.opal p slot 3 (s.indexPlan false) fun _ x c d s =>
    let pasid := s.pasidOf x.owner
    let dim := c.pay 36 3
    match d.os.map (·.t) with
    | [src, dst, idx] =>
      let es := s.indexEntries pasid idx
      let n := firstOob (dst.extent.getD dim 1) es
      let steady := s.steady x.owner
      let (order, s) := s.issueOrder steady n
      let one (r : Mover × List (List Nat × Nat)) (ix : List Nat) : Mover × List (List Nat × Nat) :=
        let e := es.getD (ix.getD dim 0) (0, false)
        if e.2 then ({ r.1 with bad := true }, r.2)
        else
          let (v, bad) := s.getElem pasid r.1 src ix
          (s.putElem pasid { r.1 with bad := r.1.bad || bad } dst (ix.set dim e.1.toNat) v bad, (ix, v) :: r.2)
      let (m, vs) := (scatterOrder src dim n (d.overlap || (d.twice && steady)) order).foldl one (moverStart, [])
      let nd := if steady || d.overlap then 0 else duplicates (es.take n)
      let moved := entriesMoved es n
      s.moved x.owner d m nd (idx.pieces ++ scatterReads src dim moved)
        (fun _ _ => packVals (4 * elemNibs src.fmt) (moved.flatMap fun e => (src.slice dim e.1).map fun ix =>
          ((vs.find? fun q => q.1 = ix).map (·.2)).getD 0)) true
        (if n < es.length then some idx.index else none)
    | _ => s.movedNone x.owner d)

/-! ### Scatter-add (R172, R173) -/

/-- The sum of two elements (R172). -/
def addElem (fmt a b : Nat) : Nat :=
  match opalFloat fmt with
  | some f => f.arith (Val.sum [f.decode a, f.decode b])
  | none => (a + b) % 2 ^ 32

/-- The plan of an OSCATTER_ADD. -/
def State.addPlan (s : State) (n : Nat) (x : Ctx) (c : QCmd) (l : CList) : Except Fail OpalPlan := do
  failIf (c.pay 47 81 ≠ 0) eOpcode 0
  let src ← s.tensorAt c l (c.pay 0 12)
  let dst ← s.tensorAt c l (c.pay 12 12)
  let idx ← s.scaleAt c l (c.pay 24 12)
  let dim := c.pay 36 3
  failIf (idx.isSome && (decide (src.ndim ≤ dim) || decide (dst.ndim ≤ dim) || dim = 0)) eOpcode 0
  failIf (decide (c.pay 39 4 < c.pay 43 4) || (c.pay 39 4 ≠ 0 && (idx.isSome || dst.buf.host))) eOpcode 0
  let os := [Opnd.mk src true false false, Opnd.mk dst true true false]
    ++ (idx.map fun t => [Opnd.mk t true false true]).getD []
  return { os := os, addr := none, idle := false, check := do
    failIf (!(src.fmt = 0 || src.fmt = 1 || src.fmt = 9) || src.fmt ≠ dst.fmt
      || idx.any fun t => t.fmt ≠ 9) eFmt 0
    s.opalChecks x.owner n os (.ok ()) (.ok ()) (.ok ()) (match idx with
      | none => failIf (src.extent ≠ dst.extent) eLen dst.index
      | some t => do
        failIf (src.extent.set dim 0 ≠ dst.extent.set dim 0) eLen dst.index
        failIf (t.extent ≠ [src.extent.getD dim 1, 1, 1, 1, 1]) eLen t.index) }

/-- One element added (R172, R179). -/
def State.addOne (s : State) (pasid : Option Nat) (m : Mover) (src dst : Tensor) (ix ix' : List Nat) : Mover :=
  let (v, bad) := s.getElem pasid m src ix
  let (w, bad') := s.getElem pasid m dst ix'
  s.putElem pasid { m with bad := m.bad || bad || bad' } dst ix' (addElem dst.fmt w v) (bad || bad')

/-- What a scatter-add has done so far: its mover, which holds the sums as the command itself sees them, its adds newest
first, and the source elements read, newest first. -/
structure Adder where
  m : Mover
  adds : List (Bool × Nat × Nat × Bool)
  seen : List (List Nat × Nat)

/-- One element of a scatter-add: read, as the command's own earlier adds leave it where source and destination overlap
(R175), and added.  On the package the home makes the sum when the add reaches it; into host memory the core itself does
(R173), so that poison of the destination is then the command's own reading. -/
def State.addStep (s : State) (pasid : Option Nat) (src dst : Tensor) (r : Adder) (q : List Nat × List Nat) : Adder :=
  let (v, bad) := s.getElem pasid r.m src q.1
  let m := s.addOne pasid r.m src dst q.1 q.2
  let key := dst.buf.key + (dst.pos q.2 / 2).toNat
  { m := if dst.buf.host then m else { m with bad := r.m.bad || bad }
    adds := (decide (q.2.headD 0 = 0), key, v, bad) :: r.adds
    seen := (q.1, v) :: r.seen }

/-- The values that a scatter-add adds, in element order of its source (R178): as it read them, or, of an element that
it did not add, as it stands. -/
def State.addedBytes (s : State) (pasid : Option Nat) (src : Tensor) (seen : List (List Nat × Nat)) : Bytes :=
  packVals (4 * elemNibs src.fmt) (src.indices.map fun ix => match seen.find? fun q => q.1 = ix with
    | some q => q.2
    | none => (s.getElem pasid moverStart src ix).1)

/-- What a scatter-add leaves: adds that travel to the homes of their lines, those of a steady one with an ordinal one
for each line (R173), or, into host memory, the sums.  Bytes that an aliasing one shares in default mode end unspecified
(R174). -/
def State.addRes (s : State) (owner : Nat) (c : QCmd) (d : OpalPlan) (src dst : Tensor) (r : Adder) (nd : Nat)
    (reads : List (Nat × Nat)) (oob : Option Nat) : OpalRes :=
  let pasid := s.pasidOf owner
  let dig := s.addedBytes pasid src r.seen
  if dst.buf.host then s.moved owner d r.m nd (reads ++ dst.pieces) (fun _ _ => dig) true oob
  else
    let ord := decide (s.steady owner) && c.pay 39 4 ≠ 0
    let mk (line : Nat) : OrdAdd :=
      { line := line, ordinal := if ord then c.pay 43 4 else 0, contribs := if ord then c.pay 39 4 + 1 else 1,
        fmt := dst.fmt, elems := [], poison := false, owner := owner, core := 0, slot := 0, seq := c.seq, stamp := 0 }
    let es := r.adds.reverse
    let (m, s') := if d.twice && !d.overlap && !s.steady owner then s.unspecify r.m else ({ r.m with ov := [] }, s)
    { st := s', bad := r.m.bad, nd := nd, dig := dig, reads := reads,
      outs := addTrans mk (if ord then gatherAdds es else es)
        ++ (byLine (m.ov.filter fun e => bitOf (e.2.getD 0) 11)).map fun l => [l],
      oob := oob }

/-- OSCATTER_ADD (R172, R173, R174, R175). -/
def execOscatterAdd (p slot : Nat) (s : State) : Host.Outcome State Fault Refusal :=
  done (s.opal p slot 4 s.addPlan fun _ x c d s =>
    let pasid := s.pasidOf x.owner
    let dim := c.pay 36 3
    let steady := s.steady x.owner
    match d.os.map (·.t) with
    | src :: dst :: rest =>
      let float := dst.fmt ≠ 9
      let start : Adder := ⟨moverStart, [], []⟩
      match rest with
      | [] =>
        let r := src.indices.foldl (fun r ix => s.addStep pasid src dst r (ix, ix)) start
        s.addRes x.owner c d src dst r (if float ∧ !steady ∧ !d.overlap ∧ c.pay 39 4 ≠ 0 then 1 else 0) d.readPieces none
      | idx :: _ =>
        let es := s.indexEntries pasid idx
        let n := firstOob (dst.extent.getD dim 1) es
        let (order, s) := s.issueOrder steady n
        let one (r : Adder) (ix : List Nat) : Adder :=
          let e := es.getD (ix.getD dim 0) (0, false)
          if e.2 then { r with m := { r.m with bad := true } } else s.addStep pasid src dst r (ix, ix.set dim e.1.toNat)
        let r := (scatterOrder src dim n (d.overlap || (d.twice && steady)) order).foldl one start
        s.addRes x.owner c d src dst r (if float ∧ !steady ∧ !d.overlap then duplicates (es.take n) else 0)
          (idx.pieces ++ scatterReads src dim (entriesMoved es n)) (if n < es.length then some idx.index else none)
    | _ => s.movedNone x.owner d)

/-- The home of a line: a core's table by physical number, or a cluster hub's as 1,000 + cluster. -/
def State.homeOf (s : State) (line : Nat) : Nat :=
  match locate (line * 64) with
  | .vault n _ => (s.physOf n).getD 999
  | .spm n _ => (s.physOf n).getD 999
  | .clm k _ => 1000 + k
  | .reserved => 999

/-- Lines of a home's table in use: those with adds that wait. -/
def State.orderedWait (s : State) (home : Nat) : Nat :=
  (s.ordered.filter fun l => l.waiting ≠ [] ∧ s.homeOf l.line = home).length

/-- The command of an add is flagged ERR_POISON. -/
def State.flagAdd (s : State) (a : OrdAdd) : State :=
  s.onCmd a.core a.slot a.seq fun c => { c with err := if c.err = 0 then ePoison else c.err }

/-- An add applied to its line (R172, R173, R179); the command is flagged when it read or brought poison. -/
def State.applyAdd (s : State) (a : OrdAdd) : State :=
  let w := elemBytes a.fmt
  let was := s.poisoned (a.line * 64)
  let s := a.elems.foldl (fun s e =>
    let k := a.line * 64 + e.1
    s.setBytes k (leBytes w (addElem a.fmt (leNat (s.bytesAt k w)) e.2))) s
  if a.poison ∨ was then
    ((s.setPoison (a.line * 64) true).count F.OPAL_EVENTS_poison_lines a.core 1).flagAdd a
  else s

/-- Bytes at consecutive keys joined. -/
def joinRuns (es : List (Nat × Nat)) : List (Nat × Bytes) :=
  es.foldr (fun e acc =>
    let b : Byte := BitVec.ofNat 8 e.2
    match acc with
    | (k, bs) :: rest => if k = e.1 + 1 then (e.1, b :: bs) :: rest else (e.1, [b]) :: acc
    | [] => [(e.1, [b])]) []

/-- One line of a write lands: an add is made at the line as it stands then (R172, R173), but for one that travels by
itself; a line that holds a poisoned byte takes the tag; a line written whole without it loses the tag (R186); a host
line goes out as requests (R384), on behalf of the command unless its context has ended. -/
def State.landLine (s : State) (p slot seq owner : Nat) (l : LineOut) : State :=
  let s := match l.add, l.ordered with
    | some a, none => s.applyAdd { a with core := p, slot := slot }
    | _, _ => s
  let bad := l.bytes.any fun e => bitOf e.2 8
  let s := if bad then s.count F.OPAL_EVENTS_poison_lines p 1 else s
  if 2 ^ 70 ≤ l.line * 64 then
    (joinRuns l.bytes).foldl (fun s r =>
      s.request owner (.write (s.pasidOf owner) (r.1 - 2 ^ 70) r.2 bad) (if slot = 7 then none else some (p, slot, seq))) s
  else
    let s := l.bytes.foldl (fun s e => s.setByte e.1 (BitVec.ofNat 8 e.2)) s
    if bad then s.setPoison (l.line * 64) true
    else if l.bytes.length = 64 then s.setPoison (l.line * 64) false
    else s

/-- A write transaction lands. -/
def State.land (s : State) (p slot seq owner : Nat) (ls : List LineOut) : State :=
  ls.foldl (fun s l => s.landLine p slot seq owner l) s

/-- A line's waiting adds applied while their turn has come; a line whose every contributor has added
leaves the table. -/
def State.advanceLine (s : State) (line : Nat) : Nat → State
  | 0 => s
  | fuel + 1 =>
    match s.ordered.find? fun l => l.line = line with
    | none => s
    | some l =>
      match l.waiting.find? fun a => a.ordinal = l.turn with
      | none => s
      | some a =>
        let l' := { l with turn := l.turn + 1, waiting := l.waiting.erase a, since := s.time.clk }
        let t := s.ordered.map fun q => if q.line = line then l' else q
        let t := if a.contribs ≤ l'.turn then t.filter fun q => q.line ≠ line else t
        (({ s with ordered := t } : State).applyAdd a).advanceLine line fuel

/-- A command whose ordered adds have all been applied and whose transactions have ended is done. -/
def State.addsDone (s : State) (a : OrdAdd) : State := s.opalEnd a.core a.slot a.seq

/-- All commands that wait for adds looked at again. -/
def State.addsDoneAll (s : State) (as : List OrdAdd) : State := as.foldl State.addsDone s

/-- An add reaches its home (R173): in turn it is applied, early it waits, or is refused by a full table;
after the wait limit has passed on its line, it is applied at once. -/
def State.addArrives (s : State) (a : OrdAdd) : State :=
  match s.ordered.find? fun l => l.line = a.line with
  | none =>
    if a.ordinal = 0 then
      (({ s with ordered := s.ordered ++ [{ line := a.line, turn := 0, waiting := [a], since := s.time.clk,
                                            late := none }] } : State).advanceLine a.line 17).addsDone a
    else if 1024 ≤ s.orderedWait (s.homeOf a.line) then
      let s := { s with refused := s.refused ++ [a] }
      if s.homeOf a.line < 288 then s.count F.OPAL_EVENTS_ordered_retry (s.homeOf a.line) 1 else s
    else { s with ordered := s.ordered ++ [{ line := a.line, turn := 0, waiting := [a], since := s.time.clk,
                                             late := none }] }
  | some l =>
    match l.late with
    | some k =>
      let t := if k ≤ 1 then s.ordered.filter fun q => q.line ≠ a.line
        else s.ordered.map fun q => if q.line = a.line then { q with late := some (k - 1) } else q
      ((({ s with ordered := t } : State).applyAdd a).flagAdd a).addsDone a
    | none =>
      if a.ordinal ≠ l.turn ∧ l.waiting = [] ∧ 1024 ≤ s.orderedWait (s.homeOf a.line) then
        let s := { s with refused := s.refused ++ [a] }
        if s.homeOf a.line < 288 then s.count F.OPAL_EVENTS_ordered_retry (s.homeOf a.line) 1 else s
      else
        let t := s.ordered.map fun q => if q.line = a.line then { q with waiting := q.waiting ++ [a] } else q
        (({ s with ordered := t } : State).advanceLine a.line 17).addsDoneAll (l.waiting ++ [a])

/-- The command of an add ends with a failure, where its context still has it. -/
def State.failAdd (s : State) (a : OrdAdd) (f : Fail) : State :=
  match (s.ctx a.core a.slot).bind fun x => x.cmd a.seq with
  | some c => s.failCmd a.core a.slot c f
  | none => s

/-- ORDERED_ADD_ARRIVE (R28, R173): add `idx` of those on their way, unless an earlier request of the same Opal to the
same line has still to arrive, or requests to the line are held (R22, R189); one to a core that has been unmapped fails
(R22, R23). -/
def execOrderedAddArrive (idx : Nat) (s : State) : Host.Outcome State Fault Refusal :=
  done <| match s.adds[idx]? with
    | none => s
    | some a =>
      if ((s.adds.take idx ++ s.refused).any fun b => b.core = a.core ∧ b.line = a.line)
          ∨ !s.inOrder a.core a.stamp [a.line] ∨ s.rangeHeld (a.line * 64) 64 then s
      else
        let s := { s with adds := s.adds.eraseIdx idx }
        if s.rangeLost (a.line * 64) 64 then (s.failAdd a (ePerm, 0)).afterRelease a.core
        else (s.addArrives a).settle

/-- ORDERED_ADD_RETRY (R173): a refused add leaves its source again, ahead of later ones. -/
def execOrderedAddRetry (idx : Nat) (s : State) : Host.Outcome State Fault Refusal :=
  done <| match s.refused[idx]? with
    | none => s
    | some a => ({ s with refused := s.refused.eraseIdx idx, adds := a :: s.adds } : State)

/-- ORDERED_ADD_TIMEOUT (R173): the turn of a line has not advanced for the wait limit. -/
def execOrderedAddTimeout (line : Nat) (s : State) : Host.Outcome State Fault Refusal :=
  done <|
    let lim := s.fld F.SYNC_CTL_wait_limit_ms 0
    match s.ordered.find? fun l => l.line = line with
    | none => s
    | some l =>
      if lim = 0 ∨ l.waiting = [] ∨ l.late.isSome ∨ s.time.clk < l.since + lim * 1000000 then s
      else
        let as := l.waiting.mergeSort fun a b => a.ordinal ≤ b.ordinal
        let s := as.foldl State.applyAdd s
        let s := (s.setPoison (line * 64) true).count F.OPAL_EVENTS_poison_lines
          ((as.head?.map (·.core)).getD 0) 1
        let left := ((as.head?.map (·.contribs)).getD 0) - l.turn - as.length
        let t := if left = 0 then s.ordered.filter fun q => q.line ≠ line
          else s.ordered.map fun q => if q.line = line then { q with waiting := [], late := some left } else q
        (({ s with ordered := t } : State).addsDoneAll as).settle

/-! ### Parity (R176) -/

/-- Multiplication by the generator in GF(2^8) modulo 0x11D. -/
def gfDouble (a : Nat) : Nat := if a < 128 then 2 * a else (2 * a) ^^^ 0x11D

/-- Multiplication in GF(2^8). -/
def gfMul (a b : Nat) : Nat :=
  ((List.range 8).foldl (fun (r : Nat × Nat) i => (if b.testBit i then r.1 ^^^ r.2 else r.1, gfDouble r.2)) (0, a)).1

/-- A power of the generator. -/
def gfGen (i : Nat) : Nat := (List.range i).foldl (fun a _ => gfDouble a) 1

/-- The inverse in GF(2^8): the 254th power. -/
def gfInv (a : Nat) : Nat := (List.range 253).foldl (fun r _ => gfMul r a) a

/-- P and Q of data bytes. -/
def parityP (ds : List Nat) : Nat := ds.foldl (· ^^^ ·) 0
def parityQ (ds : List Nat) : Nat := ds.zipIdx.foldl (fun a q => a ^^^ gfMul (gfGen q.2) q.1) 0

/-- The codeword (data, then P and Q) with its lost positions solved: `w` gives the bytes, `lost` the
positions. -/
def parityRebuild (k : Nat) (w : List Nat) (lost : List Nat) : List Nat :=
  let ld := lost.filter (· < k)
  let z := w.zipIdx.map fun q => if lost.contains q.2 then 0 else q.1
  let ds := z.take k
  let p := z.getD k 0
  let q := z.getD (k + 1) 0
  let ds := match ld with
    | [a, b] =>
      let px := p ^^^ parityP ds
      let qx := q ^^^ parityQ ds
      let db := gfMul (qx ^^^ gfMul (gfGen a) px) (gfInv (gfGen a ^^^ gfGen b))
      (ds.set a (px ^^^ db)).set b db
    | [a] =>
      if lost.contains k then ds.set a (gfMul (q ^^^ parityQ ds) (gfInv (gfGen a)))
      else ds.set a (p ^^^ parityP ds)
    | _ => ds
  ds ++ [parityP ds, parityQ ds]

/-- The plan of a parity command: reads all shards but those in `lost`, writes those. -/
def State.parityPlan (s : State) (enc : Bool) (n : Nat) (x : Ctx) (c : QCmd) (l : CList) : Except Fail OpalPlan := do
  failIf (c.pay (if enc then 16 else 26) 112 ≠ 0) eOpcode 0
  let t ← s.tensorAt c l (c.pay 0 12)
  let k := c.pay 12 4
  failIf (k = 0 || decide (14 < k)) eOpcode 0
  failIf (!enc && ((c.pay 20 1 = 1 && decide (k + 1 < c.pay 16 4)) || (c.pay 25 1 = 1 && decide (k + 1 < c.pay 21 4))
    || (c.pay 20 1 = 1 && c.pay 25 1 = 1 && c.pay 16 4 = c.pay 21 4))) eOpcode 0
  let os := [Opnd.mk t true true false]
  return { os := os, addr := none, idle := !enc && c.pay 20 1 = 0 && c.pay 25 1 = 0, check := do
    failIf (t.fmt ≠ 7) eFmt 0
    s.opalChecks x.owner n os (.ok ()) (.ok ()) (.ok ())
      (failIf (t.ndim ≠ 2 || t.extent.getD 1 1 ≠ k + 2) eLen t.index) }

/-- The shards that a parity command writes, in ascending index. -/
def QCmd.lostShards (c : QCmd) (enc : Bool) : List Nat :=
  let k := c.pay 12 4
  if enc then [k, k + 1]
  else ((if c.pay 20 1 = 1 then [c.pay 16 4] else []) ++ (if c.pay 25 1 = 1 then [c.pay 21 4] else [])).mergeSort
    fun a b => a ≤ b

/-- The bytes of a codeword of a shard tensor, those of the lost shards as 0. -/
def State.shardBytes (s : State) (pasid : Option Nat) (t : Tensor) (k : Nat) (lost : List Nat) (j : Nat) :
    List (Nat × Bool) :=
  (List.range (k + 2)).map fun i =>
    if lost.contains i then (0, false) else s.getElem pasid moverStart t [j, i, 0, 0, 0]

/-- The work of a parity command (R174, R176, R179): the lost shards in element order. -/
def State.parityRun (s : State) (enc : Bool) (x : Ctx) (c : QCmd) (d : OpalPlan) : OpalRes :=
  let pasid := s.pasidOf x.owner
  let k := c.pay 12 4
  let lost := c.lostShards enc
  match d.os.map (·.t) with
  | t :: _ =>
    let n := t.extent.headD 0
    let one (i : Nat) (m : Mover) (j : Nat) : Mover :=
      let w := s.shardBytes pasid t k lost j
      let bad := w.any (·.2)
      s.putElem pasid { m with bad := m.bad || bad } t [j, i, 0, 0, 0] ((parityRebuild k (w.map (·.1)) lost).getD i 0) bad
    let m := lost.foldl (fun m i => (List.range n).foldl (one i) m) moverStart
    let data := if lost = [] then [] else ((List.range (k + 2)).filter fun i => !lost.contains i).map fun i => (i, i)
    s.moved x.owner d m 0 (scatterReads t 1 data)
      (fun s m => lost.flatMap fun i => (List.range n).map fun j =>
        BitVec.ofNat 8 (s.getElem pasid m t [j, i, 0, 0, 0]).1) false none
  | [] => s.movedNone x.owner d

/-- OPARITY_ENC (R176). -/
def execOparityEnc (p slot : Nat) (s : State) : Host.Outcome State Fault Refusal :=
  done (s.opal p slot 6 (s.parityPlan true) fun _ x c d s => s.parityRun true x c d)

/-- OPARITY_REBUILD (R176). -/
def execOparityRebuild (p slot : Nat) (s : State) : Host.Outcome State Fault Refusal :=
  done (s.opal p slot 7 (s.parityPlan false) fun _ x c d s => s.parityRun false x c d)

/-! ### Transactions (R161) -/

/-- The oldest started command of a context whose transactions have not all ended. -/
def Ctx.moving (x : Ctx) : Option QCmd :=
  (x.queueOf 2).find? fun c => c.phase = .started && decide (0 < c.toIssue + c.inFlight)

/-- Whether a write transaction may land now: requests to its lines are not held (R22, R189), those issued before it by
the same Opal have arrived (R28), and its ordered adds have been taken by their homes (R173; how long they hold the
slot is a DESIGN CHOICE, log entry 170). -/
def State.landable (s : State) (p slot seq stamp : Nat) (t : List LineOut) : Bool :=
  (t.all fun l => decide (2 ^ 70 ≤ l.line * 64) || !s.rangeHeld (l.line * 64) 64)
    && s.inOrder p stamp (t.map (·.line))
    && t.all fun l => l.ordered.all fun a => !(s.adds ++ s.refused).any fun b =>
      b.core = p && b.slot = slot && b.seq = seq && b.line = a.line

/-- Whether a line of a write transaction lies in the memory of a core that has been unmapped (R23). -/
def State.transLost (s : State) (t : List LineOut) : Bool :=
  t.any fun l => decide (l.line * 64 < 2 ^ 70) && s.rangeLost (l.line * 64) 64

/-- The first write transaction in flight of a command that may land does so, and its slot frees; it fails when its core
has been unmapped (R22, R23). -/
def State.landNext (s : State) (p slot : Nat) (x : Ctx) (c : QCmd) : State :=
  match (c.issued.zip c.stamps).findIdx? fun t => s.landable p slot c.seq t.2 t.1 with
  | none => s
  | some i =>
    let t := c.todo.getD i []
    if s.transLost t then s.failCmd p slot c (ePerm, 0)
    else (s.land p slot c.seq x.owner t).onCmd p slot c.seq fun c =>
      { c with todo := c.todo.eraseIdx i, stamps := c.stamps.eraseIdx i, inFlight := c.inFlight - 1 }

/-- The first write transaction of a slot's ended context that may land does so (R101); one to a core that has been
unmapped is gone (R23). -/
def State.landLoose (s : State) (p i : Nat) : State :=
  match (s.core p).loose[i]? with
  | none => s
  | some f =>
    let s := if s.transLost f.lines then s else s.land p 7 f.seq f.owner f.lines
    s.setCore p { s.core p with loose := (s.core p).loose.eraseIdx i }

/-- OPAL_TRANSACTION_DONE (R161): one transaction of a context ends, one of a context that has ended before it first, a
read before the writes, which land one by one; its slot frees and the next issues. -/
def execOpalTransactionDone (p slot : Nat) (s : State) : Host.Outcome State Fault Refusal :=
  done <| match (s.core p).loose.findIdx? fun f => f.slot = slot && s.landable p 7 f.seq f.stamp f.lines with
    | some i => (s.landLoose p i).afterRelease p
    | none => match (s.ctx p slot).bind Ctx.moving with
    | none => s
    | some c =>
      let s := if c.inFlight = 0 then s.opalIssue p slot c.seq else s
      match s.ctx p slot with
      | none => s
      | some x => match x.cmd c.seq with
        | none => s
        | some c =>
          if c.inFlight = 0 then s
          else
            let s := if 0 < c.readsLeft then
                s.onCmd p slot c.seq fun c => { c with readsLeft := c.readsLeft - 1, inFlight := c.inFlight - 1 }
              else s.landNext p slot x c
            ((s.opalIssue p slot c.seq).opalEnd p slot c.seq).afterRelease p

end Sys2Proof.Machine
end

