-- ==== Sys2Proof/Machine/Sync.lean ====
section
/-!
DEFINITION. Synchronisation objects (R79, R82 to R85): signals that arrive, manager writes and the wait
limit.
-/
namespace Sys2Proof.Machine

/-- One operation on an object: a set, or an add modulo 2^32; ops counts it (R83). -/
def State.objOp (s : State) (n : Nat) (set : Bool) (v : Nat) : State :=
  let v := if set then v else s.fld F.SYNC_OBJ_value n + v
  (s.setFld F.SYNC_OBJ_value n v).countWrap F.SYNC_OBJ_ops n 1

/-- SIGNAL_ARRIVE (R83): operation `idx` of those on their way reaches its object, unless an earlier one
from the same queue to the same object is still on its way (R103). -/
def execSignalArrive (idx : Nat) (s : State) : Host.Outcome State Fault Refusal :=
  done <| match s.signals[idx]? with
    | none => s
    | some g =>
      if (s.signals.take idx).any fun h => h.src = g.src ∧ h.obj = g.obj then s
      else
        (({ s with signals := s.signals.eraseIdx idx }).objOp g.obj g.set g.value).settle

/-- The new owner and the clearing of broken by a write of bits [63:32] (R85); while TDISP has
locked the slice that owns the object, the owner stays (R365). -/
def State.writeOwner (s : State) (n hi : Nat) : State :=
  let o := s.fld F.SYNC_OBJ_owner n
  let s := if bitOf hi 9 then s.setFld F.SYNC_OBJ_broken n 0 else s
  if s.tdiLocked o then s.badAccess 0 (0xE00000 + n * 16)
  else (s.setFld F.SYNC_OBJ_owner n (bits hi 0 9)).settle

/-- A manager write of an object (R83, R85): the owner first, with the waits that it fails, then the
value. -/
def State.objWrite (s : State) (n : Nat) (form : ObjWrite) (v : Nat) : State :=
  if 32768 ≤ n then s
  else match form with
    | .low32 => (s.objOp n true v).settle
    | .high32 => s.writeOwner n v
    | .word64 => ((s.writeOwner n (v / 2 ^ 32)).objOp n true v).settle
    | .word8 => s

/-- SYNC_OBJ_WRITE (R83, R85). -/
def execSyncObjWrite (n : Nat) (form : ObjWrite) (value : Nat) (s : State) : Host.Outcome State Fault Refusal :=
  done (s.objWrite n form value)

/-- The objects on which a command waits now (R79, R86, R88). -/
def Ctx.waitsOn (x : Ctx) (c : QCmd) : List Nat :=
  match c.phase with
  | .queued => if x.head c.engine = some c ∧ c.waitEn ∧ !c.waitOk then [c.waitId] else []
  | .started =>
    if c.isWait then
      (if (c.entry 0).enable ∧ !c.latch0 then [(c.entry 0).id] else [])
        ++ (if (c.entry 1).enable ∧ !c.latch1 then [(c.entry 1).id] else [])
    else if c.isBarrier then [c.pay 0 15]
    else []
  | .worked => []

/-- The first command of a queue that waits, with the object that its failure names and the cycle from which its wait
counts (R84). -/
def Ctx.waiting (x : Ctx) (e : Nat) : Option (QCmd × Nat × Nat) :=
  (x.queueOf e).findSome? fun c => match x.waitsOn c, c.since with
    | n :: _, some t => some (c, n, t)
    | _, _ => none

/-- Whether a wait counted from `t` has been held longer than the wait limit (R84). -/
def State.overdue (s : State) (t : Nat) : Bool :=
  let l := s.fld F.SYNC_CTL_wait_limit_ms 0
  decide (l ≠ 0) && decide (t + l * 1000000 < s.time.clk)

/-- Whether a wait counted from `t` has been held for at least the wait limit, which fails it when that is written
(R84). -/
def State.atLimit (s : State) (t : Nat) : Bool :=
  let l := s.fld F.SYNC_CTL_wait_limit_ms 0
  decide (l ≠ 0) && decide (t + l * 1000000 ≤ s.time.clk)

/-- The wait of an engine's queue fails with ERR_TIMEOUT where `late` says so of the cycle from which it counts
(R84). -/
def State.timeoutAt (s : State) (late : Nat → Bool) (p slot e : Nat) : State :=
  match (s.ctx p slot).bind fun x => x.waiting e with
  | some (c, n, t) => if late t then s.skip p slot c eTimeout n c.signals else s
  | none => s

/-- WAIT_TIMEOUT (R84). -/
def execWaitTimeout (p slot engine : Nat) (s : State) : Host.Outcome State Fault Refusal :=
  done (s.timeoutAt s.overdue p slot engine).settle

/-- A new wait limit measures every pending wait (R84). -/
def State.waitLimitWrite (s : State) (v : Nat) : State :=
  let s := s.setFld F.SYNC_CTL_wait_limit_ms 0 v
  (s.cores.foldl (fun s e => e.2.ctx.foldl (fun s y =>
    [0, 1, 2, 3].foldl (fun s g => s.timeoutAt s.atLimit e.1 y.1 g) s) s) s).settle

/-- SYNC_CTL_WRITE (R84). -/
def execSyncCtlWrite (value : Nat) (s : State) : Host.Outcome State Fault Refusal :=
  done (s.waitLimitWrite value)

/-- waiters of SYNC_OBJ: the commands held by a wait on the object. -/
def State.waiters (s : State) (n : Nat) : Nat :=
  s.cores.foldl (fun k e => e.2.ctx.foldl (fun k y => match y.2 with
    | some x => k + (x.queue.filter fun c => (x.waitsOn c).contains n).length
    | none => k) k) 0

end Sys2Proof.Machine
end

