-- ==== Sys2Proof/Machine/Clink.lean ====
section
/-!
DEFINITION. Citia Link (chapter 18): the fence, time messages, transfers and the twin pair.  Group barriers
are in Machine/Group.lean.
-/
namespace Sys2Proof.Machine

/-! ### Messages that arrive (R403, R404, R406, R407) -/

/-- Whether the link of a port is up. -/
def State.portUp (s : State) (c : Nat) : Bool := s.fld F.CLINK_PORT_STATUS_link_up c = 1

/-- Whether the fence of a port lets a member through (R407); bit 0 stands for the twin. -/
def State.allowed (s : State) (c member : Nat) : Bool := bitOf (s.fld F.CLINK_FENCE_allow c) member

/-- A flit from a member of a port with the given role: nothing arrives on a link that is down, and a fenced
member's flit is dropped and counted. -/
def State.arrives (s : State) (c role member : Nat) (act : State → State) : State :=
  if 2 ≤ c ∨ s.role c ≠ role ∨ !s.portUp c then s
  else if !s.allowed c member then s.count F.CLINK_PORT_STATUS_fenced_drop c 1
  else act s

/-- FLIT_CRC_FAIL (R382, R404): a flit retried on Citia Link port `c`; 2 and 3 stand for the meshes of the dies, 4 and
5 for their die-to-die ports (DESIGN CHOICE, log entry 175). -/
def execFlitCrcFail (c : Nat) (s : State) : Host.Outcome State Fault Refusal :=
  done <|
    if c < 2 then if s.portUp c then s.count F.CLINK_PORT_CNT_retries c 1 else s
    else if c < 4 then s.count F.HLTH_LINK_noc_retries (c - 2) 1
    else if c < 6 then s.count F.HLTH_LINK_d2d_retries (c - 4) 1
    else s

/-- CLINK_LINK_DOWN (R406). -/
def execClinkLinkDown (c : Nat) (s : State) : Host.Outcome State Fault Refusal :=
  done (if 2 ≤ c then s else (s.clinkDown c).settle)

/-- Whether every ball lane of a port has a SerDes in service (R405). -/
def State.lanesUp (s : State) (c : Nat) : Bool :=
  (List.range 8).all fun l => s.fld F.HLTH_UNIT_state (clinkUnit c (s.clinkSerdes c l)) = 0

/-- CLINK_LINK_UP (R403, R405, R406): link_up and the health event message of PF0; a Citia Link port lies in no
cluster and is no fronthaul port, so PF1 gets none (R383). -/
def execClinkLinkUp (c : Nat) (s : State) : Host.Outcome State Fault Refusal :=
  done <|
    if 2 ≤ c ∨ s.role c = 0 ∨ s.portUp c ∨ !s.lanesUp c then s
    else (s.setFld F.CLINK_PORT_STATUS_link_up c 1).message 0 3

/-- TIME_MESSAGE_RECEIVE (R408): the four timestamps of an exchange in units of 1/8 ns. -/
def execTimeMessageReceive (c : Nat) (t1 t2 t3 t4 : Int) (s : State) : Host.Outcome State Fault Refusal :=
  done (s.arrives c (s.role c) 0 fun s =>
    if s.role c = 0 then s
    else
      let s := { s with clink := { s.clink with exchange := put false s.clink.exchange c false } }
      let s := s.setFld F.CLINK_TIME_offset c (ofSigned 32 ((t2 - t1) - (t4 - t3)))
      let s := s.setFld F.CLINK_TIME_delay c (ofSigned 31 (2 * ((t4 - t1) - (t3 - t2))))
      s.setFld F.CLINK_TIME_valid c 1)

/-- HELLO_RECEIVE (R420): the member is present for the next 3 ticks. -/
def State.updatePresent (s : State) : State :=
  s.setFld F.CLINK_GROUP_MEMBERS_present 0 ((List.range 64).foldl (fun b m =>
    let t := look 0 s.clink.hello m
    if t ≠ 0 ∧ s.tickNo < t - 1 + 3 then b + 2 ^ m else b) 0)

/-- HELLO_RECEIVE (R420). -/
def execHelloReceive (c member : Nat) (s : State) : Host.Outcome State Fault Refusal :=
  done (s.arrives c 2 member fun s =>
    if 64 ≤ member then s
    else ({ s with clink := { s.clink with hello := put 0 s.clink.hello member (s.tickNo + 1) } }).updatePresent)

/-! ### Transfers (R409 to R413) -/

/-- Whether a queue is bound as R409 requires. -/
def State.xqValid (s : State) (i : Nat) : Bool :=
  let o := s.xqOwner i
  let r := s.fld F.CLINK_XQ_ring i
  let len := 64 * s.xqEntries i
  s.permitted (s.fld F.CLINK_XQ_prod_obj i) o && !touchesReserved r len && s.linkReach o r len true

/-- Whether a queue is in use at all. -/
def State.xqOn (s : State) (i : Nat) : Bool := s.xqOwner i ≠ 0x1FF && s.xqEntries i ≠ 0

/-- XQ_PRODUCER_ADVANCE (R409). -/
def execXqProducerAdvance (c q : Nat) (s : State) : Host.Outcome State Fault Refusal :=
  done <|
    let i := c * 16 + q
    if 2 ≤ c ∨ 16 ≤ q ∨ !s.xqOn i then s
    else if !s.xqValid i then s.setFld F.CLINK_XQ_bad_cfg i 1
    else s.setXq c q { s.xq c q with seen := s.fld F.SYNC_OBJ_value (s.fld F.CLINK_XQ_prod_obj i) }

/-- Whether a destination belongs to the group of a port: member 0 of a twin port is the twin (R410, R420). -/
def State.destHere (s : State) (c dest : Nat) : Bool :=
  if s.role c = 1 then dest = 0 else bitOf (s.fld F.CLINK_GROUP_MEMBERS_present 0) dest

/-- The first failing check of R413 that the sender makes, 0 for none.  A len of 0, which lies outside R410's range,
ends with ERR_LEN (DESIGN CHOICE, log entry 186). -/
def State.xferCheck (s : State) (c owner : Nat) (b : Bytes) : Nat :=
  let src := leAt b 8 8
  let off := leAt b 0x10 8
  let len := leAt b 0x18 4
  if leAt b 0 1 ≠ 1 ∨ 64 ≤ leAt b 1 1 ∨ leAt b 3 5 ≠ 0 ∨ 2 ^ 44 ≤ src ∨ 2 ^ 40 ≤ off ∨ leAt b 0x1E 2 ≠ 0
      ∨ leAt b 0x24 12 ≠ 0 ∨ leAt b 0x32 14 ≠ 0 ∨ !s.destHere c (leAt b 1 1) then eOpcode
  else if src % 64 ≠ 0 ∨ off % 64 ≠ 0 then eAlign
  else if touchesReserved src len then eOob
  else if 64 ≤ leAt b 2 1 ∨ !s.linkReach owner src len false then ePerm
  else if len = 0 ∨ len % 64 ≠ 0 then eLen
  else 0

/-- The next record of a queue that the port takes: its index and bytes. -/
def State.xqNext (s : State) (c q : Nat) : Option (Nat × Bytes) :=
  let i := c * 16 + q
  let r := s.xq c q
  if 2 ≤ c ∨ 16 ≤ q ∨ !s.xqOn i ∨ !s.xqValid i ∨ r.next = r.seen ∨ !reached r.seen r.next then none
  else some (r.next, s.bytesAt (s.xqRecord i r.next) 64)

/-- A record that ends without being sent, once those before it have ended (R412). -/
def State.xferRefuse (s : State) (c q n : Nat) (b : Bytes) (outcome code : Nat) : State :=
  let r := s.xq c q
  if r.flying ≠ [] then s
  else ((s.setXq c q { r with next := (n + 1) % 2 ^ 32 }).xferEnd c q n b outcome code).settle

/-- TRANSFER_WRITE (R409, R410, R412, R413): the next record is checked, then sent or ended; while the link is down it
waits, and while its record or its source lies in memory that is held (R22, R189).  A queue whose binding is out of
its owner's reach takes nothing. -/
def execTransferWrite (c q : Nat) (s : State) : Host.Outcome State Fault Refusal :=
  done <| match s.xqNext c q with
    | none => if c < 2 ∧ q < 16 ∧ s.xqOn (c * 16 + q) ∧ !s.xqValid (c * 16 + q) then s.setFld F.CLINK_XQ_bad_cfg (c * 16 + q) 1
              else s
    | some (n, b) =>
      let code := s.xferCheck c (s.xqOwner (c * 16 + q)) b
      let dest := leAt b 1 1
      let src := leAt b 8 8
      let len := leAt b 0x18 4
      if s.rangeHeld (s.xqRecord (c * 16 + q) n) 64 then s
      else if code ≠ 0 then s.xferRefuse c q n b 3 code
      else if !s.allowed c dest then s.xferRefuse c q n b 2 0
      else if !s.portUp c ∨ s.rangeHeld src len then s
      else
        let bad := (List.range (len / 64)).map fun i => s.poisoned (src + 64 * i)
        let r := s.xq c q
        let s := (s.setXq c q { r with next := (n + 1) % 2 ^ 32
                                       flying := r.flying ++ [⟨n, b, bad.any id, none⟩] }).readPoison src len
        s.clinkSend (.transfer c dest q (leAt b 2 1) (leAt b 0x10 8) (s.bytesAt src len) bad)

/-- The oldest transfer of a list without an outcome gets one. -/
def endFirst (outcome code : Nat) : List Flying → List Flying
  | [] => []
  | x :: xs => if x.ended = none then { x with ended := some (outcome, code) } :: xs else x :: endFirst outcome code xs

/-- TRANSFER_ACK (R407, R411 to R413): the oldest transfer of the queue has its outcome; one that carried poison
completes with ERR_POISON. -/
def execTransferAck (c q outcome code : Nat) (s : State) : Host.Outcome State Fault Refusal :=
  done <| match (s.xq c q).flying.find? fun x => x.ended = none with
    | none => s
    | some x => s.arrives c (s.role c) x.dest fun s =>
      let r := s.xq c q
      let r := { r with flying := if outcome = 0 then endFirst 0 (if x.poison then ePoison else 0) r.flying
                                  else endFirst 3 (code % 256) r.flying }
      ((s.setXq c q r).xqDrain c q r.flying.length).settle

/-- TRANSFER_LAND (R411 to R413). -/
def execTransferLand (c : Nat) (xfer : Landing) (s : State) : Host.Outcome State Fault Refusal :=
  done (s.arrives c (s.role c) xfer.member fun s => if s.role c = 0 then s else s.takeLanding c xfer)

/-! ### The twin pair (R414 to R419) -/

/-- The cells of this device in one of two states. -/
def State.cellsIn (s : State) (a b : Nat) : List Nat :=
  (List.range 1024).filter fun c =>
    let st := s.fld F.CLU_CELL_STATE_state c
    st = a || st = b

/-- The heartbeat of R414. -/
def State.heartbeat (s : State) : Heartbeat :=
  { tick := s.tickNo, gen := s.fld F.CUT_GEN_generation 0, digest := s.fld F.CUT_CHAIN_DIGEST_digest 0,
    cells := s.cellsIn 1 2, active := s.cellsIn 2 2 }

/-- A START under R271 with a mirrored configuration at the instant `at'` gives; whether it is accepted
(R272, R416, R419). -/
def State.startMirrored (s : State) (c : Nat) (at' : Bytes → Nat) : State × Bool :=
  let b := look [] s.clink.twin.configs c
  let code := if (s.entry 4 c).isNone then 1
    else if b = [] ∨ (s.cell c).waiting.isSome ∨ s.fld F.CLU_CELL_STATE_state c ≠ 0 then 5
    else s.configCheck c b
  let s := s.cellOutcome c code
  if code = 0 then (s.cellAccept c 1 (at' b) b, true) else (s, false)

/-- A STOP of a cell at an instant, which takes the place of a command that waits. -/
def State.stopAt (s : State) (c t : Nat) : State := s.cellAccept c 2 t []

/-- The first frame of a cell at least 2 ms ahead. -/
def State.soonFrame (s : State) (c : Nat) : Nat :=
  let r := s.cell c
  let b := if r.config = [] then (r.waiting.map (·.config)).getD [] else r.config
  nextFrameStart b (s.total + 2000000)

/-- The twin is heard again (R418): a cell marked taken that the twin shows ACTIVE is stopped; one that is ACTIVE on
both sides without a mark is counted.  The twin has marked a cell where it was OFF there in the last heartbeat before,
`was` (DEDUCED, log entry 185). -/
def State.twinBack (s : State) (was : Option Heartbeat) (beat : Heartbeat) : State :=
  let taken := s.clink.twin.taken
  let both := (s.cellsIn 2 2).filter fun c => beat.active.contains c && !taken.contains c
    && was.all fun w => w.cells.contains c
  let stop := taken.filter fun c => beat.active.contains c && decide (s.fld F.CLU_CELL_STATE_state c ≠ 0)
  let s := s.twinPorts.foldl (fun s c => s.count F.CLINK_TWIN_STATUS_dual_cells c both.length) s
  let s := s.onTwin fun t => { t with taken := t.taken.filter fun c => !beat.active.contains c }
  stop.foldl (fun s c => s.stopAt c (s.soonFrame c)) s

/-- HEARTBEAT_RECEIVE (R414, R418). -/
def execHeartbeatReceive (c : Nat) (beat : Heartbeat) (s : State) : Host.Outcome State Fault Refusal :=
  done (s.arrives c 1 0 fun s =>
    let st := s.fld F.CLINK_TWIN_STATUS_state c
    let was := s.clink.twin.last
    let s := s.onTwin fun t =>
      { t with beat := true, last := some beat, consec := if t.beat then t.consec else t.consec + 1 }
    if st = 1 ∧ 3 ≤ s.clink.twin.consec then
      (s.setTwin F.CLINK_TWIN_STATUS_state 2).setTwin F.CLINK_TWIN_STATUS_missed 0
    else if st = 3 then
      ((s.setTwin F.CLINK_TWIN_STATUS_state 2).setTwin F.CLINK_TWIN_STATUS_missed 0).twinBack was beat
    else s)

/-- The takeover of R416. -/
def State.takeover (s : State) : State :=
  match s.clink.twin.last with
  | none => s
  | some beat =>
    (beat.cells.filter fun c => s.fld F.CLU_CELL_STATE_state c = 0 && look [] s.clink.twin.configs c ≠ []).foldl
      (fun s c =>
        let (s, ok) := s.startMirrored c fun b => nextFrameStart b (s.total + 2000000)
        if ok then s.onTwin fun t => { t with taken := t.taken ++ [c] }
        else s.twinPorts.foldl (fun s p => s.count F.CLINK_TWIN_STATUS_takeover_fail p 1) s) s

/-- Whether the takeover is armed on a twin port. -/
def State.armed (s : State) : Bool := s.twinPorts.any fun c => s.fld F.CLINK_TWIN_CTL_takeover_en c = 1

/-- The check at a tick boundary (R414, R416): of the pair, which all twin ports serve. -/
def State.twinTick (s : State) : State :=
  match (s.twinPorts.filter fun c => s.fld F.CLINK_TWIN_STATUS_state c = 2) ++ s.twinPorts with
  | [] => s.onTwin fun t => { t with beat := false, consec := 0 }
  | c :: _ =>
    let beat := s.clink.twin.beat
    let s := s.onTwin fun t => { t with beat := false, consec := if beat then t.consec else 0 }
    if s.fld F.CLINK_TWIN_STATUS_state c ≠ 2 then s
    else if beat then s.setTwin F.CLINK_TWIN_STATUS_missed 0
    else
      let m := s.fld F.CLINK_TWIN_STATUS_missed c + 1
      let s := s.setTwin F.CLINK_TWIN_STATUS_missed m
      if m < 3 then s
      else
        let s := s.setTwin F.CLINK_TWIN_STATUS_state 3
        (if s.armed then s.takeover else s).twinEvent

/-- A time message of a port (R408): the exchange before it, if not completed, never will be. -/
def State.sendTime (s : State) (c : Nat) : State :=
  let s := s.loseExchange c
  ({ s with clink := { s.clink with exchange := put false s.clink.exchange c true } }).clinkSend (.time c 0)

/-- What the ports send at a tick boundary (R408, R414, R420). -/
def State.tickSends (s : State) : State :=
  [0, 1].foldl (fun s c =>
    if !s.portUp c then s
    else if s.role c = 1 then (s.clinkSend (.heartbeat c s.heartbeat)).sendTime c
    else if s.role c = 2 then
      (s.clinkSend (.hello c (s.fld F.CLINK_PORT_STATUS_member c))).sendTime c
    else s) s

/-- MIRROR_RECEIVE (R415): the latest of each item is kept and acknowledged. -/
def execMirrorReceive (c : Nat) (item : MirrorItem) (s : State) : Host.Outcome State Fault Refusal :=
  done (s.arrives c 1 0 fun s =>
    (s.onTwin fun t => match item with
      | .cutImage b => { t with image := b }
      | .cellConfig cell b => { t with configs := put [] t.configs cell b }
      | .cellStop cell tick => { t with stops := put 0 t.stops cell (tick + 1) }).clinkSend (.mirrorAck c))

/-- MIRROR_ACK (R415). -/
def execMirrorAck (c : Nat) (s : State) : Host.Outcome State Fault Refusal :=
  done (s.arrives c 1 0 fun s =>
    if s.clink.twin.unacked = 0 then s
    else
      let s := s.onTwin fun t => { t with unacked := t.unacked - 1 }
      if s.clink.twin.unacked = 0 then s.setTwin F.CLINK_TWIN_STATUS_mirror_ok 1 else s)

/-- The bytes of the mirror: the cut image, then the configurations in ascending order of their cells. -/
def TwinBlk.mirror (t : TwinBlk) : Bytes := t.image ++ t.configs.flatMap (·.2)

/-- MIRROR_DUMP (R415): `addr4k` is addr_4k of CLINK_MIRROR_DUMP. -/
def State.mirrorDump (s : State) (c addr4k : Nat) : State :=
  if 2 ≤ c ∨ s.clink.twin.mirror = [] then s else s.pf0Write (addr4k % 2 ^ 52 * 4096) s.clink.twin.mirror

/-- MIRROR_DUMP (R415). -/
def execMirrorDump (c addr4k : Nat) (s : State) : Host.Outcome State Fault Refusal := done (s.mirrorDump c addr4k)

/-- HANDOVER (R419): every ACTIVE cell is offered to the twin at its first frame at least 4 ms ahead. -/
def State.handover (s : State) (c : Nat) : State :=
  if s.role c ≠ 1 ∨ s.fld F.CLINK_TWIN_STATUS_state c ≠ 2 then s
  else
    let moves := (s.cellsIn 2 2).map fun n => (n, nextFrameStart (s.cell n).config (s.total + 4000000))
    let s := moves.foldl (fun s m => s.clinkSend (.handover c m.1 (cfgFrame (s.cell m.1).config m.2))) s
    if moves = [] then s.setTwin F.CLINK_TWIN_STATUS_handover_done 1
    else s.onTwin fun t => { t with moving := moves.map fun m => (m.1, m.2, false) }

/-- HANDOVER (R419). -/
def execHandover (c : Nat) (s : State) : Host.Outcome State Fault Refusal :=
  done (if 2 ≤ c then s else s.handover c)

/-- HANDOVER_RECEIVE (R419): each cell starts from the mirror at frame `frame`, or is refused; none is marked
taken. -/
def execHandoverReceive (c frame : Nat) (cells : List Nat) (s : State) : Host.Outcome State Fault Refusal :=
  done (s.arrives c 1 0 fun s =>
    cells.foldl (fun s n =>
      let (s, ok) := s.startMirrored n fun b => cmdInstant b false (frame % 1024) s.total
      s.clinkSend (.handoverReply c n ok)) s)

/-- HANDOVER_REPLY_RECEIVE (R419): an accepted cell stops here at its frame; a refused one keeps running. -/
def execHandoverReplyReceive (c cell : Nat) (accepted : Bool) (s : State) : Host.Outcome State Fault Refusal :=
  done (s.arrives c 1 0 fun s =>
    match s.clink.twin.moving.find? fun m => m.1 = cell with
    | none => s
    | some m =>
      if accepted then
        if m.2.2 then s
        else if s.fld F.CLU_CELL_STATE_state cell = 2 then
          (s.onTwin fun t => { t with moving := t.moving.map fun x =>
            if x.1 = cell then (x.1, x.2.1, true) else x }).stopAt cell m.2.1
        else s.handoverStep cell
      else (s.twinPorts.foldl (fun s p => s.count F.CLINK_TWIN_STATUS_handover_fail p 1) s).handoverStep cell)

end Sys2Proof.Machine
end

