-- ==== Sys2Proof/Machine/Group.lean ====
section
/-!
DEFINITION. BARRIER (R88) and the barriers of a device group (R377, R420 to R424).
-/
namespace Sys2Proof.Machine

/-- A group port over which a member can be reached: its link up and the member not fenced. -/
def State.portTo (s : State) (member : Nat) : Option Nat :=
  s.groupPorts.find? fun c => s.portUp c && s.allowed c member

/-- The waiting BARRIERs of an object that still wait, with their commands. -/
def State.groupWaits (s : State) (n : Nat) : List (GroupWait × QCmd) :=
  s.clink.waits.filterMap fun w =>
    match (s.ctx w.core w.slot).bind fun x => x.cmd w.seq with
    | some c => if w.n = n ∧ c.phase = .started then some (w, c) else none
    | none => none

/-- A wait that is over is dropped. -/
def State.dropWait (s : State) (w : GroupWait) : State :=
  { s with clink := { s.clink with waits := s.clink.waits.erase w } }

/-- The release of R421 at its instant: every waiting BARRIER on n that the value reaches releases, and its lag
is recorded (R424). -/
def State.groupRelease (s : State) (n value start : Nat) : State :=
  ((s.groupWaits n).filter fun w => reached value w.1.target).foldl (fun s w =>
    let s := (s.dropWait w.1).worked w.1.core w.1.slot w.1.seq false
    s.setFld F.CLINK_ARRIVAL_lag_ns s.ownMember (min (start - w.1.sentAt) (2 ^ 32 - 1))) s

/-- Waiting BARRIERs on n that fail: a refused add with ERR_PERM, a broken object with ERR_TIMEOUT (R422). -/
def State.groupFail (s : State) (n : Nat) (refused : Bool) : State :=
  (s.groupWaits n).foldl (fun s w =>
    let s := s.dropWait w.1
    if refused then s.failCmd w.1.core w.1.slot w.2 (ePerm, n)
    else s.skip w.1.core w.1.slot w.2 eTimeout n w.2.signals) s

/-- A release reaches this device (R421, R422): one that arrives after its instant acts at once and is
counted on its port. -/
def State.releaseHere (s : State) (c n value : Nat) (broken : Bool) (start : Nat) : State :=
  if broken then (s.groupFail n false).afterAll
  else if start < s.total then
    ((s.groupRelease n value start).count F.CLINK_PORT_CNT_late_releases c 1).settle
  else { s with clink := { s.clink with releases := s.clink.releases ++ [⟨n, value, start⟩] } }

/-- GROUP_RELEASE_RECEIVE (R421, R422): a release from the root, or its refusal of an add. -/
def execGroupReleaseReceive (c n value : Nat) (broken refused : Bool) (start : Nat) (s : State) :
    Host.Outcome State Fault Refusal :=
  done (s.arrives c 2 0 fun s =>
    if refused then (s.groupFail n true).afterAll else s.releaseHere c n (value % 2 ^ 32) broken start)

/-- GROUP_BARRIER_RELEASE (R377): the releases of an object whose instant has come. -/
def execGroupBarrierRelease (n : Nat) (s : State) : Host.Outcome State Fault Refusal :=
  done <|
    let due (r : GroupRelease) : Bool := r.n = n && decide (r.start ≤ s.total)
    let rs := s.clink.releases.filter due
    let s := { s with clink := { s.clink with releases := s.clink.releases.filter fun r => !due r } }
    (rs.foldl (fun s r => s.groupRelease r.n r.value r.start) s).settle

/-- The root records at a release when each admitted member's last add reached it (R424). -/
def State.recordArrivals (s : State) : State :=
  (List.range 64).foldl (fun s m =>
    let t := look 0 s.clink.lastAdd m
    if bitOf (s.fld F.CLINK_GROUP_MEMBERS_admitted 0) m ∧ t ≠ 0 then
      s.setFld F.CLINK_ARRIVAL_arrival m ((t - 1) % 2 ^ 32)
    else s) s

/-- A release sent to every present member that a port reaches, and to this device itself (R407, R421). -/
def State.sendRelease (s : State) (n : Nat) : State :=
  let value := s.fld F.SYNC_OBJ_value n
  let broken := decide (s.fld F.SYNC_OBJ_broken n = 1)
  let start := s.total + s.fld F.CLINK_GROUP_CFG_release_lead_ns 0
  let s := s.recordArrivals
  let s := (List.range 64).foldl (fun s m =>
    if m ≠ s.ownMember ∧ bitOf (s.fld F.CLINK_GROUP_MEMBERS_present 0) m ∧ (s.portTo m).isSome then
      s.clinkSend (.release m n value broken start)
    else s) s
  s.releaseHere (s.groupPorts.headD 0) n value broken start

/-- Whether n is an object of the group (R420). -/
def State.groupObject (s : State) (n : Nat) : Bool :=
  let b := s.fld F.CLINK_GROUP_CFG_grp_obj_base 0
  decide (b ≤ n) && decide (n < b + s.fld F.CLINK_GROUP_CFG_grp_obj_count 0)

/-- An add reaches the root (R421, R422): refused outside the group objects, discarded from a member that is
not admitted. -/
def State.rootAdd (s : State) (member n target : Nat) : State :=
  if !s.groupObject n then
    if member = s.ownMember then (s.groupFail n true).afterAll else s.clinkSend (.refuse member n)
  else if !bitOf (s.fld F.CLINK_GROUP_MEMBERS_admitted 0) member then s
  else
    let s := { s with clink := { s.clink with lastAdd := put 0 s.clink.lastAdd member (s.total + 1) } }
    let s := (s.objOp n false 1).settle
    if reached (s.fld F.SYNC_OBJ_value n) target then s.sendRelease n else s

/-- GROUP_BARRIER_ADD (R421, R422). -/
def execGroupBarrierAdd (c member n target : Nat) (s : State) : Host.Outcome State Fault Refusal :=
  done (s.arrives c 2 member fun s =>
    if s.isRoot ∧ member < 64 then s.rootAdd member (n % 32768) (target % 2 ^ 32) else s)

/-- A group BARRIER starts (R421): it waits, and its add goes to the root. -/
def State.groupBarrier (s : State) (p slot : Nat) (c : QCmd) : State :=
  let n := c.pay 0 15
  let target := c.pay 32 32
  let w : GroupWait := { core := p, slot := slot, seq := c.seq, n := n, target := target, sentAt := s.total }
  let s := { s with clink := { s.clink with waits := s.clink.waits ++ [w] } }
  if s.isRoot then s.rootAdd 0 n target
  else if (s.portTo 0).isSome then s.clinkSend (.barrierAdd n target)
  else s

/-- BARRIER (R82, R88, R421): the add of a local one leaves for its object, and it waits until that has
arrived and the target is reached (`State.headAct`). -/
def execBarrier (p slot : Nat) (s : State) : Host.Outcome State Fault Refusal :=
  done (s.control p slot 5
    (fun x c => do
      opcodeCheck true (c.pay 16 16 ≠ 0 || c.pay 64 64 ≠ 0)
      if s.permitted (c.pay 0 15) x.owner then .ok () else .error (ePerm, c.pay 0 15))
    fun x c s =>
      let s := s.begin p slot c.seq
      if c.pay 15 1 = 1 then s.groupBarrier p slot c
      else s.send x.owner (c.pay 0 15) false 1 (srcOf p slot 3))

end Sys2Proof.Machine
end

