-- ==== Sys2Proof/Machine/Lamp.lean ====
section
/-!
DEFINITION. The Lamplighter serving engine (chapter 9): sequences and their commands, template binding,
the step build and its completion, the output ring, fixed batches and context management.
-/
namespace Sys2Proof.Machine

/-! ### Sequences (R15, R208, R210 to R212) -/

/-- The live entries of a slice, with their keys. -/
def State.seqsOf (s : State) (sl : Nat) : List (Nat × Seq) :=
  s.seqs.filterMap fun e => match e.2 with
    | some q => if q.slice = sl then some (e.1, q) else none
    | none => none

/-- The live entry of a slice under an identifier. -/
def State.findSeq (s : State) (sl id : Nat) : Option (Nat × Seq) := (s.seqsOf sl).find? fun e => e.2.seqId = id

/-- The entry under a key replaced; `none` is FREE. -/
def State.setSeq (s : State) (k : Nat) (q : Option Seq) : State := { s with seqs := put none s.seqs k q }

/-- A change of the entry under a key. -/
def State.onSeq (s : State) (k : Nat) (f : Seq → Seq) : State :=
  match look none s.seqs k with
  | some q => s.setSeq k (some (f q))
  | none => s

/-- Entries of a Lamplighter that are not FREE. -/
def State.liveSeqs (s : State) (d : Nat) : Nat := (s.seqs.filter fun e => e.1 / 4096 = d ∧ e.2.isSome).length

/-- The lowest FREE entry of a Lamplighter's table. -/
def State.freeSeq (s : State) (d : Nat) : Option Nat :=
  ((List.range 4096).find? fun i => (look none s.seqs (d * 4096 + i)).isNone).map fun i => d * 4096 + i

/-- A node record (R211). -/
def nodeToken (r : Nat) : Nat := bits r 0 24
def nodeParent (r : Nat) : Nat := bits r 24 6
def nodeDepth (r : Nat) : Nat := bits r 32 6
def node (token parent depth : Nat) : Nat := token + parent * 2 ^ 24 + depth * 2 ^ 32

/-- The 640 bytes of a table entry (R210). -/
def Seq.bytes (q : Seq) : Bytes :=
  let b (c : Bool) (v : Nat) : Nat := if c then v else 0
  leBytes 1 q.state ++ leBytes 1 (b q.keep 1 + b q.inStep 2 + b q.cancelPending 4 + b q.outStall 8)
    ++ leBytes 2 q.slice ++ leBytes 4 q.seqId ++ leBytes 4 q.n
    ++ leBytes 4 (match q.pending with | some t => t + 2 ^ 31 | none => 0)
    ++ leBytes 4 q.maxLen ++ leBytes 4 q.promptLeft ++ leBytes 8 q.tokAddr ++ leBytes 8 q.kvDir
    ++ leBytes 8 q.seed ++ leBytes 4 q.temperature ++ leBytes 4 q.topP ++ leBytes 2 q.topK
    ++ leBytes 1 q.draftMax ++ leBytes 1 q.stopCount ++ leBytes 1 q.tree.length ++ leBytes 3 0
    ++ ((List.range 8).flatMap fun i => leBytes 4 (q.stopIds.getD i 0))
    ++ leBytes 8 q.lastStep ++ leBytes 8 q.commitMask ++ leBytes 4 q.commitBase ++ leBytes 4 0
    ++ leBytes 8 q.emitted ++ (List.range 64).flatMap fun i => leBytes 8 (q.tree.getD i 0)

/-- A table entry from its 640 bytes (R363); `order` is its place among the prefills. -/
def Seq.ofBytes (bs : Bytes) (slice order : Nat) : Seq :=
  let fl := leAt bs 1 1
  let p := leAt bs 0xC 4
  { state := leAt bs 0 1, keep := bitOf fl 0, inStep := bitOf fl 1, cancelPending := bitOf fl 2,
    outStall := bitOf fl 3, slice := slice, seqId := leAt bs 4 4, n := bits (leAt bs 8 4) 0 24,
    pending := if bitOf p 31 then some (bits p 0 24) else none,
    maxLen := bits (leAt bs 0x10 4) 0 24, promptLeft := bits (leAt bs 0x14 4) 0 24, tokAddr := leAt bs 0x18 8,
    kvDir := leAt bs 0x20 8, seed := leAt bs 0x28 8, temperature := leAt bs 0x30 4,
    topP := leAt bs 0x34 4, topK := leAt bs 0x38 2, draftMax := leAt bs 0x3A 1, stopCount := leAt bs 0x3B 1,
    stopIds := (List.range 8).map fun i => leAt bs (0x40 + 4 * i) 4,
    tree := (List.range (min (leAt bs 0x3C 1) 64)).map fun i => leAt bs (0x80 + 8 * i) 8,
    lastStep := leAt bs 0x60 8, commitMask := leAt bs 0x68 8, commitBase := bits (leAt bs 0x70 4) 0 24,
    emitted := leAt bs 0x78 8, order := order }

/-! ### The output ring (R228 to R230) -/

/-- Records of the output ring. -/
def State.outEntries (s : State) (sl : Nat) : Nat := ringEntries (s.fld F.PORTAL_OUT_RING_size_code sl) 5

/-- Records of the ring reserved for the output of the slice's step in flight (R222, R229). -/
def State.outReserved (s : State) (sl : Nat) : Nat := ((s.lampSlice sl).step.map (·.reserved)).getD 0

/-- Whether the ring takes one record now (R482) and keeps what is reserved for the step in flight (R229). -/
def State.outRoom (s : State) (sl : Nat) : Bool :=
  let used := (s.fld F.PORTAL_OUT_PTR_head sl + 2 ^ 32 - s.fld F.PORTAL_OUT_PTR_tail sl) % 2 ^ 32
  ringRoom (s.fld F.PORTAL_OUT_PTR_head sl) (s.fld F.PORTAL_OUT_PTR_tail sl) (s.outEntries sl)
    && decide (used + s.outReserved sl < s.outEntries sl)

/-- Message 3 of R230; the count of unsignalled records starts again. -/
def State.outMessage (s : State) (sl : Nat) : State :=
  (s.setLamp sl { s.lampSlice sl with unsignalled := 0, firstAt := none }).portalMessage sl 3

/-- A record written to the ring: `bs` its 64 bytes with phase 0 (R228, R230). -/
def State.outWrite (s : State) (sl : Nat) (bs : Bytes) : State :=
  let n := s.outEntries sl
  let h := s.fld F.PORTAL_OUT_PTR_head sl
  let phase := if h / n % 2 = 0 then 1 else 0
  let rec64 := bs.take 1 ++ leBytes 1 (leAt bs 1 1 + phase) ++ bs.drop 2
  let s := (s.hostWrite sl (s.fld F.PORTAL_OUT_RING_base_4k sl * 4096 + h % n * 64) rec64).countWrap
    F.PORTAL_OUT_PTR_head sl 1
  let r := s.lampSlice sl
  let s := s.setLamp sl { r with unsignalled := r.unsignalled + 1, firstAt := some (r.firstAt.getD s.time.clk) }
  let c := s.fld F.PORTAL_OUT_COAL_coal_records sl
  if c ≠ 0 ∧ c ≤ r.unsignalled + 1 then s.outMessage sl else s

/-- Waiting TOKENS and END records written while the ring has room; an entry whose END record is written is
FREE (R212). -/
def State.flushOut (s : State) (sl : Nat) : Nat → State
  | 0 => s
  | fuel + 1 =>
    let r := s.lampSlice sl
    match r.out with
    | [] => s
    | o :: rest =>
      if s.outRoom sl then
        let s := (s.setLamp sl { r with out := rest }).outWrite sl o.bytes
        let s := match o.frees with
          | some k => s.setSeq k none
          | none => s
        s.flushOut sl fuel
      else s

/-- Records joined to those that wait, and written as far as there is room. -/
def State.outPut (s : State) (sl : Nat) (os : List OutRec) : State :=
  let r := s.lampSlice sl
  let all := r.out ++ os
  (s.setLamp sl { r with out := all }).flushOut sl all.length

/-- The END record of a sequence (R228). -/
def Seq.endRec (q : Seq) (reason code step : Nat) : Bytes :=
  leBytes 1 3 ++ leBytes 1 0 ++ leBytes 1 reason ++ leBytes 1 code ++ leBytes 4 q.seqId
    ++ leBytes 4 (bits (q.n + 1) 0 24) ++ leBytes 4 step ++ leBytes 48 0

/-- A sequence ends and its entry is FREE after the END record (R212): until that is written it shows
ENDING. -/
def State.endSeq (s : State) (k : Nat) (q : Seq) (reason code : Nat) : State :=
  (s.setSeq k (some { q with state := 4, inStep := false })).outPut q.slice
    [⟨q.endRec reason code q.lastStep, some k⟩]

/-- A stop under R226: with keep the sequence is HELD, else FREE; an END record in either. -/
def State.stopSeq (s : State) (k : Nat) (q : Seq) (reason : Nat) : State :=
  if q.keep then
    (s.setSeq k (some { q with state := 3, inStep := false, tree := [] })).outPut q.slice
      [⟨q.endRec reason 0 q.lastStep, none⟩]
  else s.endSeq k q reason 0

/-- Every sequence and record of a slice dropped (R212, R357). -/
def State.dropSeqs (s : State) (sl : Nat) : State :=
  { s with seqs := s.seqs.filter fun e => !(e.2.any fun q => decide (q.slice = sl)) }

/-! ### Templates (R217, R218) -/

/-- A bound template (R217). -/
structure Template where
  table : Nat
  members : Nat
  stepBuf : Nat
  rowsMax : Nat
  chunkMax : Nat
  draftCap : Nat
  vocab : Nat
deriving DecidableEq, Repr

/-- The table at a device address. -/
def State.readTemplate (s : State) (t : Nat) : Template :=
  let b := s.bytesAt t 64
  { table := t, members := leAt b 6 2, stepBuf := leAt b 8 8, rowsMax := leAt b 0x10 4, chunkMax := leAt b 0x14 4,
    draftCap := leAt b 0x18 1, vocab := leAt b 0x20 4 }

/-- Member descriptor i of a table. -/
def State.memberDesc (s : State) (t i : Nat) : Desc := Desc.ofBytes (s.bytesAt (t + 64 + 64 * i) 64)

/-- Bytes of the step buffer of a template. -/
def Template.bufLen (t : Template) : Nat := 0x40 + 592 * t.rowsMax

/-- Whether a range lies in one core's vault window. -/
def inOneVault (a len : Nat) : Bool :=
  match locate a with
  | .vault _ off => decide (off + len ≤ 0x48000000)
  | _ => false

/-- The first failing check of a binding (R217, R218), under the codes of R92 and in their order. -/
def State.bindCheck (s : State) (sl t : Nat) : Option Nat :=
  match s.partitionOf sl with
  | none => some ePerm
  | some q =>
    let cores := s.members q
    let n := cores.headD 0
    let m := s.readTemplate t
    let b := s.bytesAt t 64
    let whole := 64 + 64 * m.members
    let descs := (List.range m.members).map fun i => (cores.getD i 256, s.memberDesc t i)
    if touchesReserved t 64 then some eOob
    else if !inOneVault t 64 ∨ !s.mayReach sl n t 64 false then some ePerm
    else if s.anyPoison t 64 then some ePoison
    else if leAt b 0 4 ≠ 0x32544E46 ∨ leAt b 4 2 ≠ 1 ∨ leAt b 0x19 7 ≠ 0 ∨ leAt b 0x24 28 ≠ 0 then some eOpcode
    else if m.stepBuf % 64 ≠ 0 then some eAlign
    else if m.members ≠ cores.length ∨ m.rowsMax = 0 ∨ 4096 < m.rowsMax ∨ m.chunkMax = 0 ∨ m.rowsMax < m.chunkMax
        ∨ m.draftCap = 0 ∨ 64 < m.draftCap ∨ m.vocab = 0 ∨ 16777216 < m.vocab then some eLen
    else if touchesReserved m.stepBuf m.bufLen ∨ touchesReserved t whole then some eOob
    else if !inOneVault m.stepBuf m.bufLen ∨ !s.mayReach sl n m.stepBuf m.bufLen true
        ∨ !s.mayReach sl n t whole false then some ePerm
    else if s.anyPoison t whole then some ePoison
    else descs.findSome? fun d =>
      if d.2.reservedSet ∨ d.2.listHost ∨ d.2.doneAddr ≠ 0 ∨ d.2.irqDone ∨ d.2.syncEn ∨ d.2.core ≠ d.1
      then some eOpcode
      else s.descCheck sl d.2

/-- The table address that a slice has bound; 0 for none. -/
def State.boundTable (s : State) (sl : Nat) : Nat := s.fld F.PORTAL_STEP_BIND_table sl * 64

/-- The bound template, checked now (R217); `none` without a valid binding. -/
def State.binding (s : State) (sl : Nat) : Option Template :=
  let t := s.boundTable sl
  if t = 0 ∨ (s.bindCheck sl t).isSome then none else some (s.readTemplate t)

/-- The check of the binding reported in bind_result (R217, R218). -/
def State.reportBind (s : State) (sl : Nat) : State :=
  let t := s.boundTable sl
  s.setFld F.PORTAL_SEQ_STATUS_bind_result sl (if t = 0 then 0 else (s.bindCheck sl t).getD 0)

/-- A write to PORTAL_STEP_BIND (R217, R218). -/
def State.bindWrite (s : State) (sl v : Nat) : State :=
  let t := bits v 6 38 * 64
  let code := if t = 0 then 0 else (s.bindCheck sl t).getD 0
  (s.setFld F.PORTAL_STEP_BIND_table sl (bits v 6 38)).setFld F.PORTAL_SEQ_STATUS_bind_result sl code

/-- STEP_BIND (R217, R218, R366). -/
def execStepBind (sl value : Nat) (via : Option Nat) (s : State) : Host.Outcome State Fault Refusal :=
  done <|
    if 256 ≤ sl then s
    else if s.fld F.SLC_STATE_state sl = 0 then s.badAccess 1 (sl * 0x10000 + 0x2808)
    else if !s.viaOk sl via then s.badSubmission sl
    else s.bindWrite sl value

/-! ### Sequence commands (R213 to R216) -/

/-- The fields of a sequence command (R214). -/
structure SeqCmd where
  op : Nat
  flags : Nat
  seqId : Nat
  tokAddr : Nat
  tokCount : Nat
  maxLen : Nat
  kvDir : Nat
  seed : Nat
  temperature : Nat
  topP : Nat
  topK : Nat
  draftMax : Nat
  stopCount : Nat
  stopIds : List Nat
  reserved : Bool
deriving DecidableEq, Repr

/-- The fields of 128 bytes. -/
def SeqCmd.ofBytes (b : Bytes) : SeqCmd :=
  { op := leAt b 0 1, flags := leAt b 1 1, seqId := leAt b 4 4, tokAddr := leAt b 8 8, tokCount := leAt b 0x10 4,
    maxLen := leAt b 0x14 4, kvDir := leAt b 0x18 8, seed := leAt b 0x20 8, temperature := leAt b 0x28 4,
    topP := leAt b 0x2C 4, topK := leAt b 0x30 2, draftMax := leAt b 0x32 1, stopCount := leAt b 0x33 1,
    stopIds := (List.range 8).map fun i => leAt b (0x40 + 4 * i) 4,
    reserved := leAt b 2 2 ≠ 0 || leAt b 0x34 12 ≠ 0 || leAt b 0x60 32 ≠ 0 }

/-- Whether a command carries a group of SEQ_PARAMS; SEQ_START carries every one. -/
def SeqCmd.has (c : SeqCmd) (g : Nat) : Bool := c.op = 1 || (c.op = 4 && bitOf c.flags g)

/-- Whether a reserved bit of a field that the op uses is set (R214, R215). -/
def SeqCmd.badBits (c : SeqCmd) : Bool :=
  c.reserved || (c.op = 1 && 2 ≤ c.flags) || (c.op = 4 && 32 ≤ c.flags)
    || ((c.op = 1 || c.op = 2) && 2 ^ 24 ≤ c.tokCount) || (c.has 3 && 2 ^ 24 ≤ c.maxLen)

/-- Whether a field lies outside its range (R214, R215). -/
def SeqCmd.badRange (c : SeqCmd) (vocab : Nat) : Bool :=
  ((c.op = 1 || c.op = 2) && (c.tokCount = 0 || 8388607 < c.tokCount))
    || (c.has 3 && (c.maxLen < 2 || 8388608 < c.maxLen))
    || (c.has 0 && (!(c.temperature < 0x7F800000 || c.temperature = 0x80000000)
        || c.topP = 0 || 0x3F800000 < c.topP || 1024 < c.topK))
    || (c.has 4 && (c.draftMax = 0 || 64 < c.draftMax))
    || (c.has 2 && (8 < c.stopCount || (c.stopIds.take c.stopCount).any fun t => vocab ≤ t))

/-- The status of a command: the first failing check of R215, or 0. -/
def State.seqStatus (s : State) (sl : Nat) (c : SeqCmd) : Nat :=
  let q := s.findSeq sl c.seqId
  if c.op = 0 ∨ 4 < c.op ∨ c.badBits ∨ (c.op = 1 ∧ q.isSome) then eOpcode
  else match s.partitionOf sl, s.binding sl with
    | some pt, some t =>
      let held := match q with | some e => e.2.state = 3 | none => false
      if s.cutBits 6 sl 81 1 = 1 ∨ s.outEntries sl = 0 ∨ (c.op ≠ 1 ∧ q.isNone) ∨ (c.op = 2 ∧ !held)
          ∨ (c.op = 1 ∧ (!inOneVault c.kvDir 8
              || !s.mayReach sl ((s.members pt).headD 0) c.kvDir 8 false)) then ePerm
      else if ((c.op = 1 ∨ c.op = 2) ∧ c.tokAddr % 4 ≠ 0) ∨ (c.op = 1 ∧ c.kvDir % 8 ≠ 0) then eAlign
      else if c.badRange t.vocab ∨ (c.op = 1 ∧ c.maxLen ≤ c.tokCount)
          ∨ (c.op = 2 ∧ q.any fun e => e.2.maxLen < e.2.n + 1 + c.tokCount)
          ∨ (c.op = 1 ∧ (4096 ≤ s.liveSeqs (s.lampDie sl)
              || s.fld F.LAMP_SLICE_CFG_seq_limit sl ≤ (s.seqsOf sl).length)) then eLen
      else 0
    | _, _ => ePerm

/-- A new sequence (R212, R214). -/
def SeqCmd.start (c : SeqCmd) (sl order : Nat) : Seq :=
  { state := 1, keep := bitOf c.flags 0, inStep := false, cancelPending := false, outStall := false, slice := sl,
    seqId := c.seqId, n := 0, pending := none, maxLen := c.maxLen, promptLeft := c.tokCount, tokAddr := c.tokAddr,
    kvDir := c.kvDir, seed := c.seed, temperature := c.temperature, topP := c.topP, topK := c.topK,
    draftMax := c.draftMax, stopCount := c.stopCount, stopIds := c.stopIds, tree := [], lastStep := 0,
    commitMask := 0, commitBase := 0, emitted := 0, order := order }

/-- Nodes of a tree kept under R227, renumbered; `token` is that of the root. -/
def pruneTree (token : Nat) (limit room vocab : Nat) (nodes : List Nat) : List Nat :=
  let kept := nodes.zipIdx.foldl (fun (r : List (Nat × Nat)) (x : Nat × Nat) =>
    let i := x.2 + 1
    match r.find? fun k => k.1 = nodeParent x.1 with
    | some _ =>
      if limit ≤ i ∨ room ≤ i ∨ vocab ≤ nodeToken x.1 then r else r ++ [(i, x.1)]
    | none => r) [(0, node token 0 0)]
  kept.map fun x =>
    if x.1 = 0 then x.2
    else node (nodeToken x.2) (kept.findIdx fun k => k.1 = nodeParent x.2) (nodeDepth x.2)

/-- The changes of a SEQ_PARAMS (R216). -/
def SeqCmd.params (c : SeqCmd) (q : Seq) : Seq :=
  let q := if bitOf c.flags 0 then { q with temperature := c.temperature, topP := c.topP, topK := c.topK } else q
  let q := if bitOf c.flags 1 then { q with seed := c.seed } else q
  let q := if bitOf c.flags 2 then { q with stopCount := c.stopCount, stopIds := c.stopIds } else q
  let q := if bitOf c.flags 3 then { q with maxLen := c.maxLen } else q
  let q := if bitOf c.flags 4 then { q with draftMax := c.draftMax } else q
  if q.inStep then q
  else match q.tree with
    | [] => q
    | r :: ns => { q with tree := pruneTree (nodeToken r) q.draftMax (q.maxLen - q.n) (2 ^ 24) ns }

/-- What an accepted command of status 0 does (R212, R214, R216). -/
def State.seqAct (s : State) (sl : Nat) (c : SeqCmd) : State :=
  let r := s.lampSlice sl
  match c.op, s.findSeq sl c.seqId with
  | 1, _ =>
    match s.freeSeq (s.lampDie sl) with
    | some k => (s.setLamp sl { r with nextOrder := r.nextOrder + 1 }).setSeq k (some (c.start sl r.nextOrder))
    | none => s
  | 2, some (k, q) =>
    let lead := if q.pending.isSome then 1 else 0
    (s.setLamp sl { r with nextOrder := r.nextOrder + 1 }).setSeq k
      (some { q with state := 1, promptLeft := c.tokCount + lead,
                     tokAddr := c.tokAddr, tree := [], order := r.nextOrder })
  | 3, some (k, q) =>
    if q.state = 4 then s
    else if q.inStep then s.setSeq k (some { q with state := 4, cancelPending := true })
    else s.endSeq k q 3 0
  | _, some (k, q) =>
    let q := c.params q
    if bitOf c.flags 3 ∧ !q.inStep ∧ q.state ≠ 4 ∧ q.maxLen ≤ q.n + 1 then s.stopSeq k q 2
    else s.setSeq k (some q)
  | _, none => s

/-- Whether the sequence window accepts commands at all (R353, R365). -/
def State.seqOpen (s : State) (sl : Nat) : Bool := s.portalOpen sl

/-- A write to a slot of the sequence window (R213): accepted on a credit, processed in order, its ACK
record noted; in RUN it arrives on the bound stream (R366). -/
def State.seqWrite (s : State) (sl slot : Nat) (cmd : Bytes) (via : Option Nat) : State :=
  if s.fld F.SLC_STATE_state sl = 0 then s.badAccess 1 (sl * 0x10000 + 0x2000 + slot * 128)
  else if !s.viaOk sl via then s.badSubmission sl
  else if 16 ≤ slot ∨ cmd.length ≠ 128 then s.count F.PORTAL_SEQ_CREDITS_seq_bad_write sl 1
  else if !s.seqOpen sl ∨ s.fld F.PORTAL_SEQ_CREDITS_seq_available sl = 0 then
    s.count F.PORTAL_SEQ_CREDITS_seq_dropped sl 1
  else
    let c := SeqCmd.ofBytes cmd
    let st := s.seqStatus sl c
    let s := s.lower F.PORTAL_SEQ_CREDITS_seq_available sl 1
    let r := s.lampSlice sl
    let s := s.setLamp sl { r with acks := r.acks ++ [⟨c.op, st, c.seqId⟩] }
    if st = 0 then s.seqAct sl c else s

/-- SEQ_START (R213 to R215): also every command whose op is reserved. -/
def execSeqStart (sl winSlot : Nat) (cmd : Bytes) (via : Option Nat) (s : State) :
    Host.Outcome State Fault Refusal :=
  done (if 256 ≤ sl ∨ (2 ≤ leAt cmd 0 1 ∧ leAt cmd 0 1 ≤ 4) then s else s.seqWrite sl winSlot cmd via)

/-- SEQ_EXTEND (R213 to R216). -/
def execSeqExtend (sl winSlot : Nat) (cmd : Bytes) (via : Option Nat) (s : State) :
    Host.Outcome State Fault Refusal :=
  done (if 256 ≤ sl ∨ leAt cmd 0 1 ≠ 2 then s else s.seqWrite sl winSlot cmd via)

/-- SEQ_CANCEL (R212, R213, R215). -/
def execSeqCancel (sl winSlot : Nat) (cmd : Bytes) (via : Option Nat) (s : State) :
    Host.Outcome State Fault Refusal :=
  done (if 256 ≤ sl ∨ leAt cmd 0 1 ≠ 3 then s else s.seqWrite sl winSlot cmd via)

/-- SEQ_PARAMS (R213, R215, R216). -/
def execSeqParams (sl winSlot : Nat) (cmd : Bytes) (via : Option Nat) (s : State) :
    Host.Outcome State Fault Refusal :=
  done (if 256 ≤ sl ∨ leAt cmd 0 1 ≠ 4 then s else s.seqWrite sl winSlot cmd via)

/-- SEQ_WINDOW_BAD_WRITE (R213). -/
def execSeqWindowBadWrite (sl : Nat) (s : State) : Host.Outcome State Fault Refusal :=
  done <|
    if 256 ≤ sl then s
    else if s.fld F.SLC_STATE_state sl = 0 then s.badAccess 1 (sl * 0x10000 + 0x2000)
    else s.count F.PORTAL_SEQ_CREDITS_seq_bad_write sl 1

/-- The ACK record (R228). -/
def Ack.bytes (a : Ack) : Bytes :=
  leBytes 1 2 ++ leBytes 1 0 ++ leBytes 1 a.op ++ leBytes 1 a.status ++ leBytes 4 a.seqId ++ leBytes 56 0

/-- ACK_RECORD_WRITE (R213, R229): waiting records first, then the oldest ACK record, whose credit returns. -/
def execAckRecordWrite (sl : Nat) (s : State) : Host.Outcome State Fault Refusal :=
  done <|
    let s := s.flushOut sl (s.lampSlice sl).out.length
    let r := s.lampSlice sl
    match r.acks with
    | [] => s
    | a :: rest =>
      if !s.outRoom sl then s
      else ((s.setLamp sl { r with acks := rest }).outWrite sl a.bytes).countWrap
        F.PORTAL_SEQ_CREDITS_seq_available sl 1

/-- OUTPUT_COALESCE_TIMEOUT (R230). -/
def execOutputCoalesceTimeout (sl : Nat) (s : State) : Host.Outcome State Fault Refusal :=
  done <|
    let c := s.fld F.PORTAL_OUT_COAL_coal_us sl
    match (s.lampSlice sl).firstAt with
    | some t => if c ≠ 0 ∧ t + c * 1000 ≤ s.time.clk then s.outMessage sl else s
    | none => s

/-! ### The step build (R219 to R222) -/

/-- Room left in the output ring beside the records that wait. -/
def State.outFree (s : State) (sl : Nat) : Nat :=
  s.outEntries sl - (s.fld F.PORTAL_OUT_PTR_head sl + 2 ^ 32 - s.fld F.PORTAL_OUT_PTR_tail sl) % 2 ^ 32
    - (s.lampSlice sl).out.length

/-- A sequence of a build that has room again is not stalled, nor is the slice once none of its sequences is (R229). -/
def State.roomAgain (s : State) (k sl : Nat) : State :=
  if (look none s.seqs k).all fun q => !q.outStall then s
  else
    let s := s.onSeq k fun q => { q with outStall := false }
    if (s.seqsOf sl).any fun e => e.2.outStall then s else s.setLamp sl { s.lampSlice sl with stalled := false }

/-- A sequence held for lack of room (R229): message 4 goes on the first stall after the ring had room. -/
def State.stallSeq (s : State) (k sl : Nat) : State :=
  let s := s.onSeq k fun q => { q with outStall := true }
  if (s.lampSlice sl).stalled then s
  else ((s.setLamp sl { s.lampSlice sl with stalled := true }).count F.PORTAL_SEQ_CREDITS_stall_events sl 1).portalMessage
    sl 4

/-- With room for a decode entry again, nothing of the slice is stalled. -/
def State.unstall (s : State) (sl : Nat) : State :=
  if s.outFree sl < 7 then s
  else
    let s := (s.seqsOf sl).foldl (fun s e => s.setSeq e.1 (some { e.2 with outStall := false })) s
    s.setLamp sl { s.lampSlice sl with stalled := false }

/-- What a build has gathered: entries, rows used, ring records reserved, and whether it has stopped. -/
structure Build where
  entries : List StepEntry
  rows : Nat
  reserved : Nat
  full : Bool
deriving DecidableEq, Repr

/-- Sequences in DECODE that are served, least recently served first (R222). -/
def State.decodeOrder (s : State) (sl : Nat) : List (Nat × Seq) :=
  ((s.seqsOf sl).filter fun e => e.2.state = 2 ∧ !e.2.inStep ∧ !e.2.outStall).mergeSort fun a b =>
    a.2.lastStep < b.2.lastStep || (a.2.lastStep = b.2.lastStep && a.1 ≤ b.1)

/-- Sequences in PREFILL, in acceptance order (R222). -/
def State.prefillOrder (s : State) (sl : Nat) : List (Nat × Seq) :=
  ((s.seqsOf sl).filter fun e => e.2.state = 1 ∧ !e.2.inStep).mergeSort fun a b => a.2.order ≤ b.2.order

/-- One decode candidate (R222). -/
def State.addDecode (t : Template) (sl : Nat) (r : State × Build) (e : Nat × Seq) : State × Build :=
  let (s, b) := r
  if b.full then (s, b)
  else if s.outFree sl < b.reserved + 7 then (s.stallSeq e.1 sl, b)
  else
    let n := max 1 e.2.tree.length
    if t.rowsMax < b.rows + n then (s, { b with full := true })
    else (s, { b with entries := b.entries ++ [⟨e.1, 2, b.rows, n⟩], rows := b.rows + n, reserved := b.reserved + 7 })

/-- The token that begins the prefill of a SEQ_EXTEND: the pending one, which stays so until its chunk is committed
(R210, R216). -/
def Seq.lead (q : Seq) : Option Nat := if q.state = 1 then q.pending else none

/-- The words of a prefill chunk of `c` tokens: the lead token of an extension, then prompt words (R216). -/
def State.promptTokens (s : State) (q : Seq) (c : Nat) : List Nat :=
  match q.lead with
  | some t => t :: (List.range (c - 1)).map fun i => leNat (s.hostBytes (s.pasidOf q.slice) (q.tokAddr + 4 * i) 4)
  | none => (List.range c).map fun i => leNat (s.hostBytes (s.pasidOf q.slice) (q.tokAddr + 4 * i) 4)

/-- Bytes of the prompt that a chunk of `c` tokens fetches. -/
def Seq.fetchLen (q : Seq) (c : Nat) : Nat := 4 * (if q.lead.isSome then c - 1 else c)

/-- One prefill candidate (R215, R222): a fetch that fails or a bad token ends the sequence. -/
def State.addPrefill (t : Template) (sl : Nat) (r : State × Build) (e : Nat × Seq) : State × Build :=
  let (s, b) := r
  let (k, q) := e
  let c := min q.promptLeft (min t.chunkMax (t.rowsMax - b.rows))
  if b.full then (s, b)
  else if c = 0 then (s, { b with full := true })
  else if c = q.promptLeft ∧ s.outFree sl < b.reserved + 2 then (s.stallSeq k sl, b)
  else
    let len := q.fetchLen c
    let pgs := s.untranslated sl (s.pasidOf sl) q.tokAddr len
    if !s.canIssue 0 then (s, b)
    else if pgs ≠ [] then (s.askTranslation sl pgs, b)
    else if s.hostError (s.pasidOf sl) q.tokAddr len then (s.endSeq k q 4 ePoison, b)
    else if (s.promptTokens q c).any fun w => t.vocab ≤ w then (s.endSeq k q 4 eLen, b)
    else (s.roomAgain k sl, { b with entries := b.entries ++ [⟨k, 1, b.rows, c⟩], rows := b.rows + c,
                                     reserved := if c = q.promptLeft then b.reserved + 2 else b.reserved })

/-- The entries of the next step (R222). -/
def State.gather (s : State) (sl : Nat) (t : Template) : State × Build :=
  let r := (s.decodeOrder sl).foldl (State.addDecode t sl) (s, { entries := [], rows := 0, reserved := 0, full := false })
  (r.1.prefillOrder sl).foldl (State.addPrefill t sl) (r.1, { r.2 with full := false })

/-- The 64 bytes of an entry (R220). -/
def stepEntryBytes (e : StepEntry) (q : Seq) : Bytes :=
  leBytes 1 e.kind ++ leBytes 1 (if e.kind = 2 ∨ e.rows = q.promptLeft then 1 else 0) ++ leBytes 2 (e.index % 4096)
    ++ leBytes 4 e.firstRow ++ leBytes 4 e.rows ++ leBytes 4 q.n ++ leBytes 8 q.kvDir ++ leBytes 8 q.seed
    ++ leBytes 4 q.temperature ++ leBytes 4 q.topP ++ leBytes 2 q.topK ++ leBytes 6 0
    ++ leBytes 8 q.commitMask ++ leBytes 4 q.commitBase ++ leBytes 4 0

/-- One row of 16 bytes (R220). -/
def rowBytes (token position parent entry : Nat) (sampled : Bool) : Bytes :=
  leBytes 4 token ++ leBytes 4 position ++ leBytes 4 parent ++ leBytes 2 entry
    ++ leBytes 2 (if sampled then 1 else 0)

/-- The tree of a decode entry: the pending token alone while no tree exists. -/
def Seq.rowsTree (q : Seq) : List Nat :=
  match q.tree with
  | [] => [node (q.pending.getD 0) 0 0]
  | t => t

/-- The rows of an entry in order (R220, R222). -/
def State.entryRows (s : State) (e : StepEntry) (j : Nat) (q : Seq) : List Bytes :=
  if e.kind = 2 then
    q.rowsTree.zipIdx.map fun x =>
      rowBytes (nodeToken x.1) (q.n + nodeDepth x.1)
        (if x.2 = 0 then 0xFFFFFFFF else e.firstRow + nodeParent x.1) j true
  else
    (s.promptTokens q e.rows).zipIdx.map fun x =>
      rowBytes x.1 (q.n + x.2) (if x.2 = 0 then 0xFFFFFFFF else e.firstRow + x.2 - 1) j
        (e.rows = q.promptLeft ∧ x.2 + 1 = e.rows)

/-- The step buffer written (R220). -/
def State.writeStep (s : State) (t : Template) (number : Nat) (b : Build) : State :=
  let hdr := leBytes 8 number ++ leBytes 4 b.rows ++ leBytes 4 b.entries.length ++ leBytes 8 s.tickNo ++ leBytes 40 0
  let es := b.entries.zipIdx.filterMap fun x => (look none s.seqs x.1.index).map fun q => (x.1, x.2, q)
  let ents := es.flatMap fun x => stepEntryBytes x.1 x.2.2
  let rows := (es.flatMap fun x => s.entryRows x.1 x.2.1 x.2.2).flatten
  let s := s.writeMem t.stepBuf hdr false
  let s := s.writeMem (t.stepBuf + 0x40) ents false
  s.writeMem (t.stepBuf + 0x40 + 64 * t.rowsMax) rows false

/-- The member lists submitted to the slice's contexts (R219). -/
def State.submitMembers (s : State) (sl number : Nat) (t : Template) : State :=
  (List.range t.members).foldl (fun s i =>
    let d := s.memberDesc t.table i
    match s.physOf d.core with
    | some p => s.deliver p sl d (some number)
    | none => s) s

/-- A step or fixed batch of a slice starts. -/
def State.startStep (s : State) (sl : Nat) (t : Template) (run : StepRun) : State :=
  let d := s.lampDie sl
  let s := s.setLamp sl { s.lampSlice sl with step := some run, nextStep := run.number }
  let s := s.countWrap F.LAMP_STATUS_steps_in_flight d 1
  s.submitMembers sl run.number t

/-- Whether a step or a batch of a slice may start now (R209, R353, R394). -/
def State.mayStep (s : State) (sl : Nat) : Bool :=
  s.fld F.SLC_STATE_state sl = 2 && (s.lampSlice sl).step.isNone
    && decide (s.fld F.LAMP_STATUS_steps_in_flight (s.lampDie sl) < 16)
    && decide (s.fld F.HLTH_UNIT_state (838 + s.lampDie sl) ≠ 4)

/-- The records that R222 reserves for the entries of a step: seven for a decode entry, two for a last prefill chunk. -/
def State.reservedFor (s : State) (es : List StepEntry) : Nat :=
  es.foldl (fun n e => n + if e.kind = 2 then 7
    else if (look none s.seqs e.index).any fun q => q.promptLeft = e.rows then 2 else 0) 0

/-- A new step record. -/
def Template.run (t : Template) (s : State) (sl : Nat) (entries : List StepEntry) (reserved : Nat) (fixed : Bool)
    (batch : Nat × Bool × Nat) : StepRun :=
  { number := (s.lampSlice sl).nextStep + 1, entries := entries, reserved := reserved,
    waiting := match s.partitionOf sl with | some q => s.members q | none => [],
    status := [], fixed := fixed, doneId := batch.1, doneEn := batch.2.1, doneValue := batch.2.2,
    stepBuf := t.stepBuf, rowsMax := t.rowsMax, draftCap := t.draftCap, vocab := t.vocab }

/-- Whether requests to the table or the step buffer that a slice has bound are held (R22, R392). -/
def State.bindHeld (s : State) (sl : Nat) : Bool :=
  let t := s.readTemplate (s.boundTable sl)
  s.boundTable sl ≠ 0 && (s.rangeHeld (s.boundTable sl) 64 || s.rangeHeld (s.boundTable sl) (64 + 64 * t.members)
    || s.rangeHeld t.stepBuf t.bufLen)

/-- STEP_BUILD (R217, R219 to R222); it waits while requests to its table or step buffer are held (R22). -/
def execStepBuild (sl : Nat) (s : State) : Host.Outcome State Fault Refusal :=
  done <|
    if 256 ≤ sl ∨ !s.mayStep sl ∨ s.cutBits 6 sl 81 1 = 1 ∨ s.bindHeld sl then s
    else
      let s := (s.reportBind sl).unstall sl
      match s.binding sl with
      | none => s
      | some t =>
        let (s, b) := s.gather sl t
        if b.rows = 0 then s
        else
          let run := t.run s sl b.entries b.reserved false (0, false, 0)
          let s := s.writeStep t run.number b
          let s := b.entries.foldl (fun s e =>
            s.onSeq e.index fun q => { q with inStep := true, lastStep := run.number }) s
          (s.startStep sl t run).settle

/-! ### The end of a step (R223, R225 to R227, R384) -/

/-- The result slot of a row. -/
def StepRun.slotAddr (t : StepRun) (row : Nat) : Nat := t.stepBuf + 0x40 + 80 * t.rowsMax + 512 * row

/-- The token sampled for a row. -/
def State.sampled (s : State) (t : StepRun) (row : Nat) : Nat := bits (leNat (s.bytesAt (t.slotAddr row) 4)) 0 24

/-- The proposal of a row: records 1 to c (R221). -/
def State.proposal (s : State) (t : StepRun) (row : Nat) : List Nat :=
  let c := min 63 (leNat (s.bytesAt (t.slotAddr row + 4) 1))
  (List.range c).map fun i => leNat (s.bytesAt (t.slotAddr row + 8 * (i + 1)) 8)

/-- The walk of R225: the accepted nodes from the root, with the tokens sampled at each. -/
def State.walk (s : State) (t : StepRun) (first : Nat) (tree : List Nat) : Nat → Nat → List (Nat × Nat)
  | 0, _ => []
  | fuel + 1, v =>
    let x := s.sampled t (first + v)
    (v, x) :: match (List.range tree.length).find? fun w =>
        decide (v < w) && decide (nodeParent (tree.getD w 0) = v) && decide (nodeToken (tree.getD w 0) = x) with
      | some w => s.walk t first tree fuel w
      | none => []

/-- The stop reason of a token when `n` positions ahead of it are committed (R226), 0 for none. -/
def Seq.stopReason (q : Seq) (n token : Nat) : Nat :=
  if (q.stopIds.take q.stopCount).any fun x => x = token then 1
  else if q.maxLen ≤ n + 1 then 2
  else 0

/-- The accepted nodes up to the token that stops the sequence, and the reason (R226). -/
def Seq.cut (q : Seq) (n : Nat) : List (Nat × Nat) → List (Nat × Nat) × Nat
  | [] => ([], 0)
  | x :: xs =>
    let r := q.stopReason (n + 1) x.2
    if r ≠ 0 then ([x], r)
    else
      let (ys, r) := q.cut (n + 1) xs
      (x :: ys, r)

/-- TOKENS records of at most 12 tokens each (R228); `pos` is the position of the first. -/
def tokensRecs (seqId step : Nat) : Nat → Nat → List Nat → List Bytes
  | 0, _, _ => []
  | _, _, [] => []
  | fuel + 1, pos, ts =>
    let now := ts.take 12
    let rest := ts.drop 12
    (leBytes 1 1 ++ leBytes 1 (if rest = [] then 2 else 0) ++ leBytes 1 now.length ++ leBytes 1 0 ++ leBytes 4 seqId
      ++ leBytes 4 pos ++ leBytes 4 step ++ ((List.range 12).flatMap fun i => leBytes 4 (now.getD i 0)))
      :: tokensRecs seqId step fuel (pos + 12) rest

/-- Tokens emitted (R225, R226): counted, written, and the sequence goes on with its next tree or stops. -/
def State.emit (s : State) (k : Nat) (q : Seq) (t : StepRun) (first : Nat) (toks : List Nat) (drafts reason row : Nat) :
    State :=
  let d := k / 4096
  let s := (s.count F.LAMP_TOKEN_COUNT_emitted d toks.length).count F.LAMP_TOKEN_COUNT_drafts_accepted d drafts
  let last := toks.getLastD 0
  let q := { q with pending := some last, emitted := q.emitted + toks.length, inStep := false, state := 2 }
  let s := s.outPut q.slice ((tokensRecs q.seqId q.lastStep 6 first toks).map fun b => ⟨b, none⟩)
  if reason ≠ 0 then s.stopSeq k q reason
  else
    let room := q.maxLen - q.n
    s.setSeq k (some { q with tree := pruneTree last (min q.draftMax t.draftCap) room t.vocab (s.proposal t row) })

/-- The results of a decode entry (R225, R226). -/
def State.decodeDone (s : State) (t : StepRun) (e : StepEntry) (q : Seq) : State :=
  if q.maxLen ≤ q.n + 1 then s.stopSeq e.index q 2
  else
    let path := s.walk t e.firstRow q.rowsTree 64 0
    let (acc, reason) := q.cut q.n path
    let q' := { q with commitBase := q.n, commitMask := maskOf (acc.map (·.1)), n := q.n + acc.length }
    s.emit e.index q' t (q.n + 1) (acc.map (·.2)) (acc.length - 1) reason
      (e.firstRow + (acc.getLastD (0, 0)).1)

/-- The results of a prefill chunk (R225, R226); a max_len lowered meanwhile to the length reached ends the sequence
(R216). -/
def State.prefillDone (s : State) (t : StepRun) (e : StepEntry) (q : Seq) : State :=
  let q' := { q with n := q.n + e.rows, promptLeft := q.promptLeft - e.rows,
                     tokAddr := q.tokAddr + q.fetchLen e.rows, pending := none, inStep := false,
                     commitBase := q.n, commitMask := 0 }
  if q'.promptLeft ≠ 0 then
    if q'.maxLen ≤ q'.n + 1 then s.stopSeq e.index q' 2 else s.setSeq e.index (some q')
  else
    let row := e.firstRow + e.rows - 1
    let x := s.sampled t row
    s.emit e.index q' t q'.n [x] 0 (q'.stopReason q'.n x) row

/-- The first status other than 0 in ascending core order (R223). -/
def StepRun.failure (t : StepRun) : Nat :=
  (((t.status.filter fun x => x.2 ≠ 0).mergeSort fun a b => a.1 ≤ b.1).head?.map (·.2)).getD 0

/-- The ranges of result slots that Lamplighter reads for an entry (R221, R225): the sampled token of each node of the
walk or of the last prompt row, and the whole slot of the row at which acceptance ends unless the sequence stops
there. -/
def State.slotReads (s : State) (t : StepRun) (e : StepEntry) (q : Seq) : List (Nat × Nat) :=
  if q.state = 4 then []
  else if e.kind = 2 then
    if q.maxLen ≤ q.n + 1 then []
    else
      let path := s.walk t e.firstRow q.rowsTree 64 0
      let (acc, reason) := q.cut q.n path
      path.map (fun x => (t.slotAddr (e.firstRow + x.1), 4))
        ++ if reason = 0 then [(t.slotAddr (e.firstRow + (acc.getLastD (0, 0)).1), 512)] else []
  else if q.promptLeft ≠ e.rows then []
  else
    let row := e.firstRow + e.rows - 1
    [(t.slotAddr row, if q.stopReason (q.n + e.rows) (s.sampled t row) = 0 then 512 else 4)]

/-- Whether what Lamplighter reads of the step buffer carries poison (R384). -/
def State.stepPoison (s : State) (t : StepRun) : Bool :=
  s.anyPoison t.stepBuf (0x40 + 64 * t.entries.length)
    || t.entries.any fun e => s.anyPoison (t.stepBuf + 0x40 + 64 * t.rowsMax + 16 * e.firstRow) (16 * e.rows)
      || (look none s.seqs e.index).any fun q => (s.slotReads t e q).any fun r => s.anyPoison r.1 r.2

/-- One entry of a completed step; `code` is that of a failed step (R212, R223, R384). -/
def State.entryDone (s : State) (t : StepRun) (code : Nat) (e : StepEntry) : State :=
  match look none s.seqs e.index with
  | none => s
  | some q =>
    if q.state = 4 then s.endSeq e.index q 3 0
    else if code ≠ 0 then s.endSeq e.index q 4 code
    else if e.kind = 2 then s.decodeDone t e q
    else s.prefillDone t e q

/-- The end of a fixed batch (R232). -/
def State.batchDone (s : State) (sl : Nat) (t : StepRun) : State :=
  if !t.doneEn then s
  else if t.failure = 0 then s.send sl t.doneId false t.doneValue (2 ^ 20 + sl)
  else s.breakObj sl t.doneId

/-- The step of a slice is over.  Its own records take the room that R222 reserved for them, ahead of records that wait
(R229). -/
def State.finishStep (s : State) (sl : Nat) (t : StepRun) : State :=
  let d := s.lampDie sl
  let waiting := (s.lampSlice sl).out
  let s := s.setLamp sl { s.lampSlice sl with step := none, out := [] }
  let back (s : State) : State := (s.setLamp sl { s.lampSlice sl with out := [] }).outPut sl
    ((s.lampSlice sl).out ++ waiting)
  let s := (s.lower F.LAMP_STATUS_steps_in_flight d 1).countWrap F.LAMP_STATUS_steps d 1
  if t.fixed then back (s.batchDone sl t)
  else
    let before := s.fld F.PORTAL_OUT_PTR_head sl
    let code := if t.failure ≠ 0 then t.failure else if s.stepPoison t then ePoison else 0
    let s := back (t.entries.foldl (fun s e => s.entryDone t code e) s)
    if s.fld F.PORTAL_OUT_COAL_coal_records sl = 0 ∧ s.fld F.PORTAL_OUT_COAL_coal_us sl = 0
        ∧ s.fld F.PORTAL_OUT_PTR_head sl ≠ before then s.outMessage sl else s

/-- STEP_COMPLETE, which waits while requests to the step buffer are held (R22) (R219, R223, R225 to R227, R232). -/
def execStepComplete (sl : Nat) (s : State) : Host.Outcome State Fault Refusal :=
  done <| match (s.lampSlice sl).step with
    | some t =>
      if t.waiting = [] ∧ s.fld F.SLC_STATE_state sl ≠ 5 ∧ !s.rangeHeld t.stepBuf (0x40 + 592 * t.rowsMax) then
        (s.finishStep sl t).settle
      else s
    | none => s

/-! ### Fixed batches (R231, R232) -/

/-- STEP_TRIGGER (R231): the batch is queued.  An object whose enable bit is 0 is not checked (DESIGN CHOICE, log
entry 157). -/
def execStepTrigger (p slot : Nat) (s : State) : Host.Outcome State Fault Refusal :=
  done (s.control p slot 7
    (fun x c => do
      let allowed := decide (x.owner < 256) && s.cutBits 6 x.owner 81 1 = 1
        && s.partitionOf x.owner = some (c.pay 0 8) && (s.binding x.owner).isSome
      opcodeCheck allowed false
      if c.pay 23 1 = 1 ∧ !s.permitted (c.pay 8 15) x.owner then .error (ePerm, c.pay 8 15)
      opcodeCheck true (c.pay 56 72 ≠ 0)
      if 4 ≤ (s.lampSlice x.owner).batches.length then .error (eLen, 0)
      return ())
    fun x c s =>
      let r := s.lampSlice x.owner
      (s.setLamp x.owner { r with batches := r.batches ++ [(c.pay 8 15, decide (c.pay 23 1 = 1), c.pay 24 32)] }).worked
        p slot c.seq false)

/-- FIXED_BATCH_START (R232). -/
def execFixedBatchStart (sl : Nat) (s : State) : Host.Outcome State Fault Refusal :=
  done <|
    let r := s.lampSlice sl
    match r.batches, s.binding sl with
    | b :: rest, some t =>
      if !s.mayStep sl ∨ s.bindHeld sl then s
      else
        let run := t.run s sl [] 0 true b
        ((s.setLamp sl { r with batches := rest }).startStep sl t run).settle
    | _, _ => s

/-! ### Context management (R233, R234, R484) -/

/-- all_blocked of a core's Lamplighter, with the manager event (R233, R484). -/
def State.raiseBlocked (s : State) (p : Nat) : State :=
  let d := p / 144
  let s := (s.setFld F.LAMP_CTX_EVENT_all_blocked d 1).setFld F.LAMP_CTX_EVENT_core d ((s.logicalOf p).getD 0)
  (s.count F.LAMP_CTX_EVENT_blocked_events d 1).managerEvent

/-- The runnable evicted context that cannot be restored, the one evicted earliest (R233). -/
def State.wanting (s : State) (p : Nat) : Option Nat :=
  ([1, 2, 3].foldl (fun (b : Option (Nat × Nat)) sl =>
    match s.ctx p sl with
    | some x =>
      if x.evicted ∧ !x.blocked ∧ !s.restorable p x then
        match b with
        | some (_, t) => if x.evictedAt < t then some (sl, x.evictedAt) else b
        | none => some (sl, x.evictedAt)
      else b
    | none => b) none).map (·.1)

/-- The victim of R233. -/
def State.victim (s : State) (p wanted : Nat) : Option Nat :=
  let need := match s.ctx p wanted with | some x => x.savedGranules | none => 0
  ([1, 2, 3].foldl (fun (b : Option (Nat × Nat)) sl =>
    match s.ctx p sl with
    | some x =>
      if sl ≠ wanted ∧ !x.evicted ∧ x.blocked ∧ s.fld F.CORE_SPM_OWNER_granules (p * 4 + sl) &&& need ≠ 0
          ∧ (x.restoredAt.all fun t => decide (t + s.period ≤ s.time.clk)) then
        match b with
        | some (_, t) => if x.lastRan < t then some (sl, x.lastRan) else b
        | none => some (sl, x.lastRan)
      else b
    | none => b) none).map (·.1)

/-- A spell has lasted detect_us and has not been acted on (R484). -/
def State.spellDue (s : State) (p : Nat) (o : Option (Nat × Bool)) : Bool :=
  match o with
  | some (t, acted) => !acted && decide (t + s.fld F.LAMP_CTX_CFG_detect_us (p / 144) * 1000 ≤ s.time.clk)
  | none => false

/-- Whether the partition of a core evicts on its own. -/
def State.autoEvict (s : State) (p : Nat) : Bool :=
  match (s.logicalOf p).bind s.partitionAt with
  | some q => s.cutBits 5 q 73 1 = 1
  | none => false

/-- What Lamplighter does about a blocked spell of a core (R233). -/
def State.actBlocked (s : State) (p : Nat) : State :=
  if !s.spellDue p (s.core p).blockedSpell then s
  else
    let s := s.setCore p { s.core p with blockedSpell := (s.core p).blockedSpell.map fun v => (v.1, true) }
    match s.wanting p with
    | none => s
    | some w =>
      match (if s.autoEvict p then s.victim p w else none) with
      | some v =>
        (((s.setCore p { s.core p with evictFor := some w }).count F.LAMP_CTX_EVENT_auto_evictions (p / 144) 1).evict
          p v)
      | none => s.raiseBlocked p

/-- What Lamplighter does about a descriptor held while every slot is blocked (R234). -/
def State.actHeld (s : State) (p : Nat) : State :=
  if !s.spellDue p (s.core p).heldSpell then s
  else
    (s.setCore p { s.core p with heldSpell := (s.core p).heldSpell.map fun v => (v.1, true) }).raiseBlocked p

/-- ALL_BLOCKED (R233, R234, R484). -/
def execAllBlocked (p : Nat) (s : State) : Host.Outcome State Fault Refusal :=
  done ((s.actBlocked p).actHeld p).settle

/-- Whether a rental context has been idle for idle_us (R234, R484). -/
def State.idleDue (s : State) (p slot : Nat) : Bool :=
  slot ≠ 0 && (s.core p).evict.all (fun v => v.slot ≠ slot) && (s.ctx p slot).any fun x =>
    !x.frozen && match x.idleSince with
      | some t => decide (t + s.fld F.LAMP_CTX_CFG_idle_us (p / 144) * 1000 ≤ s.time.clk)
      | none => false

/-- A context that has been idle long enough leaves its slot (R234). -/
def State.idleRelease (s : State) (p slot : Nat) : State :=
  if s.idleDue p slot then (s.endContext p slot).admitHeld p else s

/-- CONTEXT_IDLE_RELEASE (R234). -/
def execContextIdleRelease (p slot : Nat) (s : State) : Host.Outcome State Fault Refusal :=
  done (s.idleRelease p slot).settle

/-- A write of LAMP_CTX_CFG (R484): 0 for detect_us is ignored; running spells are acted on at once. -/
def State.ctxCfgWrite (s : State) (d v : Nat) : State :=
  let s := if bits v 0 10 = 0 then s else s.setFld F.LAMP_CTX_CFG_detect_us d (bits v 0 10)
  let s := s.setFld F.LAMP_CTX_CFG_idle_us d (bits v 16 16)
  (s.cores.foldl (fun s e =>
    if e.1 / 144 = d then
      [1, 2, 3].foldl (fun s sl => s.idleRelease e.1 sl) ((s.actBlocked e.1).actHeld e.1)
    else s) s).settle

/-- LAMP_CTX_CFG_WRITE (R484). -/
def execLampCtxCfgWrite (d value : Nat) (s : State) : Host.Outcome State Fault Refusal :=
  done (if 2 ≤ d then s else s.ctxCfgWrite d value)

end Sys2Proof.Machine
end

