-- ==== Sys2Proof/Machine/Slice.lean ====
section
/-!
DEFINITION. Slices (chapter 15): their life cycle and commands, slice reset, dirty-page logging, the slice
image, address translation, credits and TDISP.  The function-level resets of R367 are in
Machine/Host.lean.
-/
namespace Sys2Proof.Machine

/-! ### Life cycle (R353 to R356) -/

/-- State codes of R353. -/
abbrev slAbsent : Nat := 0
abbrev slUnbound : Nat := 1
abbrev slActive : Nat := 2
abbrev slQuiescing : Nat := 3
abbrev slQuiesced : Nat := 4
abbrev slFrozen : Nat := 5
abbrev slResetting : Nat := 6

/-- state of SLC_STATE. -/
def State.slState (s : State) (sl : Nat) : Nat := s.fld F.SLC_STATE_state sl

/-- A slice takes a state; available follows it (R350, R97). -/
def State.setSlState (s : State) (sl st : Nat) : State :=
  (s.setFld F.SLC_STATE_state sl st).creditsChanged sl (s.available sl)

/-- The slots that hold contexts of an owner: physical core and slot. -/
def State.contextsOf (s : State) (sl : Nat) : List (Nat × Nat) :=
  s.cores.flatMap fun e => e.2.ctx.filterMap fun y => match y.2 with
    | some x => if x.owner = sl then some (e.1, y.1) else none
    | none => none

/-- A result of a slice command: last_result, the bit of SLC_DONE and the slice event (R356, R364). -/
def State.sliceResult (s : State) (sl r : Nat) : State :=
  let s := s.setFld F.SLC_CMD_last_result sl r
  (s.setFld F.SLC_DONE_done 0 (s.fld F.SLC_DONE_done 0 ||| 2 ^ sl)).sliceEvent

/-- The command in progress ends with a result. -/
def State.endSliceCmd (s : State) (sl r : Nat) : State :=
  ((s.setSlice sl { s.slice sl with command := none }).setFld F.SLC_CMD_busy sl 0).sliceResult sl r

/-- A command is in progress: it will end with result `v`, or is a FREEZE (16) or a RESET (17). -/
def State.beginSliceCmd (s : State) (sl v : Nat) : State :=
  (s.setSlice sl { s.slice sl with command := some v }).setFld F.SLC_CMD_busy sl 1

/-- A slice command other than RESET (R356): refused while another is in progress. -/
def State.sliceCmd (s : State) (sl : Nat) (act : State → State) : State :=
  if 256 ≤ sl then s
  else if s.fld F.SLC_CMD_busy sl = 1 then s.sliceResult sl 2
  else act s

/-- QUIESCE (R354, R356).  The command ends with the change of state, so that RESUME and FREEZE can reach a
QUIESCING slice (DEDUCED, log entry 60). -/
def State.quiesce (s : State) (sl : Nat) : State :=
  s.sliceCmd sl fun s =>
    if s.slState sl = slActive then (s.setSlState sl slQuiescing).beginSliceCmd sl 0
    else if s.slState sl = slQuiesced then s.beginSliceCmd sl 0
    else s.sliceResult sl 1

/-- QUIESCE (R354). -/
def execQuiesce (sl : Nat) (s : State) : Host.Outcome State Fault Refusal := done (s.quiesce sl)

/-- The contexts of a slice frozen or released (R361). -/
def State.setFrozen (s : State) (sl : Nat) (b : Bool) : State :=
  (s.contextsOf sl).foldl (fun s c => s.onCtx c.1 c.2 fun x => { x with frozen := b }) s

/-- RESUME (R354, R356). -/
def State.resume (s : State) (sl : Nat) : State :=
  s.sliceCmd sl fun s =>
    let st := s.slState sl
    if st = slQuiescing ∨ st = slQuiesced ∨ st = slFrozen then
      (((s.setFrozen sl false).setSlState sl slActive).beginSliceCmd sl 0).settle
    else if st = slActive then s.beginSliceCmd sl 0
    else s.sliceResult sl 1

/-- RESUME (R354). -/
def execResume (sl : Nat) (s : State) : Host.Outcome State Fault Refusal := done (s.resume sl)

/-- FREEZE (R354, R356, R361): it completes at FREEZE_COMPLETE. -/
def State.freeze (s : State) (sl : Nat) : State :=
  s.sliceCmd sl fun s =>
    let st := s.slState sl
    if st = slActive ∨ st = slQuiescing ∨ st = slQuiesced then
      (((s.setFrozen sl true).setSlState sl slFrozen).beginSliceCmd sl 16).settle
    else if st = slFrozen then s.beginSliceCmd sl 0
    else s.sliceResult sl 1

/-- FREEZE (R361). -/
def execFreeze (sl : Nat) (s : State) : Host.Outcome State Fault Refusal := done (s.freeze sl)

/-- Whether an ordered add of an owner is on its way or waits for its turn. -/
def State.addsOf (s : State) (owner : Nat) : Bool :=
  (s.adds ++ s.refused ++ s.ordered.flatMap (·.waiting)).any fun a => a.owner = owner

/-- Whether a request of a slice is in flight: a transaction, an ordered add, which the image of a context does not hold
(R376), engine work, a signal, a translation or page request, or a write not yet accepted (R361). -/
def State.inFlight (s : State) (sl : Nat) : Bool :=
  ((s.contextsOf sl).any fun c =>
      !(s.core c.1).quiet c.2 || (s.ctx c.1 c.2).any fun x => x.queue.any fun q => q.inFlight ≠ 0)
    || (s.cores.any fun e => e.2.loose.any fun f => f.owner = sl) || s.addsOf sl
    || (s.signals.any fun g => g.owner = sl) || (s.host.held.any fun h => h.who = sl)
    || decide ((s.slice sl).pri ≠ []) || decide ((s.slice sl).atsWait ≠ [])

/-- FREEZE_COMPLETE (R361). -/
def execFreezeComplete (sl : Nat) (s : State) : Host.Outcome State Fault Refusal :=
  done (if (s.slice sl).command = some 16 ∧ !s.inFlight sl then s.endSliceCmd sl 0 else s)

/-- The conditions of R355. -/
def State.quiet (s : State) (sl : Nat) : Bool :=
  decide (s.outstanding sl = 0) && (s.cores.all fun e => e.2.held.all fun h => h.portal ≠ sl)
    && (s.lampSlice sl).step.isNone && decide ((s.lampSlice sl).batches = [])
    && decide ((s.lampSlice sl).acks = []) && (s.host.held.all fun h => h.who ≠ sl)
    && (s.cores.all fun e => e.2.loose.all fun f => f.owner ≠ sl)
    && decide ((s.slice sl).pri = [])

/-- Every context of a slice ended (R355, R357), evicted ones included. -/
def State.endContexts (s : State) (sl : Nat) : State :=
  (s.contextsOf sl).foldl (fun s c => s.endContext c.1 c.2) s

/-- QUIESCE_COMPLETE (R355). -/
def execQuiesceComplete (sl : Nat) (s : State) : Host.Outcome State Fault Refusal :=
  done <|
    if s.slState sl = slQuiescing ∧ s.quiet sl then ((s.endContexts sl).setSlState sl slQuiesced).afterAll else s

/-! ### Slice reset (R357, R358, R375) -/

/-- The synchronisation objects that a slice owns. -/
def State.objectsOf (s : State) (sl : Nat) : List Nat :=
  (s.listed .SYNC_OBJ).filter fun n => s.fld F.SYNC_OBJ_owner n = sl

/-- The vault pages that a slice owns, as core * 576 + page in ascending order; an entry outside every partition range
has no effect (R200). -/
def State.pagesOf (s : State) (sl : Nat) : List Nat :=
  (s.listed .CORE_VAULT_PAGE).filter fun i => s.fld F.CORE_VAULT_PAGE_owner i = sl && s.pageInRange (i / 576) (i % 576)

/-- The registers that the portal section of an image holds, in order (R362). -/
def portalRegs : List Reg :=
  [.PORTAL_CREDITS, .PORTAL_STATUS, .PORTAL_CREDIT_MIRROR, .PORTAL_ERR_RING, .PORTAL_ERR_PTR,
   .PORTAL_SEQ_CREDITS, .PORTAL_STEP_BIND, .PORTAL_SEQ_STATUS, .PORTAL_OUT_RING, .PORTAL_OUT_PTR,
   .PORTAL_OUT_COAL]

/-- What Lamplighter holds for a slice dropped: its step, batches, records and sequences (R357). -/
def State.dropLamp (s : State) (sl : Nat) : State :=
  let r := s.lampSlice sl
  let s := if r.step.isSome then s.lower F.LAMP_STATUS_steps_in_flight (s.lampDie sl) 1 else s
  (s.setLamp sl { LampSlice.init with nextStep := r.nextStep, nextOrder := r.nextOrder }).dropSeqs sl

/-- A command without what it has in flight. -/
def QCmd.dropped (c : QCmd) : QCmd := { c with toIssue := 0, inFlight := 0, readsLeft := 0, todo := [], stamps := [] }

/-- Writes of a slice that have not been applied at their homes discarded (R357, step 3): those of Opal, of Garnet's
drains, of ordered adds, and those held for the host. -/
def State.dropFlying (s : State) (sl : Nat) : State :=
  let mine (a : OrdAdd) : Bool := a.owner = sl
  let s := (s.contextsOf sl).foldl (fun s c =>
    (s.setCore c.1 ((s.core c.1).freeBanks c.2)).onCtx c.1 c.2 fun x => { x with queue := x.queue.map QCmd.dropped }) s
  let s := s.cores.foldl (fun s e =>
    s.setCore e.1 { s.core e.1 with loose := (s.core e.1).loose.filter fun f => f.owner ≠ sl }) s
  { s with
    signals := s.signals.filter fun g => g.owner ≠ sl
    adds := s.adds.filter fun a => !mine a
    refused := s.refused.filter fun a => !mine a
    ordered := dropAdds s.ordered mine
    host := { s.host with held := s.host.held.filter fun h => h.who ≠ sl } }

/-- Steps 1 to 7 of R357; the pages are zeroed one by one (PAGE_ZERO_END) and step 8 comes at the end
(RESET_END). -/
def State.startReset (s : State) (sl : Nat) : State :=
  let s := s.setSlice sl { s.slice sl with
    fenced := true, atsWait := [], pri := [], mirrorAt := none, rise := false,
    zeroPages := s.pagesOf sl, release := false, deferred := none }
  let s := s.setFld F.SLC_STATE_state sl slResetting
  let s := s.dropFlying sl
  let s := s.cores.foldl (fun s e =>
    s.setCore e.1 { s.core e.1 with held := (s.core e.1).held.filter fun h => h.portal ≠ sl }) s
  let s := (s.dropLamp sl).endContexts sl
  let s := (s.objectsOf sl).foldl (fun s n =>
    (s.setFld F.SYNC_OBJ_value n 0).setFld F.SYNC_OBJ_broken n 0) s
  (s.passPages sl).afterAll

/-- Whether R354 lets a slice be reset. -/
def State.resettable (s : State) (sl : Nat) : Bool :=
  decide (slActive ≤ s.slState sl) && decide (s.slState sl ≤ slResetting)

/-- A reset of a slice, by command or by TDISP: a command in progress ends as aborted (R356); from
CONFIG_LOCKED or RUN the interface enters ERROR (R365). -/
def State.resetSlice (s : State) (sl : Nat) : State :=
  let s := if (s.slice sl).command.isSome then s.endSliceCmd sl 11 else s
  let s := if s.tdiLocked sl then s.setFld F.SLC_STATE_tdi_state sl 3 else s
  s.startReset sl

/-- RESET (R356, R357). -/
def State.resetCmd (s : State) (sl : Nat) : State :=
  if 256 ≤ sl then s
  else if s.resettable sl then (s.resetSlice sl).beginSliceCmd sl 17
  else s.sliceResult sl 1

/-- RESET (R357). -/
def execReset (sl : Nat) (s : State) : Host.Outcome State Fault Refusal := done (s.resetCmd sl)

/-- RESET_END (R357): once the pages are zero, step 8, and the slice leaves RESETTING. -/
def execResetEnd (sl : Nat) (s : State) : Host.Outcome State Fault Refusal :=
  done <|
    if s.slState sl ≠ slResetting ∨ (s.slice sl).zeroPages ≠ [] then s
    else
      let s := portalRegs.foldl (fun s r => s.setReg r sl (r.resetVal sl)) s
      let s := (s.setFld F.SLC_LOG_STATUS_logging sl 0).setFld F.SLC_ND_TOTAL_total sl 0
      let s := s.setSlice sl { s.slice sl with fenced := false, filter := [], logPending := [] }
      let s := s.setSlState sl (if (s.partitionOf sl).isSome then slActive else slUnbound)
      let s := if (s.slice sl).command = some 17 then s.endSliceCmd sl 0 else s
      s.settle

/-! ### Dirty-page logging (R359, R360) -/

/-- One log entry written, or dropped when the ring is full. -/
def State.logEntry (s : State) (sl pg : Nat) : State :=
  let n := ringEntries (s.fld F.SLC_LOG_RING_size_code sl) 8
  let h := s.fld F.SLC_LOG_PTR_head sl
  if (s.slice sl).fenced then s
  else if ringRoom h (s.fld F.SLC_LOG_PTR_tail sl) n then
    let phase := if h / n % 2 = 0 then 1 else 0
    (s.pf0WriteFor sl (s.fld F.SLC_LOG_RING_base_4k sl * 4096 + h % n * 8) (leBytes 8 (pg * 4096 + phase))).countWrap
      F.SLC_LOG_PTR_head sl 1
  else s.setFld F.SLC_LOG_STATUS_overflow sl 1

/-- Every pending entry written, and the filter cleared. -/
def State.logFlush (s : State) (sl : Nat) : State :=
  let s := (s.slice sl).logPending.foldl (fun s pg => s.logEntry sl pg) s
  s.setSlice sl { s.slice sl with filter := [], logPending := [] }

/-- LOG_START (R359). -/
def State.logStart (s : State) (sl : Nat) : State :=
  s.sliceCmd sl fun s =>
    if s.slState sl ≤ slUnbound then s.sliceResult sl 1
    else ((s.setSlice sl { s.slice sl with filter := [] }).setFld F.SLC_LOG_STATUS_logging sl 1).beginSliceCmd sl 0

/-- LOG_STOP (R359). -/
def State.logStop (s : State) (sl : Nat) : State :=
  s.sliceCmd sl fun s =>
    if s.slState sl = slAbsent then s.sliceResult sl 1
    else ((s.logFlush sl).setFld F.SLC_LOG_STATUS_logging sl 0).beginSliceCmd sl 0

/-- LOG_FLUSH (R359). -/
def State.logFlushCmd (s : State) (sl : Nat) : State :=
  s.sliceCmd sl fun s =>
    if s.slState sl = slAbsent then s.sliceResult sl 1 else (s.logFlush sl).beginSliceCmd sl 0

/-- LOG_START (R359). -/
def execLogStart (sl : Nat) (s : State) : Host.Outcome State Fault Refusal := done (s.logStart sl)

/-- LOG_STOP (R359). -/
def execLogStop (sl : Nat) (s : State) : Host.Outcome State Fault Refusal := done (s.logStop sl)

/-- LOG_FLUSH (R359, R360). -/
def execLogFlush (sl : Nat) (s : State) : Host.Outcome State Fault Refusal := done (s.logFlushCmd sl)

/-! ### The slice image (R362) -/

/-- A record of an image: its type, the fields of its header, and its body. -/
structure ImgRec where
  ty : Nat
  fields : List Nat
  body : Bytes
deriving DecidableEq, Repr

/-- The bytes of a record. -/
def ImgRec.bytes (r : ImgRec) : Bytes := leBytes 64 (Config.recordHeader r.ty r.fields) ++ r.body

/-- Records of a digest log in use. -/
def logUsed (head : Nat) (wrapped : Bool) : Nat := if wrapped then 188416 else min head 188416

/-- The address of the digest log of a slot (R202, R379). -/
def logAddr (n slot : Nat) : Nat := vaultAddr n (saveArea slot + 0x480000)

/-- The save area of a slot as it stands, or would stand, with the context in it (R202): the state in which its record,
banks and Beryl state have been written. -/
def State.spilled (s : State) (p slot n : Nat) : State :=
  if (s.ctx p slot).any (·.evicted) then s
  else (if s.fld F.CORE_LEASE_STATUS_rental_slot p = slot then s.saveEngines p slot else s).saveRecord p slot n

/-- The context record of a slot (R202, R362), and whether a line of it is poisoned: the record, the banks, the Beryl
state with its valid blocks, the granules and the used part of the digest log (log entry 10). -/
def State.contextRec (s : State) (i p slot n : Nat) : Option (ImgRec × Bool) :=
  match s.ctx p slot with
  | none => none
  | some x =>
    let k := p * 4 + slot
    let t := s.spilled p slot n
    let a := vaultAddr n (saveArea slot)
    let mask := s.fld F.CORE_SPM_OWNER_granules k
    let wrapped := decide (s.fld F.CORE_DIGEST_PTR_wrapped k = 1)
    let valid := leNat (t.bytesAt (a + berylArea + 0x52000) 10)
    let runs := [(a, 0x4000), (a + bankArea, 0x10000)]
      ++ ((berylRuns valid).map fun r => (a + berylArea + r.1, r.2))
      ++ ((granulesOf mask).map fun g => (if x.evicted then imageAddr n slot g else granuleAddr n g, 0x10000))
      ++ [(logAddr n slot, logUsed (s.fld F.CORE_DIGEST_PTR_head k) wrapped * 64)]
    let body := runs.flatMap fun r => t.bytesAt r.1 r.2
    some (⟨1, [i, mask, body.length], body⟩, runs.any fun r => t.anyPoison r.1 r.2)

/-- The page record of a page (R362), and whether a line of it is poisoned. -/
def State.pageRec (s : State) (q k : Nat) : Option (ImgRec × Bool) :=
  match s.logicalOf (k / 576) with
  | none => none
  | some n =>
    let a := vaultAddr n (k % 576 * 0x200000)
    some (⟨4, [(s.members q).findIdx (· = n), k % 576, s.fld F.CORE_VAULT_PAGE_others_rd k,
               s.fld F.CORE_VAULT_PAGE_others_wr k], s.bytesAt a 0x200000⟩, s.anyPoison a 0x200000)

/-- The record of a synchronisation object. -/
def State.objectRec (s : State) (n : Nat) : ImgRec :=
  ⟨3, [], leBytes 2 n ++ leBytes 2 0 ++ leBytes 4 (s.fld F.SYNC_OBJ_value n)
    ++ leBytes 1 (s.fld F.SYNC_OBJ_broken n) ++ leBytes Config.objectPad 0⟩

/-- The record of the step or fixed batch in flight: bit i of the bitmap for member i. -/
def State.stepRec (s : State) (q : Nat) (t : StepRun) : ImgRec :=
  let map := (s.members q).zipIdx.foldl (fun m x => if t.waiting.contains x.1 then m + 2 ^ x.2 else m) 0
  ⟨5, [], leBytes 8 t.number ++ leBytes 32 map ++ leBytes 1 (if t.fixed then 0 else 1)
    ++ leBytes Config.stepPad 0⟩

/-- The member_count, vault_len, kv_page_code and steady of a partition, as an image holds them. -/
def State.shapeOf (s : State) (q : Nat) : Bytes :=
  leBytes 2 (s.members q).length ++ leBytes 2 (s.cutBits 5 q 48 16) ++ leBytes 1 (s.cutBits 5 q 64 3)
    ++ leBytes 1 (s.cutBits 5 q 72 1) ++ leBytes 2 0

/-- The value of a portal register in an image, as a read gives it. -/
def State.portalWord (s : State) (sl : Nat) (r : Reg) : Nat :=
  match r with
  | .PORTAL_CREDITS => s.portalCredits sl
  | .PORTAL_SEQ_STATUS => withFld (s.stored r sl) F.PORTAL_SEQ_STATUS_live (s.seqsOf sl).length % 2 ^ 64
  | _ => (s.reg r sl).toNat % 2 ^ 64

/-- The image of a slice, and whether a line that it takes is poisoned. -/
def State.sliceImage (s : State) (sl q : Nat) (vault : Bool) : Bytes × Bool :=
  let cs := (s.members q).zipIdx.filterMap fun x => (s.physOf x.1).bind fun p => (s.slotOf p sl).bind fun slot =>
    s.contextRec x.2 p slot x.1
  let ps := if vault then (s.pagesOf sl).filterMap (s.pageRec q) else []
  let ss := (s.seqsOf sl).map fun e => (⟨2, [e.1 % 4096], e.2.bytes⟩ : ImgRec)
  let os := (s.objectsOf sl).map s.objectRec
  let ts := ((s.lampSlice sl).step.map (s.stepRec q)).toList
  let recs := (cs.map (·.1) ++ ss ++ os ++ ps.map (·.1) ++ ts).flatMap ImgRec.bytes
  let portal := portalRegs.flatMap fun r => leBytes 8 (s.portalWord sl r)
  let head (crc : Nat) : Bytes :=
    leBytes 4 0x32534E46 ++ leBytes 2 1 ++ leBytes 2 (if vault then 1 else 0) ++ leBytes 8 (0x200 + recs.length)
      ++ s.shapeOf q ++ leBytes 4 cs.length ++ leBytes 4 ss.length ++ leBytes 4 os.length ++ leBytes 4 ps.length
      ++ leBytes 8 ts.length ++ leBytes 8 crc ++ leBytes 200 0
      ++ portal ++ leBytes (256 - portal.length) 0
  (head (crc64 (head 0 ++ recs)) ++ recs, (cs.any (·.2)) || ps.any (·.2))

/-- SAVE (R362, R364, R366).  R354 names no state that it needs; it needs a bound slice that is not being
reset (DEDUCED, log entry 61). -/
def State.save (s : State) (sl : Nat) (vault : Bool) : State :=
  s.sliceCmd sl fun s =>
    match s.partitionOf sl with
    | none => s.sliceResult sl 1
    | some q =>
      if s.slState sl = slResetting then s.sliceResult sl 1
      else if s.isConfidential sl then s.beginSliceCmd sl 9
      else
        let (img, bad) := s.sliceImage sl q vault
        let small := decide (s.fld F.SLC_XFER_LEN_buf_len sl < img.length)
        let s := s.setFld F.SLC_XFER_DONE_image_len sl (if small ∨ !bad then img.length else 0)
        if small then s.beginSliceCmd sl 3
        else if bad then s.beginSliceCmd sl 10
        else (s.pf0WriteFor sl (s.fld F.SLC_XFER_ADDR_addr_4k sl * 4096) img).beginSliceCmd sl 19

/-- SAVE (R362). -/
def execSave (sl : Nat) (saveVault : Bool) (s : State) : Host.Outcome State Fault Refusal :=
  done (s.save sl saveVault)

/-! ### RESTORE (R363) -/

/-- Bytes of the body of a record of a type (R362); none for a reserved type. -/
def bodyLen (ty : Nat) (fields : List Nat) : Option Nat :=
  match ty with
  | 1 => some (fields.getD 2 0)
  | 2 => some 640
  | 3 => some (9 + Config.objectPad)
  | 4 => some 0x200000
  | 5 => some (41 + Config.stepPad)
  | _ => none

/-- The records that fill the bytes exactly. -/
def imageRecs : Nat → Bytes → Option (List ImgRec)
  | 0, bs => if bs = [] then some [] else none
  | n + 1, bs =>
    let (ty, fs) := Config.recordFields (bs.take 64)
    match bodyLen ty fs with
    | none => none
    | some len =>
      if bs.length < 64 + len then none
      else (imageRecs n (bs.drop (64 + len))).map fun rs => ⟨ty, fs, (bs.drop 64).take len⟩ :: rs

/-- An image read: its flags, shape, portal section and records; none when its format is invalid. -/
def imageParse (bs : Bytes) : Option (Bytes × Bytes × List ImgRec) :=
  let counts := (List.range 4).map fun i => leAt bs (0x18 + 4 * i) 4
  let n := counts.foldl (· + ·) 0 + leAt bs 0x28 1
  if leAt bs 0 4 ≠ 0x32534E46 ∨ leAt bs 4 2 ≠ 1 ∨ leAt bs 8 8 ≠ bs.length ∨ bs.length < 0x200
      ∨ crc64 (bs.take 0x30 ++ leBytes 8 0 ++ bs.drop 0x38) ≠ leAt bs 0x30 8 then none
  else
    match imageRecs n (bs.drop 0x200) with
    | none => none
    | some rs =>
      let number (ty : Nat) : Nat := (rs.filter fun r => r.ty = ty).length
      if (counts = [number 1, number 2, number 3, number 4]) ∧ (rs.all fun r =>
          r.ty ≠ 1 || (Config.unpackContext r.body).isSome) then
        some ((bs.drop 0x10).take 8, (bs.drop 0x100).take 256, rs)
      else none

/-- The free rental slots of the member cores suffice for the context records (R363, R364). -/
def State.slotsFor (s : State) (q : Nat) (rs : List ImgRec) : Bool :=
  let cs := (rs.filter fun r => r.ty = 1).map fun r => r.fields.headD 0
  cs.all fun i => match ((s.members q)[i]?).bind s.physOf with
    | some p => decide ((cs.filter fun j => j = i).length ≤ ([1, 2, 3].filter fun sl => (s.ctx p sl).isNone).length)
    | none => false

/-- The results of R364 for an image that was fetched, in their order. -/
def State.restoreCheck (s : State) (sl q : Nat) (bs : Bytes) : Nat :=
  match imageParse bs with
  | none => 4
  | some (shape, _, rs) =>
    let seqs := (rs.filter fun r => r.ty = 2).length
    let page (r : ImgRec) : Bool :=
      let base := s.cutBits 5 q 32 16
      r.ty ≠ 4 || (decide (r.fields.headD 0 < (s.members q).length) && decide (base ≤ r.fields.getD 1 0)
        && decide (r.fields.getD 1 0 < base + s.cutBits 5 q 48 16))
    if shape ≠ s.shapeOf q ∨ !rs.all page then 5
    else if !s.slotsFor q rs then 6
    else if s.seqsOf sl ≠ [] ∨ 4096 < s.liveSeqs (s.lampDie sl) + seqs
        ∨ s.fld F.LAMP_SLICE_CFG_seq_limit sl < seqs then 7
    else if rs.any fun r => r.ty = 3 && (s.fld F.SYNC_OBJ_owner (leAt r.body 0 2) ≠ sl
        || s.waiters (leAt r.body 0 2) ≠ 0) then 8
    else 0

/-- A context record restored as an evicted context in the lowest free rental slot of its member core. -/
def State.putContext (s : State) (sl q : Nat) (r : ImgRec) : State :=
  match ((s.members q)[r.fields.headD 0]?).bind (fun n => (s.physOf n).map fun p => (n, p)),
      Config.unpackContext r.body with
  | some (n, p), some (x, nd, head, wrapped) =>
    match s.freeSlot p sl with
    | none => s
    | some slot =>
      let mask := r.fields.getD 1 0 % 2 ^ 64
      let gs := granulesOf mask
      let a := vaultAddr n (saveArea slot)
      let b := r.body
      let runs := [(a, 0x4000), (a + bankArea, 0x10000)]
        ++ ((berylRuns (leAt b 0x16000 10)).map fun r => (a + berylArea + r.1, r.2))
        ++ (gs.map fun g => (imageAddr n slot g, 0x10000))
        ++ [(logAddr n slot, logUsed head wrapped * 64)]
      let k := p * 4 + slot
      let s := s.newContext p slot sl
      let s := s.setCtx p slot (some { x with
        owner := sl, evicted := true, evictedAt := s.time.clk, savedGranules := mask, frozen := true,
        record := b.take 0x4000, savedBeryl := some (x.savedBeryl.getD BerylBank.init)
        lists := x.lists.map fun l => { l with portal := sl }, created := s.total })
      let s := (s.setFld F.CORE_ND_COUNT_count k nd).setFld F.CORE_DIGEST_PTR_head k head
      let s := s.setFld F.CORE_DIGEST_PTR_wrapped k (if wrapped then 1 else 0)
      let s := s.setFld F.CORE_SPM_OWNER_granules k mask
      (runs.foldl (fun (u : State × Bytes) r =>
        (u.1.writeMem r.1 (u.2.take r.2) false, u.2.drop r.2)) (s, b)).1
  | _, _ => s

/-- A sequence record inserted in the lowest FREE entry. -/
def State.putSeq (s : State) (sl : Nat) (r : ImgRec) : State :=
  match s.freeSeq (s.lampDie sl) with
  | none => s
  | some k =>
    let l := s.lampSlice sl
    (s.setLamp sl { l with nextOrder := l.nextOrder + 1 }).setSeq k (some (Seq.ofBytes r.body sl l.nextOrder))

/-- An object record written. -/
def State.putObject (s : State) (r : ImgRec) : State :=
  let n := leAt r.body 0 2
  (s.setFld F.SYNC_OBJ_value n (leAt r.body 4 4)).setFld F.SYNC_OBJ_broken n (leAt r.body 8 1)

/-- A page record written, with the slice as owner. -/
def State.putPage (s : State) (sl q : Nat) (r : ImgRec) : State :=
  match (s.members q)[r.fields.headD 0]? with
  | none => s
  | some n =>
    let pg := r.fields.getD 1 0
    let s := s.writeMem (vaultAddr n (pg * 0x200000)) r.body false
    match s.physOf n with
    | some p => s.setPage (p * 576 + pg) (sl + bits (r.fields.getD 2 0) 0 1 * 2 ^ 9 + bits (r.fields.getD 3 0) 0 1 * 2 ^ 10)
    | none => s

/-- A step record inserted: its entries are those that the step buffer of the bound template holds, under the
table index that each sequence record names (R220, R362). -/
def State.putStep (s : State) (sl q : Nat) (rs : List ImgRec) (r : ImgRec) : State :=
  let t := s.readTemplate (s.boundTable sl)
  let map := leAt r.body 8 32
  let fixed := decide (leAt r.body 40 1 = 0)
  let olds := (rs.filter fun r => r.ty = 2).map fun r => (r.fields.headD 0, leAt r.body 4 4)
  let entry (j : Nat) : Option StepEntry :=
    let b := s.bytesAt (t.stepBuf + 0x40 + 64 * j) 64
    (olds.find? fun o => o.1 = leAt b 2 2).bind fun o => (s.findSeq sl o.2).map fun e =>
      ⟨e.1, leAt b 0 1, leAt b 4 4, leAt b 8 4⟩
  let es := if fixed then [] else (List.range (min 4096 (leNat (s.bytesAt (t.stepBuf + 12) 4)))).filterMap entry
  let run : StepRun :=
    { number := leAt r.body 0 8
      entries := es
      reserved := s.reservedFor es
      waiting := (s.members q).zipIdx.filterMap fun x => if bitOf map x.2 then some x.1 else none
      status := [], fixed := fixed, doneId := 0, doneEn := false, doneValue := 0
      stepBuf := t.stepBuf, rowsMax := t.rowsMax, draftCap := t.draftCap, vocab := t.vocab }
  (s.setLamp sl { s.lampSlice sl with step := some run, nextStep := run.number }).countWrap
    F.LAMP_STATUS_steps_in_flight (s.lampDie sl) 1

/-- The portal section written; the credit limit is the manager's (R363). -/
def State.putPortal (s : State) (sl : Nat) (bs : Bytes) : State :=
  portalRegs.zipIdx.foldl (fun s x =>
    let v := leAt bs (8 * x.2) 8
    if x.1 = .PORTAL_CREDITS then s.setFld F.PORTAL_CREDITS_returned sl (bits v 32 32)
    else s.setReg x.1 sl (BitVec.ofNat _ v)) s

/-- The image installed (R363). -/
def State.install (s : State) (sl q : Nat) (portal : Bytes) (rs : List ImgRec) : State :=
  let of (ty : Nat) : List ImgRec := rs.filter fun r => r.ty = ty
  let s := s.putPortal sl portal
  let s := (of 1).foldl (fun s r => s.putContext sl q r) s
  let s := (of 2).foldl (fun s r => s.putSeq sl r) s
  let s := (of 3).foldl (fun s r => s.putObject r) s
  let s := (of 4).foldl (fun s r => s.putPage sl q r) s
  let s := (of 5).foldl (fun s r => s.putStep sl q rs r) s
  s.setSlState sl slFrozen

/-- The image fetched and installed, or refused with the first failing result in the order of R364, which is answered
with the state; an image that was not fetched can fail only confidential or fetch (R363, R364, R366). -/
def State.restoreRun (s : State) (sl : Nat) : Nat × State :=
  let a := s.fld F.SLC_XFER_ADDR_addr_4k sl * 4096
  let len := s.fld F.SLC_XFER_LEN_buf_len sl
  match s.partitionOf sl with
  | none => (1, s)
  | some q =>
    if s.slState sl ≠ slQuiesced then (1, s)
    else if s.hostError none a len || !s.canIssue 0 then (if s.isConfidential sl then 9 else 10, s)
    else
      let bs := s.hostBytes none a len
      let code := s.restoreCheck sl q bs
      if code ≠ 0 then (code, s)
      else if s.isConfidential sl then (9, s)
      else match imageParse bs with
        | none => (4, s)
        | some (_, portal, rs) => (0, s.install sl q portal rs)

/-- RESTORE (R363, R364, R366): while PF0 may not issue requests, its reads are held at their source (R368). -/
def State.restore (s : State) (sl : Nat) : State :=
  s.sliceCmd sl fun s =>
    if (s.partitionOf sl).isNone ∨ s.slState sl ≠ slQuiesced then s.sliceResult sl 1
    else if !s.canIssue 0 then
      let s := s.beginSliceCmd sl 18
      s.setSlice sl { s.slice sl with since := some s.time.clk }
    else
      let r := s.restoreRun sl
      (r.2.beginSliceCmd sl r.1).settle

/-- RESTORE (R363). -/
def execRestore (sl : Nat) (s : State) : Host.Outcome State Fault Refusal := done (s.restore sl)

/-- SLICE_COMMAND_END (R356): QUIESCE, RESUME, SAVE, RESTORE and the log commands end here, once the writes that they
made have been accepted or have ended as a host error (R359, R368); a RESTORE whose reads were held has them answered,
or ended when they have been held past the wait limit. -/
def execSliceCommandEnd (sl : Nat) (s : State) : Host.Outcome State Fault Refusal :=
  done <| match (s.slice sl).command with
    | some r =>
      if r = 18 then
        if s.canIssue 0 || s.heldOut 257 (s.slice sl).since then
          let v := s.restoreRun sl
          (v.2.endSliceCmd sl v.1).settle
        else s
      else if (r < 16 ∨ r = 19) ∧ s.host.held.all fun h => h.job ≠ some sl then s.endSliceCmd sl (if r = 19 then 0 else r)
      else s
    | none => s

/-! ### Translation (R349) -/

/-- Whether a context of a slice waits for the translation of a page: for its next fetch, for the host reads of
a queued command, or for a held write. -/
def State.needsPage (s : State) (sl pg : Nat) (c : Nat × Nat) : Bool :=
  match s.ctx c.1 c.2 with
  | none => false
  | some x =>
    ((x.lists.find? fun l => l.fetched < l.desc.cmds).any fun l => (s.fetchPages sl l).contains pg)
      || (x.queue.any fun q => q.pages.contains pg)
      || s.host.held.any fun h => match h.req, h.flag with
        | .write _ a d _, some f => h.who = sl && f.1 = c.1 && f.2.1 = c.2 && (pages4k a d.length).contains pg
        | _, _ => false

/-- A page that cannot be translated: the contexts that need it are torn down with ERR_PERM (R349), and the
slice's held writes to it are dropped. -/
def State.pageDenied (s : State) (sl pg : Nat) : State :=
  let cs := (s.contextsOf sl).filter (s.needsPage sl pg)
  let s := cs.foldl (fun s c => s.teardown c.1 c.2 ePerm 0 none) s
  let keep (h : HeldReq) : Bool := match h.req with
    | .write _ a d _ => !(h.who = sl && (pages4k a d.length).contains pg)
    | .msix _ _ => true
  ({ s with host := { s.host with held := s.host.held.filter keep } }).retryHeld.afterAll

/-- TRANSLATION_COMPLETION (R349): a frozen slice issues no new page request (R361), and one that has 32
outstanding waits. -/
def execTranslationCompletion (sl page : Nat) (result : AtsResult) (s : State) :
    Host.Outcome State Fault Refusal :=
  done <|
    let r := s.slice sl
    if !r.atsWait.contains page then s
    else
      let gone := s.setSlice sl { r with atsWait := r.atsWait.erase page }
      match result with
      | .translated => (gone.setSlice sl { gone.slice sl with atc := r.atc ++ [page] }).retryHeld.settle
      | .unsupportedRequest => gone.pageDenied sl page
      | .refused =>
        if s.fld F.SLC_CFG_pri_en sl = 0 then gone.pageDenied sl page
        else if s.slState sl = slFrozen ∨ 32 ≤ r.pri.length then s
        else gone.setSlice sl { gone.slice sl with pri := r.pri ++ [page] }

/-- PAGE_REQUEST_RESPONSE (R349). -/
def execPageRequestResponse (sl page : Nat) (code : PriCode) (s : State) : Host.Outcome State Fault Refusal :=
  done <|
    let r := s.slice sl
    if !r.pri.contains page then s
    else
      let gone := s.setSlice sl { r with pri := r.pri.erase page }
      match code with
      | .success => gone.setSlice sl { gone.slice sl with atsWait := r.atsWait ++ [page] }
      | _ => gone.pageDenied sl page

/-- ATS_INVALIDATION (R349) of the pages from `lo` up to `hi`: requests are accepted as they are issued, so
none that used the range is outstanding, and those held are translated again. -/
def execAtsInvalidation (sl lo hi : Nat) (s : State) : Host.Outcome State Fault Refusal :=
  done (s.setSlice sl { s.slice sl with atc := (s.slice sl).atc.filter fun p => !(lo ≤ p && p < hi) })

/-! ### SLC_CFG (R350) -/

/-- The sum of the credit limits of all slices: SLC_CREDIT_TOTAL. -/
def State.creditTotal (s : State) : Nat :=
  (s.listed .SLC_CFG).foldl (fun n i => n + s.fld F.SLC_CFG_credit_limit i) 0

/-- A write of SLC_CFG (R350, R365). -/
def State.cfgWrite (s : State) (sl v : Nat) : State :=
  let lim := bits v 0 16
  if 256 ≤ sl then s
  else if s.tdiLocked sl ∨ 16384 < s.creditTotal - s.fld F.SLC_CFG_credit_limit sl + lim then
    s.badAccess 0 (0xA00000 + sl * 0x1000)
  else
    let before := s.available sl
    let s := (s.setFld F.SLC_CFG_credit_limit sl lim).setFld F.SLC_CFG_ats_en sl (bits v 16 1)
    ((s.setFld F.SLC_CFG_pri_en sl (bits v 17 1)).creditsChanged sl before).retryHeld

/-- CREDIT_LIMIT_WRITE (R350): `value` is what is written to SLC_CFG. -/
def execCreditLimitWrite (sl value : Nat) (s : State) : Host.Outcome State Fault Refusal :=
  done (s.cfgWrite sl value)

/-- ND_CLEAR (R374): a write of clear to SLC_ND_CLR. -/
def execNdClear (sl : Nat) (s : State) : Host.Outcome State Fault Refusal :=
  done (if 256 ≤ sl then s else s.setFld F.SLC_ND_TOTAL_total sl 0)

/-! ### TDISP (R365, R366, R446) -/

/-- A slice enters ERROR and is reset (R365). -/
def State.tdiError (s : State) (sl : Nat) : State :=
  let s := if s.resettable sl then s.resetSlice sl else s
  s.setFld F.SLC_STATE_tdi_state sl 3

/-- The TDISP state of a slice; available follows it. -/
def State.setTdi (s : State) (sl st : Nat) : State :=
  (s.setFld F.SLC_STATE_tdi_state sl st).creditsChanged sl (s.available sl)

/-- Whether a TDISP message can reach a slice: it travels in a secured session (R446). -/
def State.tdispReach (s : State) (sl : Nat) : Bool :=
  s.isConfidential sl && decide (s.boot.sessions ≠ 0) && decide (s.slState sl ≠ slAbsent)

/-- TDISP_LOCK_INTERFACE (R365, R446): the slice is bound to a stream whose key Onyx holds. -/
def execTdispLockInterface (sl stream : Nat) (s : State) : Host.Outcome State Fault Refusal :=
  done <|
    if s.tdispReach sl ∧ s.fld F.SLC_STATE_tdi_state sl = 0 ∧ (look none s.boot.ideKeys stream).isSome then
      (s.setSlice sl { s.slice sl with stream := some stream }).setTdi sl 1
    else s

/-- TDISP_START_INTERFACE (R365, R366). -/
def execTdispStartInterface (sl : Nat) (s : State) : Host.Outcome State Fault Refusal :=
  done (if s.tdispReach sl ∧ s.fld F.SLC_STATE_tdi_state sl = 1 then s.setTdi sl 2 else s)

/-- TDISP_STOP_INTERFACE (R365): from RUN into ERROR, from ERROR back to CONFIG_UNLOCKED; from CONFIG_LOCKED,
of which the manual does not speak, to CONFIG_UNLOCKED as TDISP has it (PRESUMED, log entry 62). -/
def execTdispStopInterface (sl : Nat) (s : State) : Host.Outcome State Fault Refusal :=
  done <|
    if !s.tdispReach sl then s
    else if s.fld F.SLC_STATE_tdi_state sl = 2 then s.tdiError sl
    else (s.setSlice sl { s.slice sl with stream := none }).setTdi sl 0

/-- The slices bound to an IDE stream that TDISP has locked. -/
def State.streamSlices (s : State) (stream : Nat) : List Nat :=
  (List.range 256).filter fun sl => s.tdiLocked sl && (s.slice sl).stream = some stream

/-- IDE_INTEGRITY_FAILURE (R365). -/
def execIdeIntegrityFailure (stream : Nat) (s : State) : Host.Outcome State Fault Refusal :=
  done ((s.streamSlices stream).foldl (fun s sl => s.tdiError sl) s)

end Sys2Proof.Machine
end

