-- ==== Sys2Proof/Machine/Boot.lean ====
section
/-!
DEFINITION. Onyx (chapter 19): device reset, the boot image, the rollback counter, operator keys,
attestation, the sideband and boundary scan.
-/
namespace Sys2Proof.Machine

/-- boot_state (R442). -/
def State.bootState (s : State) : Nat := s.fld F.DEV_STATUS_boot_state 0

/-- The identity of R443: the device_bind value of R57. -/
def deviceBind : Nat := Config.identityHash % 2 ^ 64

/-- Whether a cut or an enrolment record verifies with a key slot: enrolled and neither revoked nor damaged
(R447). -/
def State.keyGood (s : State) (k : Nat) : Bool :=
  k < 4 && s.fld F.ONYX_KEY_SLOT_enrolled k = 1 && s.fld F.ONYX_KEY_SLOT_revoked k = 0
    && s.fld F.ONYX_KEY_SLOT_damaged k = 0

/-- The key of a slot, least significant byte first. -/
def State.keyOf (s : State) (k : Nat) : Nat := s.fld F.ONYX_KEY_SLOT_public_key k

/-! ### Device reset (R432, R433, R450) -/

/-- The fuses of Onyx carried over into a state (R432). -/
def State.keepFuses (s old : State) : State :=
  let s := s.setFld F.ONYX_SVN_counter 0 (old.fld F.ONYX_SVN_counter 0)
  [0, 1, 2, 3].foldl (fun s k => s.setReg .ONYX_KEY_SLOT k (old.reg .ONYX_KEY_SLOT k)) s

/-- An enrolment cut off by device reset or loss of power (R433): whether fuse programming had begun is a free
value; a key slot whose programming did not finish reads damaged, and a revoked bit is programmed or not. -/
def State.cutEnrol (s : State) : State :=
  match s.boot.enrol with
  | none => s
  | some e =>
    let (v, s) := s.free
    let k := leAt e.record 5 1
    if e.waiting.isSome ∨ e.failed ∨ 4 ≤ k ∨ (v % 2 = 0 ∧ !e.begun) then s
    else if leAt e.record 4 1 = 1 then
      if s.fld F.ONYX_KEY_SLOT_enrolled k = 0 then s.setFld F.ONYX_KEY_SLOT_damaged k 1 else s
    else s.setFld F.ONYX_KEY_SLOT_revoked k 1

/-- Device reset (R432): everything but the fuses returns to its reset value.  The waiting commands, host
memory, the pins and the free values taken are not the part's own. -/
def State.deviceReset (s : State) : State :=
  let s := s.cutEnrol
  let r : State := { State.reset with
    pending := s.pending
    host := { State.reset.host with mem := s.host.mem, poison := s.host.poison, fail := s.host.fail,
                                    sent := s.host.sent }
    power := { State.reset.power with tripped := s.power.tripped, down := s.power.down }
    boot := { State.reset.boot with answer := s.boot.answer }
    pins := s.pins
    lastRead := s.lastRead
    lastPoison := s.lastPoison
    freeCtr := s.freeCtr }
  r.keepFuses s

/-- DEVICE_RESET (R432): 2 µs after a valid write to DEV_RESET, and otherwise because PERST_N goes low. -/
def execDeviceReset (s : State) : Host.Outcome State Fault Refusal :=
  done <| match s.boot.resetAt with
    | some t =>
      if t ≤ s.time.clk then s.deviceReset
      else
        let s := s.deviceReset
        { s with pins := { s.pins with perst := false } }
    | none =>
      let s := s.deviceReset
      { s with pins := { s.pins with perst := false } }

/-- DEV_RESET (R432). -/
def State.resetWrite (s : State) (key : Nat) : State :=
  if key % 65536 = 0xD1E5 then { s with boot := { s.boot with resetAt := some (s.time.clk + 2000) } }
  else s.badAccess 0 8

/-- DEV_RESET (R432). -/
def execDevReset (key : Nat) (s : State) : Host.Outcome State Fault Refusal := done (s.resetWrite key)

/-! ### Start-up (R442) -/

/-- PERST_N_DEASSERT (R442, R454). -/
def execPerstNDeassert (s : State) : Host.Outcome State Fault Refusal :=
  done <|
    if s.pins.perst ∨ !s.pins.auxOn then s
    else
      let scan := match s.boot.scan with
        | .extest => .bypass
        | .clamp => .bypass
        | .highz => .bypass
        | i => i
      { s with pins := { s.pins with perst := true }, boot := { s.boot with scan := scan } }

/-- ROM_INIT_DONE (R432, R442): the memories are zero since the reset, and the bootstrap window opens. -/
def execRomInitDone (s : State) : Host.Outcome State Fault Refusal :=
  done (if s.time.running ∧ s.bootState = 0 then s.setBoot 1 else s)

/-! ### The boot image (R434 to R439) -/

/-- An entry of the directory of an image: type, offset, length and signature offset. -/
structure Stage where
  ty : Nat
  off : Nat
  len : Nat
  sig : Nat
deriving DecidableEq, Repr

/-- Entry j of the directory. -/
def stageAt (b : Bytes) (j : Nat) : Stage :=
  let a := 0x40 + 16 * j
  { ty := leAt b a 1, off := leAt b (a + 4) 4, len := leAt b (a + 8) 4, sig := leAt b (a + 12) 4 }

/-- The used entries with their directory indices. -/
def stagesOf (b : Bytes) : List (Nat × Stage) :=
  ((List.range 8).map fun j => (j, stageAt b j)).filter fun x => x.2.ty ≠ 0

/-- Whether two ranges share a byte. -/
def meets (a b : Nat × Nat) : Bool := decide (a.1 < b.1 + b.2) && decide (b.1 < a.1 + a.2)

/-- The range of a stage, and of its signature. -/
def Stage.range (t : Stage) : Nat × Nat := (t.off, t.len)
def Stage.sigRange (t : Stage) : Nat × Nat := if t.ty = 15 then (0, 0) else (t.sig, 7856)

/-- Whether the format of R435 is broken; a security_version above 64 breaks it too (DEDUCED, log entry 140). -/
def imageBad (b : Bytes) : Bool :=
  let st := stagesOf b
  let n := leAt b 6 1
  let len := leAt b 8 4
  let number (ty : Nat) : Nat := (st.filter fun x => x.2.ty = ty).length
  leAt b 0 4 ≠ 0x32494E46 || leAt b 4 2 ≠ 1 || n < 5 || 6 < n || len % 16 ≠ 0 || leAt b 0xD 3 ≠ 0
    || 64 < leAt b 0xC 1
    || leAt b 0x18 8 ≠ 0 || leAt b 0xC0 64 ≠ 0 || st.length ≠ n
    || ((List.range 8).any fun j => leAt b (0x40 + 16 * j + 1) 3 ≠ 0
        || ((stageAt b j).ty = 0 && leAt b (0x40 + 16 * j) 16 ≠ 0))
    || ([1, 2, 3, 4, 5].any fun ty => number ty ≠ 1) || 1 < number 15
    || (st.any fun x => !([1, 2, 3, 4, 5, 15].contains x.2.ty) || x.2.off % 16 ≠ 0 || x.2.off < 0x100
        || len < x.2.off + x.2.len || (x.2.ty = 15 && x.2.sig ≠ 0) || (x.2.ty ≠ 15 && len < x.2.sig + 7856))
    || st.any fun x => st.any fun y =>
        (x.1 ≠ y.1 && meets x.2.range y.2.range) || meets x.2.range y.2.sigRange

/-- The stage whose signature fails first (R436). -/
def sigFails (b : Bytes) : Option Nat :=
  ((stagesOf b).find? fun x => x.2.ty ≠ 15 && !Config.slhVerify 0 (leAt b 0x20 32)
    (b.take 0x100 ++ (b.drop x.2.off).take x.2.len) ((b.drop x.2.sig).take 7856)).map (·.1)

/-- The result of a verification and its fail_stage (R438). -/
def State.verify (s : State) (b : Bytes) (len : Nat) : Nat × Nat :=
  if imageBad b then (1, 15)
  else if len ≠ leAt b 8 4 ∨ 4194304 < len then (7, 15)
  else if leAt b 7 1 ≠ s.fld F.DEV_STATUS_stepping 0 then (5, 15)
  else if leNat (sha256 ((b.drop 0x20).take 32)) ≠ Config.vendorKeyHash then (2, 15)
  else if leAt b 0xC 1 < s.fld F.ONYX_SVN_counter 0 then (4, 15)
  else match sigFails b with
    | some j => (3, j)
    | none => (0, 15)

/-- The end of a verification: its record, and the next boot_state (R438, R439). -/
def State.verifyResult (s : State) (result stage next : Nat) : State :=
  let s := (s.setFld F.ONYX_BOOT_STATUS_result 0 result).setFld F.ONYX_BOOT_STATUS_fail_stage 0 stage
  let s := s.count F.ONYX_BOOT_STATUS_attempts 0 1
  (s.setFld F.ONYX_BOOT_STATUS_verify_us 0 ((s.time.clk - s.boot.began) / 1000)).setBoot next

/-- The stages loaded (R436, R439). -/
def State.loadStages (s : State) (b : Bytes) : State :=
  let body (ty : Nat) : Bytes := match (stagesOf b).find? fun x => x.2.ty = ty with
    | some x => (b.drop x.2.off).take x.2.len
    | none => []
  let ok := !(body 15).isEmpty && Config.certMatches (body 15)
  let s := (s.setFld F.DEV_STATUS_security_version 0 (leAt b 0xC 1)).setFld F.DEV_STATUS_fw_build 0 (leAt b 0x10 4)
  let s := s.setFld F.ONYX_BOOT_STATUS_cert_ok 0 (if ok then 1 else 0)
  { s with boot := { s.boot with
      stages := [1, 2, 3, 4, 5].map fun ty => sha256 (body ty)
      fwVersion := leAt b 0x10 8
      cert := if ok then body 15 else [] } }

/-- BOOT_GO (R438). -/
def State.bootGo (s : State) (len : Nat) : State :=
  if s.bootState = 1 then
    (({ s with boot := { s.boot with len := len % 2 ^ 23, began := s.time.clk } }).setFld
      F.ONYX_BOOT_CTL_len 0 len).setBoot 2
  else s.badAccess 0 0x200000

/-- BOOT_GO (R438). -/
def execBootGo (len : Nat) (s : State) : Host.Outcome State Fault Refusal := done (s.bootGo len)

/-- VERIFY_END (R438, R439). -/
def execVerifyEnd (s : State) : Host.Outcome State Fault Refusal :=
  done <|
    if s.bootState ≠ 2 then s
    else
      let b := (List.range (min s.boot.len 4194304)).map fun i => look 0 s.boot.window i
      let (code, stage) := s.verify b s.boot.len
      if code = 0 then (s.loadStages b).verifyResult 0 15 3 else s.verifyResult code stage 1

/-- SVN_COMMIT (R440). -/
def State.svnCommit (s : State) : State :=
  let v := s.fld F.DEV_STATUS_security_version 0
  if s.bootState < 4 then s.setFld F.ONYX_SVN_commit_refused 0 1
  else if v ≤ s.fld F.ONYX_SVN_counter 0 then s
  else (s.setFld F.ONYX_SVN_counter 0 v).deviceEvent

/-- SVN_COMMIT (R440). -/
def execSvnCommit (s : State) : Host.Outcome State Fault Refusal := done s.svnCommit

/-! ### Operator keys (R447 to R450) -/

/-- The record of the enrolment fetched (R449). -/
def State.enrolFetch (s : State) : State :=
  let a := s.fld F.ONYX_ENROL_ADDR_addr_4k 0 * 4096
  let len := if s.hostByte none (a + 6) = 0xFF#8 then 64 else 7920
  { s with boot := { s.boot with enrol := some { record := s.hostBytes none a len, waiting := none
                                                 failed := s.hostError none a len, begun := false } } }

/-- An enrolment starts: the record is fetched, or the fetch held while PF0 may not issue it (R368, R426, R449). -/
def State.enrolGo (s : State) : State :=
  if s.fld F.ONYX_ENROL_CTL_busy 0 = 1 ∨ s.bootState < 4 then
    (s.setFld F.ONYX_ENROL_CTL_last_result 0 7).deviceEvent
  else
    let s := s.setFld F.ONYX_ENROL_CTL_busy 0 1
    if s.canIssue 0 then s.enrolFetch
    else { s with boot := { s.boot with enrol := some { record := [], waiting := some s.time.clk, failed := false
                                                        begun := false } } }

/-- ENROL (R448, R449). -/
def execEnrol (s : State) : Host.Outcome State Fault Refusal := done s.enrolGo

/-- The first failing check of a record (R449), 0 for none. -/
def State.enrolCheck (s : State) (e : EnrolOp) : Nat :=
  let b := e.record
  let op := leAt b 4 1
  let k := leAt b 5 1
  let auth := leAt b 6 1
  let fresh := [0, 1, 2, 3].all fun j => s.fld F.ONYX_KEY_SLOT_enrolled j = 0
    && s.fld F.ONYX_KEY_SLOT_revoked j = 0 && s.fld F.ONYX_KEY_SLOT_damaged j = 0
  let used := 4 ≤ k || s.fld F.ONYX_KEY_SLOT_enrolled k = 1 || s.fld F.ONYX_KEY_SLOT_revoked k = 1
    || s.fld F.ONYX_KEY_SLOT_damaged k = 1
  if e.failed then 8
  else if leAt b 0 4 ≠ 0x324B4E46 ∨ op = 0 ∨ 2 < op ∨ leAt b 7 1 ≠ 0 ∨ leAt b 0x30 16 ≠ 0
      ∨ (op = 2 ∧ leAt b 0x10 32 ≠ 0) then 1
  else if leAt b 8 8 ≠ deviceBind then 2
  else if (if auth = 0xFF then decide (op ≠ 1) || !fresh else !s.keyGood auth) then 3
  else if auth ≠ 0xFF ∧ !Config.slhVerify 0 (s.keyOf auth) (b.take 64) (b.drop 64) then 4
  else if (if op = 1 then used else 4 ≤ k || s.fld F.ONYX_KEY_SLOT_enrolled k = 0) then 5
  else if op = 2 ∧ [0, 1, 2, 3].all fun j => j = k || !s.keyGood j then 6
  else 0

/-- The end of an enrolment with a result. -/
def State.enrolResult (s : State) (code : Nat) : State :=
  let s := { s with boot := { s.boot with enrol := none } }
  ((s.setFld F.ONYX_ENROL_CTL_busy 0 0).setFld F.ONYX_ENROL_CTL_last_result 0 code).deviceEvent

/-- The enrolment with its record read: a held fetch is made as soon as PF0 may issue it, and has failed when it has
been held past the wait limit (R368). -/
def State.enrolRead (s : State) : State :=
  match s.boot.enrol with
  | none => s
  | some e =>
    if e.waiting = none then s
    else if s.canIssue 0 then s.enrolFetch
    else if s.heldOut 257 e.waiting then
      { s with boot := { s.boot with enrol := some { e with waiting := none, failed := true } } }
    else s

/-- ENROL_END (R449): nothing ends while the fetch is held. -/
def execEnrolEnd (s : State) : Host.Outcome State Fault Refusal :=
  let s := s.enrolRead
  done <| match s.boot.enrol with
    | none => s
    | some e =>
      if e.waiting.isSome then s
      else
      let code := s.enrolCheck e
      let k := leAt e.record 5 1
      if code ≠ 0 then s.enrolResult code
      else if leAt e.record 4 1 = 1 then
        ((s.setFld F.ONYX_KEY_SLOT_public_key k (leAt e.record 0x10 32)).setFld
          F.ONYX_KEY_SLOT_enrolled k 1).enrolResult 0
      else (s.setFld F.ONYX_KEY_SLOT_revoked k 1).enrolResult 0

/-! ### Attestation (R443 to R446) -/

/-- What Onyx or the sideband answers. -/
def State.answer (s : State) (b : Bytes) : State := { s with boot := { s.boot with answer := b } }

/-- Whether the sideband serves more than control, temperature and boot_state (R452). -/
def State.sidebandFull (s : State) : Bool := s.pins.auxOn && decide (3 ≤ s.bootState)

/-- The code under which a request has its answer. -/
def spdmCode : SpdmRequest → Nat
  | .getVersion => 0
  | .getCapabilities => 1
  | .negotiateAlgorithms => 2
  | .getDigests => 3
  | .getCertificate => 4
  | .challenge => 5
  | .keyExchange => 6
  | .finish => 7
  | .heartbeat => 8
  | .keyUpdate => 9
  | .endSession => 10
  | .chunk => 11
  | .unsupported => 12

/-- Sessions open on a transport, and the most that it keeps (R444). -/
def State.sessionsOn (s : State) (sideband : Bool) : Nat :=
  if sideband then s.boot.sideSessions else s.boot.sessions
def sessionMax (sideband : Bool) : Nat := if sideband then 2 else 4

/-- The sessions of a transport set. -/
def State.setSessions (s : State) (sideband : Bool) (n : Nat) : State :=
  if sideband then { s with boot := { s.boot with sideSessions := n } }
  else { s with boot := { s.boot with sessions := n } }

/-- An SPDM request (R444): KEY_EXCHANGE opens a session while one is left, END_SESSION closes one; a request
that cannot be served is answered as unsupported. -/
def State.spdm (s : State) (sideband : Bool) (r : SpdmRequest) : State :=
  let n := s.sessionsOn sideband
  match r with
  | .keyExchange =>
    if n < sessionMax sideband then (s.setSessions sideband (n + 1)).answer (Config.spdmAnswer 6 n)
    else s.answer (Config.spdmAnswer 12 n)
  | .endSession => (s.setSessions sideband (n - 1)).answer (Config.spdmAnswer (if n = 0 then 12 else 10) n)
  | r => s.answer (Config.spdmAnswer (spdmCode r) n)

/-- SPDM_MESSAGE (R444, R452). -/
def execSpdmMessage (sideband : Bool) (request : SpdmRequest) (s : State) : Host.Outcome State Fault Refusal :=
  done (if sideband ∧ !s.sidebandFull then s else s.spdm sideband request)

/-- The content whose SHA-256 digest an index reports (R445); the stages are kept as digests. -/
def State.measurement (s : State) (i : Nat) : Bytes :=
  match i with
  | 1 => sha256 Config.romIdentity
  | 7 => sha256 (Config.measured 7 [s.boot.fwVersion, s.fld F.DEV_STATUS_security_version 0,
                                    s.fld F.ONYX_SVN_counter 0])
  | 8 => sha256 ([0, 1, 2, 3].flatMap fun k => leBytes 64 (s.reg .ONYX_KEY_SLOT k).toNat)
  | 9 => sha256 (leBytes 8 (s.fld F.CUT_GEN_generation 0) ++ leBytes 32 (s.fld F.CUT_CHAIN_DIGEST_digest 0))
  | 10 => sha256 (Config.measured 10 [s.boot.scanLoads])
  | i => if 2 ≤ i ∧ i ≤ 6 then s.boot.stages.getD (i - 2) [] else []

/-- MEASUREMENTS (R445): the digests of the indices asked for, signed with the identity key. -/
def execMeasurements (sideband : Bool) (indices : List Nat) (s : State) : Host.Outcome State Fault Refusal :=
  done <|
    if sideband ∧ !s.sidebandFull then s
    else
      let b := (indices.filter fun i => 1 ≤ i ∧ i ≤ 10).flatMap fun i => leBytes 1 i ++ s.measurement i
      s.answer (b ++ Config.slhSign b)

/-- IDE_KM_KEY (R446): one of 16 selective streams. -/
def execIdeKmKey (stream key : Nat) (s : State) : Host.Outcome State Fault Refusal :=
  done <|
    if 16 ≤ stream then s
    else { s with boot := { s.boot with ideKeys := put none s.boot.ideKeys stream (some key) } }

/-! ### Sideband and boundary scan (R451 to R454) -/

/-- Whether a temperature counts for its die: die 2 is the I/O die (R402). -/
def dieOf (m : Nat) : Nat := m / 64

/-- The signed temperature of a monitor, in 0.125 °C. -/
def State.tempOf (s : State) (m : Nat) : Int := toSigned 16 (s.fld F.HLTH_MON_temp m)

/-- The sensors of a die that are not excluded (R478). -/
def State.sensors (s : State) (die : Nat) : List Nat :=
  (List.range 144).filter fun m => dieOf m = die && !s.power.excluded.contains m

/-- The highest temperature of a die. -/
def State.hottest (s : State) (die : Nat) : Int :=
  (s.sensors die).foldl (fun t m => if t < s.tempOf m then s.tempOf m else t) (-32768)

/-- MCTP_MESSAGE (R451, R452). -/
def execMctpMessage (request : MctpRequest) (s : State) : Host.Outcome State Fault Refusal :=
  done <|
    if !s.pins.auxOn then s
    else match request with
      | .control => s.answer Config.mctpControl
      | .pldmTemperature die => s.answer (leBytes 2 (ofSigned 16 (s.hottest die)))
      | .pldmBootState =>
        s.answer (leBytes 1 s.bootState ++ leBytes 1 (s.fld F.DEV_STATUS_ready 0))
      | .pldmPower => if s.sidebandFull then s.answer (leBytes 2 (s.power.samples.headD 0)) else s
      | .pldmHealth => if s.sidebandFull then s.answer (leBytes 1 (bits (s.reg .HLTH_EVENT 0).toNat 0 7)) else s
      | .spdm r => if s.sidebandFull then s.spdm true r else s

/-- Whether an instruction drives the balls (R453). -/
def jtagDrives : JtagInstr → Bool
  | .extest => true
  | .clamp => true
  | .highz => true
  | _ => false

/-- JTAG_INSTRUCTION_LOAD (R454): EXTEST, CLAMP and HIGHZ act as BYPASS while PERST_N is high; each of them
that takes effect is counted (DEDUCED, log entry 70). -/
def execJtagInstructionLoad (instr : JtagInstr) (s : State) : Host.Outcome State Fault Refusal :=
  done <|
    if jtagDrives instr then
      if s.pins.perst then { s with boot := { s.boot with scan := .bypass } }
      else { s with boot := { s.boot with scan := instr, scanLoads := s.boot.scanLoads + 1 } }
    else { s with boot := { s.boot with scan := instr } }

end Sys2Proof.Machine
end

