-- ==== Sys2Proof/Machine/Radio.lean ====
section
/-!
DEFINITION. The radio pipeline (R264, R276 to R287): what it is given, slot plans and their entries, the uplink
and downlink chains, PRACH detections, the noise floor and the report ring.  The reference model's own parts
are opaque functions of Config; the formulas that the chapter states are written out over them, in exact
rationals (DESIGN CHOICE, log entry 163).
-/
namespace Sys2Proof.Machine

open Sys2Proof.Config (Cx)

/-! ### Slots (R269, R276) -/

/-- Slots of a frame. -/
def frameSlotCount (b : Bytes) : Nat := 10000000 / cfgSlot b

/-- The frame number and the slot in the frame of a counted slot. -/
def slotFrame (b : Bytes) (n : Nat) : Nat := n / frameSlotCount b % 1024
def slotInFrame (b : Bytes) (n : Nat) : Nat := n % frameSlotCount b

/-- The latest slot that runs or has run at an instant under a frame and slot number. -/
def slotNamed (b : Bytes) (t frame slot : Nat) : Nat :=
  let n := cfgSlots b t
  let per := 1024 * frameSlotCount b
  n - (n + per - (frame * frameSlotCount b + slot) % per) % per

/-- The slot, counted from frame 0, whose plan deadline passed last; a cell counts slots modulo 2^40. -/
def planSlot (b : Bytes) (t : Nat) : Nat := cfgSlots b (t + cfgLead b * 1000) % 2 ^ 40

/-- The start of that slot. -/
def planStart (b : Bytes) (t : Nat) : Nat :=
  cfgSlots b (t + cfgLead b * 1000) * cfgSlot b + cfgOffset b - 10240000000

/-- The cluster-memory offset of the plan buffer of slot `n`. -/
def planBuf (b : Bytes) (n : Nat) : Nat := cfgPlan b + n % 4 * (64 + 64 * cfgEntries b)

/-! ### Plan entries (R277) -/

/-- A plan entry: entry type, flags, RNTI, allocation in resource blocks and symbols, layers, MCS, HARQ, indexes into
the radio table, transport block, detection identifier, and bytes 16 to 47, which hold the DCI, UCI or resource
configuration of types 2, 4, 5 and 6. -/
structure PlanEntry where
  entryType : Nat
  dfts : Bool
  msg3 : Bool
  newData : Bool
  rnti : Nat
  firstBlock : Nat
  blocks : Nat
  firstSymbol : Nat
  symbols : Nat
  layers : Nat
  mcs : Nat
  mcsTable : Nat
  rv : Nat
  harq : Nat
  dmrs : Nat
  precoder : Nat
  tbSize : Nat
  addr : Nat
  detection : Nat
  config : Bytes
deriving DecidableEq, Repr

/-- The 64 bytes of an entry read. -/
def planEntry (e : Bytes) : PlanEntry :=
  { entryType := leAt e 0 1, dfts := bitOf (leAt e 1 1) 0, msg3 := bitOf (leAt e 1 1) 1, newData := bitOf (leAt e 1 1) 2
    rnti := leAt e 2 2, firstBlock := leAt e 4 2, blocks := leAt e 6 2, firstSymbol := leAt e 8 1
    symbols := leAt e 9 1, layers := leAt e 10 1 + 1, mcs := bits (leAt e 11 1) 0 5, mcsTable := bits (leAt e 11 1) 5 3
    rv := bits (leAt e 12 1) 0 2, harq := bits (leAt e 12 1) 2 5, dmrs := leAt e 13 1, precoder := leAt e 14 2
    tbSize := leAt e 16 4, addr := leAt e 20 8, detection := leAt e 28 2, config := (e.drop 16).take 32 }

/-- The entries of a plan buffer as read, each with its place. -/
def planEntries (plan : Bytes) : List (Nat × Bytes) :=
  (List.range (leAt plan 4 2)).map fun i => (i, (plan.drop (64 + 64 * i)).take 64)

/-! ### What the pipeline is given (R264) -/

/-- The radio pipeline's firmware: the digest of stage 4 of the running image (R439). -/
def State.radioFirmware (s : State) : Bytes := s.boot.stages.getD 3 []

/-- An input without the core that takes it: the arithmetic is the same on every core. -/
def RadioIn.bare : RadioIn → RadioIn
  | .packet _ _ b => .packet none 0 b
  | x => x

/-- What the reference model is applied to, with the firmware. -/
def State.radioInputs (s : State) (c : Nat) : List RadioIn := (s.cell c).inputs.map RadioIn.bare

/-- One more input of a cell. -/
def State.giveRadio (s : State) (c : Nat) (x : RadioIn) : State :=
  s.setCell c { s.cell c with inputs := (s.cell c).inputs ++ [x] }

/-! ### Reading a plan (R276) -/

/-- The configuration that counts for the plan of a slot: that of a cell about to start from its start on, and
none from its stop on, nor for a cell that the pipeline does not process (R316). -/
def State.planConfig (s : State) (c : Nat) : Option Bytes :=
  let r := s.cell c
  if !s.cellNative c then none
  else match s.fld F.CLU_CELL_STATE_state c, r.waiting with
  | 0, _ => none
  | 1, some w => if w.at' ≤ planStart w.config s.total then some w.config else none
  | 3, some w => if planStart r.config s.total < w.at' then some r.config else none
  | _, _ => some r.config

/-- Whether a plan header is that of the slot whose deadline passed last: ready, and no more entries than the buffer
has. -/
def planReady (b : Bytes) (t : Nat) (header : Bytes) : Bool :=
  let n := cfgSlots b (t + cfgLead b * 1000)
  leAt header 8 4 = slotFrame b n * 256 + slotInFrame b n + 1 && decide (leAt header 4 2 ≤ cfgEntries b)

/-- The transport blocks to send of a plan, read from the host. -/
def State.planBlocks (s : State) (n : Nat) (plan : Bytes) : List RadioIn :=
  ((planEntries plan).filter fun x => (planEntry x.2).entryType = 1).map fun x =>
    .block n x.1 (s.hostBytes none (planEntry x.2).addr (planEntry x.2).tbSize)

/-- The uplink entries of a plan, whose results the pipeline owes. -/
def planWork (n : Nat) (plan : Bytes) : List UplinkWork :=
  ((planEntries plan).filter fun x => (planEntry x.2).entryType = 3 || (planEntry x.2).entryType = 4).map fun x =>
    { slot := n, index := x.1, entry := x.2 }

/-- PLAN_READ (R276): the buffer is read once; a late plan runs the slot without entries and is counted.  The slot goes
on either way: SSB, CSI-RS, PRACH and the noise floor rest on the configuration. -/
def execPlanRead (cell : Nat) (s : State) : Host.Outcome State Fault Refusal :=
  done <| match s.planConfig cell with
    | none => s
    | some b =>
      let n := planSlot b s.total
      let r := s.cell cell
      if r.lastPlan = some n then s
      else
        let a := clmAddr (s.cellCluster cell) (planBuf b n)
        let h := s.bytesAt a 64
        if planReady b s.total h then
          let plan := s.bytesAt a (64 + 64 * leAt h 4 2)
          s.setCell cell { r with lastPlan := some n, plan := some plan, work := r.work ++ planWork n plan
                                  inputs := r.inputs ++ .plan n plan :: s.planBlocks n plan }
        else (s.setCell cell { r with lastPlan := some n, plan := none, inputs := r.inputs ++ [.plan n []] }).count
          F.CLU_CELL_CNT_plan_late cell 1

/-! ### Received elements (R308, R314) -/

/-- A big-endian field of a frame (R308). -/
def beAt (b : Bytes) (off len : Nat) : Nat := ((b.drop off).take len).foldl (fun n x => n * 256 + x.toNat) 0

/-- What a FIFO packet's header says of its place (R314): the O-RAN common header gives frame modulo 256, subframe, slot
and symbol (the O-RAN document; PRESUMED, log entry 166). -/
def packetFrame (p : Bytes) : Nat := beAt p 9 1
def packetSlot (mu : Nat) (p : Bytes) : Nat := beAt p 10 2 / 4096 * 2 ^ mu + beAt p 10 2 / 64 % 64
def packetSymbol (p : Bytes) : Nat := beAt p 10 2 % 64

/-- Whether a packet is of a PRACH eAxC. -/
def packetPrach (p : Bytes) : Bool := bitOf (leAt p 6 1) 0

/-- The element of a subcarrier in a packet, with startPrbu and the every-other-block bit of its section header. -/
def packetElement (p : Bytes) (sc : Nat) : Option (Int × Int) :=
  let start := beAt p 13 2 % 1024
  let step := 1 + beAt p 13 1 / 8 % 2
  let m := (sc / 12 - start) / step
  let off := 32 + 48 * m + 4 * (sc % 12)
  if start ≤ sc / 12 ∧ (sc / 12 - start) % step = 0 ∧ m < leAt p 18 2 then
    some (toSigned 16 (leAt p off 2), toSigned 16 (leAt p (off + 2) 2))
  else none

/-- The counted slot that a packet names: the latest one of its frame, modulo 256, and slot that runs or has run at the
instant of its move (DESIGN CHOICE, log entry 179). -/
def packetCount (b : Bytes) (t : Nat) (p : Bytes) : Nat :=
  let n := cfgSlots b t
  let per := 256 * frameSlotCount b
  n - (n + per - (packetFrame p * frameSlotCount b + packetSlot (cfgMu b) p) % per) % per

/-- The uplink packets that the pipeline has of a cell with the slots that they name, the latest first. -/
def State.radioPackets (s : State) (c : Nat) : List (Nat × Bytes) :=
  ((s.cell c).inputs.reverse).filterMap fun x => match x with
    | .packet _ n b => some (n, b)
    | _ => none

/-- The received value of an element at a receive port, where one arrived. -/
def State.element (s : State) (c port n sym sc : Nat) : Option (Int × Int) :=
  (s.radioPackets c).findSome? fun x =>
    if x.1 = n && !packetPrach x.2 && leAt x.2 4 2 = s.cellFh c 48 16 + port && packetSymbol x.2 = sym then
      packetElement x.2 sc
    else none

/-- I squared plus Q squared. -/
def energy (x : Int × Int) : Nat := x.1.natAbs ^ 2 + x.2.natAbs ^ 2

/-- The receive ports of a configuration. -/
def rxPorts (b : Bytes) : List Nat := List.range (2 ^ cfgRx b)

/-- Energies summed, with how many there are. -/
def energySum (xs : List (Int × Int)) : Nat × Nat := (xs.foldl (fun t x => t + energy x) 0, xs.length)

/-! ### Complex arithmetic -/

def cxAdd (a b : Cx) : Cx := (a.1 + b.1, a.2 + b.2)
def cxSub (a b : Cx) : Cx := (a.1 - b.1, a.2 - b.2)
def cxMul (a b : Cx) : Cx := (a.1 * b.1 - a.2 * b.2, a.1 * b.2 + a.2 * b.1)
def cxConj (a : Cx) : Cx := (a.1, -a.2)
def cxScale (k : Rat) (a : Cx) : Cx := (k * a.1, k * a.2)
def cxNorm (a : Cx) : Rat := a.1 * a.1 + a.2 * a.2
def cxInv (a : Cx) : Cx := cxScale (1 / cxNorm a) (cxConj a)
def cxSum (l : List Cx) : Cx := l.foldl cxAdd (0, 0)
def cxOf (x : Int × Int) : Cx := (x.1, x.2)

/-- Matrices as lists of rows. -/
abbrev CxMat := List (List Cx)

def matAt (m : CxMat) (i j : Nat) : Cx := (m.getD i []).getD j (0, 0)
def matCols (m : CxMat) : Nat := (m.getD 0 []).length
def matAdjoint (m : CxMat) : CxMat :=
  (List.range (matCols m)).map fun j => m.map fun r => cxConj (r.getD j (0, 0))
def matMul (a b : CxMat) : CxMat :=
  a.map fun r => (List.range (matCols b)).map fun j => cxSum (r.zipIdx.map fun (x, k) => cxMul x (matAt b k j))
def matAdd (a b : CxMat) : CxMat := List.zipWith (List.zipWith cxAdd) a b
def matScale (k : Rat) (a : CxMat) : CxMat := a.map fun r => r.map (cxScale k)

/-- One column of Gauss's elimination: a row that is not zero there becomes the pivot. -/
def matStep (m : CxMat) (i : Nat) : Option CxMat :=
  match (m.drop i).findIdx? fun r => r.getD i (0, 0) ≠ (0, 0) with
  | none => none
  | some j =>
    let r := m.getD (i + j) []
    let p := r.map (cxMul (cxInv (r.getD i (0, 0))))
    let clear (q : List Cx) : List Cx := List.zipWith cxSub q (p.map (cxMul (q.getD i (0, 0))))
    some ((m.take i).map clear ++ [p] ++ ((m.drop i).eraseIdx j).map clear)

/-- The inverse of a square matrix, where it has one. -/
def matInverse (m : CxMat) : Option CxMat :=
  let n := m.length
  let aug := m.zipIdx.map fun (r, i) => r ++ (List.range n).map fun j => if i = j then (1, 0) else (0, 0)
  ((List.range n).foldl (fun o i => match o with
    | some a => matStep a i
    | none => none) (some aug)).map fun a => a.map fun r => r.drop n

/-- A rational rounded to an integer, ties to even (R143). -/
def roundRat (q : Rat) : Int :=
  let f := q.floor
  let d := q - (f : Rat)
  if 1 / 2 < d ∨ (d = 1 / 2 ∧ f % 2 ≠ 0) then f + 1 else f

/-! ### Channel estimate and covariance (R279) -/

/-- What the estimate of one precoding group of an entry rests on: the firmware, the received value by port, symbol
and subcarrier, the known DMRS value by layer, symbol and subcarrier, the subcarriers of the group, the symbols of the
allocation, the layers and the ports. -/
structure PrbGroup where
  fw : Bytes
  rx : Nat → Nat → Nat → Cx
  known : Nat → Nat → Nat → Option Cx
  subs : List Nat
  syms : List Nat
  layers : List Nat
  ports : List Nat

/-- The least-squares estimates of one symbol: the received value times the conjugate of the known value. -/
def PrbGroup.points (g : PrbGroup) (port layer sym : Nat) : List (Nat × Cx) :=
  g.subs.filterMap fun sc => (g.known layer sym sc).map fun x =>
    (sc, Config.radioRound g.fw (cxMul (g.rx port sym sc) (cxConj x)))

/-- Linear interpolation between the nearest of points in ascending order, held constant beyond the outermost ones. -/
def interpolate (pts : List (Nat × Cx)) (x : Nat) : Option Cx :=
  match (pts.filter fun p => p.1 ≤ x).getLast?, pts.find? fun p => x ≤ p.1 with
  | some lo, some hi =>
    if lo.1 = hi.1 then some lo.2
    else some (cxAdd lo.2 (cxScale (((x - lo.1 : Nat) : Rat) / ((hi.1 - lo.1 : Nat) : Rat)) (cxSub hi.2 lo.2)))
  | some lo, none => some lo.2
  | none, some hi => some hi.2
  | none, none => none

/-- The estimate of an element: in frequency within the group at each DMRS symbol, then in time between them. -/
def PrbGroup.estimate (g : PrbGroup) (port layer sym sc : Nat) : Cx :=
  let rows := g.syms.filterMap fun d => (interpolate (g.points port layer d) sc).map fun v => (d, Config.radioRound g.fw v)
  ((interpolate rows sym).map (Config.radioRound g.fw)).getD (0, 0)

/-- The channel of an element, a row for each port. -/
def PrbGroup.channel (g : PrbGroup) (sym sc : Nat) : CxMat :=
  g.ports.map fun p => g.layers.map fun l => g.estimate p l sym sc

/-- The DMRS elements of the group. -/
def PrbGroup.dmrs (g : PrbGroup) : List (Nat × Nat) :=
  g.syms.flatMap fun d => (g.subs.filter fun sc => g.layers.any fun l => (g.known l d sc).isSome).map fun sc => (d, sc)

/-- The residual of a DMRS element at each port: the received value less the known values through the model's fit of the
estimates. -/
def PrbGroup.residual (g : PrbGroup) (d sc : Nat) : List Cx :=
  g.ports.map fun p => cxSub (g.rx p d sc) (cxSum (g.layers.map fun l =>
    match g.known l d sc with
    | some x => cxMul (Config.radioFit g.fw (g.points p l d) sc) x
    | none => (0, 0)))

/-- The noise-plus-interference covariance of the group: the mean outer product of the residuals. -/
def PrbGroup.covariance (g : PrbGroup) : CxMat :=
  let rs := (g.dmrs).map fun x => g.residual x.1 x.2
  let n : Rat := (rs.length : Nat)
  (List.range g.ports.length).map fun i => (List.range g.ports.length).map fun j =>
    Config.radioRound g.fw (cxScale (1 / n) (cxSum (rs.map fun r => cxMul (r.getD i (0, 0)) (cxConj (r.getD j (0, 0))))))

/-! ### Equaliser and demapper (R280, R281) -/

/-- The MMSE interference-rejection combiner of a channel and a covariance: an L by n_rx matrix. -/
def combiner (fw : Bytes) (h r : CxMat) : Option CxMat :=
  (matInverse (matAdd (matMul h (matAdjoint h)) r)).map fun m =>
    (matMul (matAdjoint h) m).map (·.map (Config.radioRound fw))

/-- The gain and the post-equalisation SINR of a layer under a combiner. -/
def layerSinr (w h r : CxMat) (l : Nat) : Cx × Rat :=
  let g := matAt (matMul w h) l l
  let total := (matAt (matMul (matMul w (matAdd (matMul h (matAdjoint h)) r)) (matAdjoint w)) l l).1
  (g, cxNorm g / (total - cxNorm g))

/-- The least squared distance from a symbol to the points whose bit is `v`. -/
def nearest (pts : List (List Bool × Cx)) (i : Nat) (v : Bool) (z : Cx) : Option Rat :=
  (pts.filter fun p => p.1.getD i false = v).foldl (fun o p =>
    let d := cxNorm (cxSub z p.2)
    match o with
    | some x => some (min x d)
    | none => some d) none

/-- The max-log ratio of a bit as INT8: round (4 ln (P0 / P1)), saturated to plus or minus 127; positive favours 0. -/
def softBit (pts : List (List Bool × Cx)) (i : Nat) (z : Cx) (sinr : Rat) : Int :=
  match nearest pts i false z, nearest pts i true z with
  | some d0, some d1 => max (-127) (min 127 (roundRat (4 * (sinr * (d1 - d0)))))
  | _, _ => 0

/-- The 2 by 2 real blocks of a matrix of complex integers, as the B operand of a GMM: two rows for each column of the
matrix, two columns for each of its rows (R131, R281). -/
def realBlocks (m : List (List (Int × Int))) : List (List Int) :=
  (List.range (m.getD 0 []).length).flatMap fun a =>
    let col := m.map fun r => r.getD a (0, 0)
    [col.flatMap fun x => [x.1, x.2], col.flatMap fun x => [-x.2, x.1]]

/-- One cell of the GMM in INT16 and its drain (R140, R145): the value, and whether it saturated in the accumulator or
in the drain. -/
def tileCell (row col : List Int) (shift : Nat) : Int × Bool × Bool :=
  let acc := (row.zip col).foldl (fun (a : Int × Bool) x =>
    let t := a.1 + x.1 * x.2
    (satSigned 32 t, a.2 || decide (satSigned 32 t ≠ t))) (0, false)
  let out := narrowInt 16 acc.1 shift
  (toSigned 16 out.1, acc.2, out.2)

/-- The product of a row of complex values, expanded to reals, with such a matrix on Garnet. -/
def garnetRow (m : List (List (Int × Int))) (shift : Nat) (xs : List (Int × Int)) : List (Int × Int) × Bool × Bool :=
  let b := realBlocks m
  let row := xs.flatMap fun x => [x.1, x.2]
  let cells := (List.range (2 * m.length)).map fun j => tileCell row (b.map fun r => r.getD j 0) shift
  ((List.range m.length).map fun l => ((cells.getD (2 * l) (0, false, false)).1, (cells.getD (2 * l + 1) (0, false, false)).1),
    cells.any (·.2.1), cells.any (·.2.2))

/-- The radio table of the core that takes a symbol: the bytes of its vault region of kind 3 (R61). -/
def State.radioTable (s : State) (n : Nat) : Bytes := match s.regions 3 n with
  | [] => []
  | r :: _ => s.bytesAt (vaultAddr n r.1) r.2

/-- The matrix of an index of a radio table; 0xFFFF stands for the identity (R277). -/
def tableMatrix (fw table : Bytes) (index n : Nat) : List (List (Int × Int)) × Nat :=
  if index = 0xFFFF then ((List.range n).map fun i => (List.range n).map fun j => if i = j then (1, 0) else (0, 0), 0)
  else (Config.radioMatrix fw table index, Config.radioShift fw table index)

/-- The equalised symbol and the SINR of each layer at an element, with the saturations of Garnet: the combiner of R280,
or for a cell of kind 1 the matrix of the radio table on Garnet (R281). -/
def equalise (fw : Bytes) (kind1 : Option (List (List (Int × Int)) × Nat)) (h r : CxMat) (y : List (Int × Int)) :
    List (Cx × Rat) × Bool × Bool :=
  let finish (w : CxMat) (z : List Cx) : List (Cx × Rat) := z.zipIdx.map fun (v, l) =>
    let (g, sinr) := layerSinr w h r l
    (cxMul (cxInv g) v, sinr)
  match kind1 with
  | some (m, shift) =>
    let (z, a, d) := garnetRow m shift y
    (finish (matScale (1 / ((2 ^ shift : Nat) : Rat)) (m.map (·.map cxOf))) (z.map cxOf), a, d)
  | none => match combiner fw h r with
    | some w => (finish w ((matMul w (y.map fun v => [cxOf v])).map fun v => v.getD 0 (0, 0)), false, false)
    | none => ([], false, false)

/-! ### The uplink chain (R278) -/

/-- What the model's parts rest on at a symbol of an entry. -/
def State.radioAt (s : State) (c n : Nat) (entry : Bytes) (sym : Nat) : Config.RadioAt :=
  let b := (s.cell c).config
  { fw := s.radioFirmware, config := b, slot := n % (1024 * frameSlotCount b), entry := entry
    table := match s.symbolCore c sym with
      | some m => s.radioTable m
      | none => [] }

/-- The same at the first symbol of the entry, for what concerns it whole. -/
def State.entryAt (s : State) (c n : Nat) (entry : Bytes) : Config.RadioAt :=
  s.radioAt c n entry (planEntry entry).firstSymbol

/-- The symbols and the subcarriers of an entry. -/
def PlanEntry.syms (e : PlanEntry) : List Nat := (List.range e.symbols).map (e.firstSymbol + ·)
def PlanEntry.subs (e : PlanEntry) : List Nat := (List.range (12 * e.blocks)).map (12 * e.firstBlock + ·)

/-- The subcarriers of a precoding group. -/
def State.groupWidth (s : State) (c n : Nat) (entry : Bytes) : Nat := 12 * max 1 (Config.radioGroup (s.entryAt c n entry))

/-- The precoding group of an entry in which a subcarrier lies. -/
def State.prgOf (s : State) (c n : Nat) (entry : Bytes) (sc : Nat) : PrbGroup :=
  let e := planEntry entry
  let width := s.groupWidth c n entry
  let k := (sc - 12 * e.firstBlock) / width
  let lo := 12 * e.firstBlock + k * width
  let hi := min (lo + width) (12 * (e.firstBlock + e.blocks))
  { fw := s.radioFirmware
    rx := fun p sym x => ((s.element c p n sym x).map cxOf).getD (0, 0)
    known := fun l sym x => Config.radioDmrs (s.radioAt c n entry sym) l sym x
    subs := (List.range (hi - lo)).map (lo + ·)
    syms := e.syms
    layers := List.range e.layers
    ports := rxPorts (s.cell c).config }

/-- The elements of an entry that carry data, symbol by symbol. -/
def State.dataElements (s : State) (c n : Nat) (entry : Bytes) : List (Nat × Nat) :=
  (planEntry entry).syms.flatMap fun sym =>
    ((planEntry entry).subs.filter fun sc => Config.radioData (s.radioAt c n entry sym) sym sc).map fun sc => (sym, sc)

/-- The received values of an element, a row over the receive ports. -/
def State.received (s : State) (c n sym sc : Nat) : List (Int × Int) :=
  (rxPorts (s.cell c).config).map fun p => (s.element c p n sym sc).getD (0, 0)

/-- The combining matrix of an entry at a symbol of a cell of kind 1, from the radio table (R281). -/
def State.combining (s : State) (c n : Nat) (entry : Bytes) (sym : Nat) : List (List (Int × Int)) × Nat :=
  let x := s.radioAt c n entry sym
  tableMatrix x.fw x.table (planEntry entry).precoder (2 ^ cfgRx x.config)

/-- The steps of one symbol in the order of R278: estimate, equalise or combine, inverse DFT, demap.  The answer is the
soft values, in the order subcarrier, layer, bit. -/
def State.softSymbol (s : State) (c n : Nat) (entry : Bytes) (sym : Nat) : List Int :=
  let e := planEntry entry
  let x := s.radioAt c n entry sym
  let subs := e.subs.filter fun sc => Config.radioData x sym sc
  let m := if s.cellKind c = 1 then some (s.combining c n entry sym) else none
  let outs := subs.map fun sc =>
    let g := s.prgOf c n entry sc
    equalise x.fw m (g.channel sym sc) g.covariance (s.received c n sym sc)
  let layer (l : Nat) : List (Cx × Rat) := outs.map fun o => o.1.getD l ((0, 0), 0)
  let layers := (List.range e.layers).map fun l =>
    let zs := layer l
    if e.dfts then (Config.radioIdft x.fw (zs.map (·.1))).zip (zs.map (·.2)) else zs
  let pts := Config.radioPoints (s.entryAt c n entry)
  let nbits := ((pts.map fun p => p.1.length).foldl max 0)
  (List.range subs.length).flatMap fun i => layers.flatMap fun zs =>
    let z := zs.getD i ((0, 0), 0)
    (List.range nbits).map fun k => softBit pts k z.1 z.2

/-- The soft values of a PUSCH, descrambled (R278, R280). -/
def State.softValues (s : State) (c n : Nat) (entry : Bytes) : List Int :=
  let raw := (planEntry entry).syms.flatMap fun sym => s.softSymbol c n entry sym
  raw.zipIdx.map fun (v, i) => if Config.radioScramble (s.entryAt c n entry) i then -v else v

/-! ### Jasper's part (R278, R293 to R304) -/

/-- A job as the pipeline gives it: 64 bytes, without a signal object or a result. -/
def pipeBytes (b : Bytes) : Bytes := (List.range 64).map fun i => if i < 0x3A then b.getD i 0 else 0

/-- A job of the pipeline on a Jasper engine of the cell's cluster: late without a radio engine (R304), checked as any
job (R293), then its blocks one after another and its output, with the counters of the cluster.  It takes no slot of a
ring (DESIGN CHOICE, log entry 180). -/
def State.pipeJob (s : State) (c : Nat) (b : Bytes) : Option JspRun × State :=
  let k := s.cellCluster c
  if !([0, 1, 2].any fun e => s.radioEngine k e) then (none, s.count F.JSP_CNT_late k 1)
  else if s.jobCheck k b ≠ 0 then (none, s.count F.JSP_CNT_error k 1)
  else
    let r := s.cell c
    let s := if jobHarq b = 0 ∨ r.harq.contains (jobHarq b) then s else s.setCell c { r with harq := r.harq ++ [jobHarq b] }
    let x := (List.range (jobC b)).foldl
      (fun (x : State × JspRun) _ => if jobDecode b then x.1.decodeBlock x.2 else x.1.encodeBlock x.2)
      (s, { ring := 0, index := 0, job := b, blk := 0, bits := [], pass := [], poison := false, bad := [] })
    let s := (x.1.jobOutput x.2).count F.JSP_CNT_cb_crc_fail k (x.2.pass.filter (!·)).length
    let s := s.count F.JSP_CNT_done k 1
    (some x.2, if x.2.poison then s.count F.JSP_CNT_poison k 1 else s)

/-- The decoded bits of a job, every CRC removed. -/
def JspRun.payload (r : JspRun) : List Bool :=
  ((List.range (jobC r.job)).flatMap fun i =>
    (r.bits.drop (i * jobInfo r.job)).take (jobInfo r.job - jobCbCrc r.job)).take (jobPayload r.job)

/-- Soft values decoded on Jasper: written where the job reads them, then rate recovery, HARQ combining in the vault
HARQ region, decoding and the CRC check (R278). -/
def State.pipeDecode (s : State) (c : Nat) (job : Bytes) (soft : List Int) : Option JspRun × State :=
  let b := pipeBytes job
  if !jobDecode b ∨ s.jobCheck (s.cellCluster c) b ≠ 0 then s.pipeJob c b
  else (s.writeMem (jobIn b) (soft.map fun v => BitVec.ofNat 8 (ofSigned 8 v)) false).pipeJob c b

/-- What the chain gives for an uplink entry, and the state after it: Jasper's part for a PUSCH, sequence detection or
decoding for a PUCCH.  Without a decoded job its CRC counts as failed (DESIGN CHOICE, log entry 180). -/
def State.uplinkDecode (s : State) (c n : Nat) (entry : Bytes) : Config.RadioResult × State :=
  let e := planEntry entry
  let x := s.entryAt c n entry
  let q := Config.radioQuality x (s.radioInputs c)
  if e.entryType = 3 then
    let (r, s) := s.pipeDecode c (Config.radioJob x) (s.softValues c n entry)
    let ok := r.any fun r => jobDecode r.job && r.result.1
    let block := match r with
      | some r => packBits r.payload 0
      | none => []
    ({ crcOk := ok, dtx := q.dtx, sinr := q.sinr, timing := q.timing, block := block
       decoded := if ok then min block.length e.tbSize else 0 }, s)
  else
    let ys := e.syms.flatMap fun sym => e.subs.flatMap fun sc =>
      (rxPorts (s.cell c).config).map fun p => s.element c p n sym sc
    let p := Config.radioPucch x ys
    match p.job with
    | none => ({ crcOk := p.found, dtx := q.dtx, sinr := q.sinr, timing := q.timing, block := []
                 decoded := Config.radioUci x p.bits }, s)
    | some (b, soft) =>
      let (r, s) := s.pipeDecode c b soft
      ({ crcOk := r.any fun r => jobDecode r.job && r.result.1, dtx := q.dtx, sinr := q.sinr, timing := q.timing
         block := [], decoded := match r with
           | some r => Config.radioUci x r.payload
           | none => 0 }, s)

/-- The first part of it. -/
def State.uplinkOutcome (s : State) (c n : Nat) (entry : Bytes) : Config.RadioResult := (s.uplinkDecode c n entry).1

/-! ### Tiles (R281) -/

/-- A list cut into pieces of `n`. -/
def chunks {α : Type} (n : Nat) (l : List α) : List (List α) :=
  (List.range ((l.length + n - 1) / n)).map fun i => (l.drop (n * i)).take n

/-- The tiles of an entry with the logical core of each: the data elements of one precoding group that a core takes, by
subcarrier and within it by symbol, 64 rows to a tile (R281; the order is DEDUCED, log entry 181). -/
def State.entryTiles (s : State) (c n : Nat) (entry : Bytes) : List (Nat × List (Nat × Nat)) :=
  let e := planEntry entry
  let width := s.groupWidth c n entry
  (List.range ((12 * e.blocks + width - 1) / width)).flatMap fun k =>
    let rows := (e.subs.filter fun sc => (sc - 12 * e.firstBlock) / width = k).flatMap fun sc =>
      (e.syms.filter fun sym => Config.radioData (s.radioAt c n entry sym) sym sc).map fun sym => (sym, sc)
    (s.cellCores c).flatMap fun m =>
      (chunks 64 (rows.filter fun x => s.symbolCore c x.1 = some m)).map fun t => (m, t)

/-- Garnet's saturations over the tiles of an entry: one GMM and one drain for each tile, by what each element's row
saturates. -/
def State.tileCounts (s : State) (c n : Nat) (entry : Bytes) (f : Nat × Nat → Bool × Bool) : State :=
  (s.entryTiles c n entry).foldl (fun s t => match s.physOf t.1 with
    | some p => (s.satCount F.GAR_SAT_COUNT_accum_sat p 0 (t.2.any fun x => (f x).1)).satCount
        F.GAR_SAT_COUNT_drain_sat p 0 (t.2.any fun x => (f x).2)
    | none => s) s

/-- Garnet's saturations while it combines for a cell of kind 1 (R281). -/
def State.combineCounts (s : State) (c n : Nat) (entry : Bytes) : State :=
  if s.cellKind c ≠ 1 ∨ (planEntry entry).entryType ≠ 3 then s
  else s.tileCounts c n entry fun x =>
    let m := s.combining c n entry x.1
    (garnetRow m.1 m.2 (s.received c n x.1 x.2)).2

/-! ### The downlink chain (R278, R281) -/

/-- The entries of the plan of a slot that the pipeline was given. -/
def State.slotPlan (s : State) (c n : Nat) : List (Nat × Bytes) :=
  match (s.cell c).inputs.reverse.findSome? fun x => match x with
      | .plan m plan => if m = n then some plan else none
      | _ => none with
  | some plan => planEntries plan
  | none => []

/-- What Jasper encodes for an entry: the transport block read from the host, or the DCI. -/
def State.entryPayload (s : State) (c n i : Nat) (entry : Bytes) : Bytes :=
  if (planEntry entry).entryType = 2 then Config.radioDci (s.entryAt c n entry)
  else ((s.cell c).inputs.reverse.findSome? fun x => match x with
    | .block m j b => if m = n ∧ j = i then some b else none
    | _ => none).getD []

/-- The encode job of an entry. -/
def State.encodeJob (s : State) (c n : Nat) (entry : Bytes) : Bytes := pipeBytes (Config.radioJob (s.entryAt c n entry))

/-- The scrambled coded bits of an entry (R278, R292). -/
def State.codedBits (s : State) (c n i : Nat) (entry : Bytes) : List Bool :=
  let b := s.encodeJob c n entry
  if jobDecode b ∨ s.jobCheck (s.cellCluster c) b ≠ 0 then []
  else
    let pay := unpackBits (s.entryPayload c n i entry)
    ((List.range (jobC b)).flatMap fun m => jobEncode b m (fitBits (jobPayload b) pay)).zipIdx.map fun (v, m) =>
      v != Config.radioScramble (s.entryAt c n entry) m

/-- The modulated symbols of a PDSCH mapped to layers: a row of layer values for each data element. -/
def State.layerRows (s : State) (c n i : Nat) (entry : Bytes) : List (List (Int × Int)) :=
  let pts := Config.radioPoints (s.entryAt c n entry)
  let nbits := ((pts.map fun p => p.1.length).foldl max 1)
  let syms := (chunks nbits (s.codedBits c n i entry)).map fun bs =>
    Config.radioInt s.radioFirmware (((pts.find? fun p => p.1 = bs).map (·.2)).getD (0, 0))
  chunks (planEntry entry).layers syms

/-- A row of layer values precoded to the antenna ports at a symbol: on Garnet for a cell of kind 1, else on Beryl. -/
def State.precoded (s : State) (c n : Nat) (entry : Bytes) (sym : Nat) (row : List (Int × Int)) :
    List (Int × Int) × Bool × Bool :=
  let x := s.radioAt c n entry sym
  let (m, shift) := tableMatrix x.fw x.table (planEntry entry).precoder (planEntry entry).layers
  if s.cellKind c = 1 then garnetRow m shift row
  else (m.map fun r => Config.radioInt x.fw (cxScale (1 / ((2 ^ shift : Nat) : Rat))
    (cxSum ((r.zip row).map fun y => cxMul (cxOf y.1) (cxOf y.2)))), false, false)

/-- The precoded values of a PDSCH at an element, with Garnet's saturations; none where it carries no data of it. -/
def State.dataAt (s : State) (c n i : Nat) (entry : Bytes) (sym sc : Nat) : Option (List (Int × Int) × Bool × Bool) :=
  ((s.dataElements c n entry).idxOf? (sym, sc)).map fun k =>
    s.precoded c n entry sym ((s.layerRows c n i entry).getD k [])

/-- The value that a port sends at an element of a slot. -/
def State.sentValue (s : State) (c n port sym sc : Nat) : Int × Int :=
  let es := s.slotPlan c n
  match (es.filter fun x => (planEntry x.2).entryType = 1).findSome? fun x => s.dataAt c n x.1 x.2 sym sc with
  | some v => v.1.getD port (0, 0)
  | none => Config.radioSignal (s.radioAt c n [] sym) (s.radioInputs c)
      ((es.filter fun x => (planEntry x.2).entryType = 2).map fun x => s.codedBits c n x.1 x.2) port sym sc

/-- The coding and precoding of an entry of the downlink, once: its Jasper job over the payload written where the job
reads it, and the tiles of a PDSCH of a cell of kind 1 (R281). -/
def State.downlinkEntry (s : State) (c n : Nat) (x : Nat × Bytes) : State :=
  let r := s.cell c
  if r.coded.contains (n, x.1) then s
  else
    let b := s.encodeJob c n x.2
    let s' := s.setCell c { r with coded := r.coded ++ [(n, x.1)] }
    let s' := if jobDecode b ∨ s.jobCheck (s.cellCluster c) b ≠ 0 then s'
      else s'.writeMem (jobIn b) ((s.entryPayload c n x.1 x.2).take ((jobPayload b + 7) / 8)) false
    let s' := if jobDecode b then s' else (s'.pipeJob c b).2
    if s.cellKind c ≠ 1 ∨ (planEntry x.2).entryType ≠ 1 then s'
    else s'.tileCounts c n x.2 fun y => match s.dataAt c n x.1 x.2 y.1 y.2 with
      | some v => v.2
      | none => (false, false)

/-! ### Downlink packets (R266, R309, R319, R328) -/

/-- A number as big-endian bytes. -/
def beOut (len n : Nat) : Bytes := (leBytes len n).reverse

/-- The O-RAN common header of a packet, payload version 1 (the O-RAN document; PRESUMED, log entry 166). -/
def commonHeader (b : Bytes) (p : Config.RadioPacket) : Bytes :=
  let slots := 2 ^ cfgMu b
  let m := slotInFrame b p.slot
  beOut 1 ((if p.control && p.uplink then 0 else 128) + 16 + p.filter % 16) ++ beOut 1 (slotFrame b p.slot % 256)
    ++ beOut 2 (m / slots % 16 * 4096 + m % slots * 64 + p.symbol % 64)

/-- The first four bytes of a section: symInc 0, and a block count of 0 for 256 blocks or more (R309). -/
def sectionHead (x : Config.RadioSection) (n : Nat) : Bytes :=
  beOut 4 (x.id % 4096 * 2 ^ 20 + (if x.every then 2 ^ 19 else 0) + x.start % 1024 * 2 ^ 8 + if 256 ≤ n then 0 else n)

/-- The blocks that a section covers: at least one, at most the carrier. -/
def sectionBlocks (b : Bytes) (x : Config.RadioSection) : Nat := max 1 (min x.blocks (cfgPrb b))

/-- The C-plane section type: 0, 1 or 3 (R309). -/
def controlType (p : Config.RadioPacket) : Nat := if p.kind = 0 ∨ p.kind = 3 then p.kind else 1

/-- A C-plane section: one symbol, no extension. -/
def controlSection (b : Bytes) (t : Nat) (x : Config.RadioSection) : Bytes :=
  sectionHead x (sectionBlocks b x) ++ beOut 2 (x.reMask % 4096 * 16 + 1) ++
    match t with
    | 0 => beOut 2 0
    | 1 => beOut 2 (x.beam % 32768)
    | _ => beOut 2 (x.beam % 32768) ++ beOut 3 (x.offset % 2 ^ 24) ++ beOut 1 0

/-- The bytes of a C-plane message behind its common header (the O-RAN document; PRESUMED, log entry 166). -/
def controlBytes (b : Bytes) (p : Config.RadioPacket) : Bytes :=
  let t := controlType p
  let xs := p.sections.take 255
  beOut 1 xs.length ++ beOut 1 t
    ++ (if t = 1 then beOut 2 0 else beOut 2 p.timeOffset ++ beOut 1 p.frameStructure ++ beOut 2 p.cpLength ++ beOut 1 0)
    ++ xs.flatMap (controlSection b t)

/-- Whether a packet concerns the uplink: a C-plane message of that direction, always one of type 3. -/
def RadioPacket.forUplink (p : Config.RadioPacket) : Bool := p.control && (p.uplink || controlType p = 3)

/-- The antenna port of a packet, of those that the configuration has. -/
def packetPort (b : Bytes) (p : Config.RadioPacket) : Nat :=
  p.port % 2 ^ (if RadioPacket.forUplink p then cfgRx b else cfgTx b)

/-- The eAxC of a packet: that of its port under the receive, transmit or PRACH base of the cell's binding (R328). -/
def State.packetAxc (s : State) (c : Nat) (p : Config.RadioPacket) : Nat :=
  let lo := if p.control && controlType p = 3 then 80 else if RadioPacket.forUplink p then 48 else 64
  s.cellFh c lo 16 + packetPort (s.cell c).config p

/-- The payload of a U-plane packet: 48 bytes for each block of its section, complex INT16 (R319). -/
def State.packetPay (s : State) (c : Nat) (p : Config.RadioPacket) (x : Config.RadioSection) : Bytes :=
  (List.range (sectionBlocks (s.cell c).config x)).flatMap fun m => (List.range 12).flatMap fun i =>
    let v := s.sentValue c (p.slot % 2 ^ 40) (packetPort (s.cell c).config p) p.symbol
      (12 * (x.start + m * if x.every then 2 else 1) + i)
    leBytes 2 (ofSigned 16 v.1) ++ leBytes 2 (ofSigned 16 v.2)

/-- The descriptor word of a packet (R319). -/
def State.descriptor (s : State) (c : Nat) (p : Config.RadioPacket) : Bytes :=
  let b := (s.cell c).config
  let x := p.sections.headD default
  let n := sectionBlocks b x
  leBytes 4 p.launch ++ leBytes 1 (if p.control then 1 else 0) ++ leBytes 1 0 ++ leBytes 2 c
    ++ leBytes 2 (s.packetAxc c p) ++ leBytes 1 (packetPort b p) ++ leBytes 1 0 ++ commonHeader b p
    ++ (if p.control then leBytes 4 0 else sectionHead x n)
    ++ leBytes 2 (if p.control then (controlBytes b p).length else n) ++ leBytes 10 0

/-- The next downlink packet of a cell, where there is one: what the model decides of it. -/
def State.nextPacket (s : State) (c : Nat) : Option Config.RadioPacket :=
  Config.radioPacket s.radioFirmware (s.radioInputs c) (s.cell c).made

/-- The words of a packet. -/
def State.packetBytes (s : State) (c : Nat) (p : Config.RadioPacket) : Bytes :=
  s.descriptor c p ++ if p.control then controlBytes (s.cell c).config p else s.packetPay c p (p.sections.headD default)

/-- The packet made: what its symbol needs of the downlink entries runs first. -/
def State.packetMade (s : State) (c : Nat) (p : Config.RadioPacket) : State :=
  let r := s.cell c
  let s := s.setCell c { r with made := r.made + 1 }
  if p.control then s
  else
    let n := p.slot % 2 ^ 40
    ((s.slotPlan c n).filter fun x => ((planEntry x.2).entryType = 1 || (planEntry x.2).entryType = 2)
        && (planEntry x.2).syms.contains p.symbol).foldl (fun s x => s.downlinkEntry c n x) s

/-! ### Levels (R283) -/

/-- Whether 80 log10 (a / b) is at least k - 1/2, in integers: (a / b)^160 >= 10^(2k - 1). -/
def levelAtLeast (a b : Nat) (k : Int) : Bool :=
  let e := 2 * k - 1
  if 0 ≤ e then decide (b ^ 160 * 10 ^ e.toNat ≤ a ^ 160) else decide (b ^ 160 ≤ a ^ 160 * 10 ^ (-e).toNat)

/-- The greatest k from `lo` up, below `lo + 2^n`, that passes. -/
def levelSearch (a b : Nat) : Nat → Int → Int
  | 0, lo => lo
  | n + 1, lo =>
    let mid : Int := lo + (2 ^ n : Nat)
    if levelAtLeast a b mid then levelSearch a b n mid else levelSearch a b n lo

/-- 10 log10 (a / b) in units of 0.125 dB, rounded under R143 (no value falls halfway), for a and b above
zero. -/
def level (a b : Nat) : Int := levelSearch a b 17 (-65536)

/-- A level as a 16-bit field. -/
def level16 (x : Int) : Nat := ofSigned 16 (satSigned 16 x)

/-- A power field: 10 log10 (num / den) dBFS plus rx_ref, with den carrying the 2^30 of R283.  A mean energy
of zero has no level: the field is an open value of firmware and input (log entry 163). -/
def State.powerField (s : State) (c num den : Nat) : Nat :=
  if num = 0 ∨ den = 0 then Config.zeroLevel s.radioFirmware (s.radioInputs c) % 65536
  else level16 (level num den + cfgRxRef (s.cell c).config)

/-! ### Reports (R286) -/

/-- A report record: 64 bytes with the phase bit of its lap in byte 1, into the ring or dropped. -/
def State.report (s : State) (c : Nat) (record : Bytes) : State :=
  let b := (s.cell c).config
  let n := cfgRingLen b
  let h := s.fld F.CLU_CELL_RING_PTR_head c
  if ringRoom h (s.fld F.CLU_CELL_RING_PTR_tail c) n then
    let phase := (h / n + 1) % 2
    let bs := record.take 1 ++ leBytes 1 (leAt record 1 1 + phase) ++ record.drop 2
    let base := cfgReport b / 64 * 64
    let s := if cfgReport b % 2 = 1 then s.writeMem (base + h % n * 64) bs false
      else s.request 256 (.write none (base + h % n * 64) bs false) none
    s.countWrap F.CLU_CELL_RING_PTR_head c 1
  else s.count F.CLU_CELL_CNT_report_lost c 1

/-! ### PRACH (R282 to R284, R287) -/

/-- One value of the correlation of an occasion: preamble index, timing advance, and the energy per resource element,
averaged over the receive ports, I squared plus Q squared in INT16 units (R283). -/
structure Peak where
  index : Nat
  ta : Nat
  energy : Rat
deriving DecidableEq, Repr

/-- The received samples of an occasion at a receive port, in the order in which they arrived: of packets of the frame's
length of slots that ends with the occasion. -/
def State.occasionSamples (s : State) (c n occ port : Nat) : List Cx :=
  let b := (s.cell c).config
  ((s.radioPackets c).reverse.filter fun x => packetPrach x.2 && leAt x.2 4 2 = s.cellFh c 80 16 + port
      && decide (x.1 ≤ n) && decide (n < x.1 + frameSlotCount b)
      && Config.prachPacket s.radioFirmware b (slotFrame b n) (slotInFrame b n) occ (x.2.take 32)).flatMap fun x =>
    (List.range (12 * leAt x.2 18 2)).map fun i =>
      cxOf (toSigned 16 (leAt x.2 (32 + 4 * i) 2), toSigned 16 (leAt x.2 (34 + 4 * i) 2))

/-- The correlation of an occasion over the 64 preamble indexes and the timing window, which R282 bounds by 3,846. -/
def State.correlation (s : State) (c n occ : Nat) : List Peak :=
  let b := (s.cell c).config
  let ports := (rxPorts b).map (s.occasionSamples c n occ)
  (List.range (min (Config.prachWindow s.radioFirmware b) 3847)).flatMap fun ta => (List.range 64).map fun i =>
    let sum := ports.map fun y =>
      let x := cxSum (y.zipIdx.map fun (v, m) => cxMul v (cxConj (Config.prachValue s.radioFirmware b i ta m)))
      if y = [] then 0 else cxNorm x / ((y.length ^ 2 : Nat) : Rat)
    { index := i, ta := ta, energy := (Config.radioRound s.radioFirmware (sum.foldl (· + ·) 0 / ((ports.length : Nat) : Rat), 0)).1 }

/-- Whether a value's ratio to the noise reaches the threshold, unrounded. -/
def peakCounts (thr : Nat) (noise : Rat) (k : Peak) : Bool :=
  decide (0 < k.energy) && decide ((10 ^ thr : Nat) * noise ^ 80 ≤ k.energy ^ 80)

/-- Whether a value is a local maximum over the timing of its index; of a plateau, its first value. -/
def localMax (ks : List Peak) (k : Peak) : Bool :=
  ks.all fun o => o.index ≠ k.index || ((o.ta + 1 ≠ k.ta || decide (o.energy < k.energy))
    && (o.ta ≠ k.ta + 1 || decide (o.energy ≤ k.energy)))

/-- The peaks of a correlation under a noise estimate. -/
def peaksAt (thr : Nat) (ks : List Peak) (noise : Rat) : List Peak :=
  ks.filter fun k => peakCounts thr noise k && localMax ks k

/-- The mean energy outside a list of peaks. -/
def meanOutside (ks out : List Peak) : Rat :=
  let rest := ks.filter fun k => !out.contains k
  (rest.map (·.energy)).foldl (· + ·) 0 / ((rest.length : Nat) : Rat)

/-- The noise estimate, the mean energy outside all peaks: from the mean of all values, taken again until the peaks no
longer change (DESIGN CHOICE, log entry 164). -/
def noiseSearch (thr : Nat) (ks : List Peak) : Nat → Rat → Rat
  | 0, x => x
  | fuel + 1, x =>
    let y := meanOutside ks (peaksAt thr ks x)
    if y = x then x else noiseSearch thr ks fuel y
def noiseEstimate (thr : Nat) (ks : List Peak) : Rat := noiseSearch thr ks ks.length (meanOutside ks [])

/-- Peaks of one index in one timing bin. -/
def sameBin (win : Nat) (a b : Peak) : Bool := a.index = b.index && a.ta / win = b.ta / win

/-- Whether `a` is reported before `b` of the same bin: stronger, or equal with the lower TA. -/
def stronger (a b : Peak) : Bool := decide (b.energy < a.energy) || (a.energy = b.energy && decide (a.ta < b.ta))

/-- The reported peaks, in the order in which the correlation gives them, each with overlap: the strongest of its bin.
-/
def reported (win : Nat) (ks : List Peak) : List (Peak × Bool) :=
  ks.zipIdx.filterMap fun (k, i) =>
    let others := ks.zipIdx.filter fun (o, j) => j ≠ i && sameBin win k o
    if others.any fun (o, j) => stronger o k || (!stronger k o && decide (j < i)) then none
    else some (k, others ≠ [])

/-- The detections of an occasion with their overlap, and its noise. -/
def State.detections (s : State) (c n occ : Nat) : List (Peak × Bool) × Rat :=
  let b := (s.cell c).config
  let ks := s.correlation c n occ
  let noise := noiseEstimate (cfgThr b) ks
  (reported (cfgTaWin b) (peaksAt (cfgThr b) ks noise), noise)

/-- One detection reported (R283, R284, R286); its occasion's noise is kept for the Msg3 that answers it. -/
def State.detection (s : State) (c n occ : Nat) (noise : Rat) (k : Peak) (overlap last : Bool) : State :=
  let r := s.cell c
  let b := r.config
  let power := s.powerField c k.energy.num.toNat (k.energy.den * 2 ^ 30)
  let ratio := k.energy / noise
  let v := if noise ≤ 0 then Config.zeroRatio s.radioFirmware (s.radioInputs c)
    else level16 (level ratio.num.toNat ratio.den)
  let s := s.setCell c { r with nextId := (r.nextId + 1) % 65536
                                noises := put (0, 1) r.noises r.nextId (noise.num.toNat, noise.den) }
  let s := s.count F.CLU_CELL_CNT_prach_det c 1
  let s := if overlap then s.count F.CLU_CELL_CNT_prach_overlap c 1 else s
  s.report c (leBytes 1 1 ++ leBytes 1 ((if overlap then 2 else 0) + (if last then 4 else 0))
    ++ leBytes 1 k.index ++ leBytes 1 occ ++ leBytes 2 (slotFrame b n)
    ++ leBytes 1 (slotInFrame b n) ++ leBytes 1 0 ++ leBytes 2 k.ta ++ leBytes 2 power ++ leBytes 2 v
    ++ leBytes 2 r.nextId ++ leBytes 4 s.total ++ leBytes 44 0)

/-- How many frequency occasions a configuration can give a slot: by the msg1 FDM field, for LTE by its index (R270,
R286). -/
def cfgOccasions (b : Bytes) : Nat := if cfgRat b = 1 then 8 else min 8 (2 ^ bits (cfgPrach b) 8 3)

/-- The detections of an occasion of a slot reported, once (R282). -/
def State.prachReport (s : State) (c n occ : Nat) : State :=
  let r := s.cell c
  let b := r.config
  if r.heard.contains (n, occ) ∨ cfgOccasions b ≤ occ then s
  else
    let (ks, noise) := s.detections c n occ
    let s := s.setCell c { r with heard := r.heard ++ [(n, occ)] }
    ks.zipIdx.foldl (fun s (k, i) => s.detection c n occ noise k.1 k.2 (i + 1 = ks.length)) s

/-- PRACH_OCCASION (R282 to R284, R286): frequency occasion `occ` that the named slot ends. -/
def execPrachOccasion (cell frame slot occ : Nat) (s : State) : Host.Outcome State Fault Refusal :=
  done (if !s.cellPiped cell then s
    else s.prachReport cell (slotNamed (s.cell cell).config s.total frame slot) occ)

/-! ### The noise floor (R285) -/

/-- Whether an entry of the plan of a slot or a PRACH occasion occupies a resource block in the uplink. -/
def State.blockTaken (s : State) (c n prb : Nat) : Bool :=
  let r := s.cell c
  Config.prachBlock s.radioFirmware r.config (slotFrame r.config n) (slotInFrame r.config n) prb
    || r.inputs.any fun x => match x with
      | .plan m plan => m = n % 2 ^ 40 && (planEntries plan).any fun y =>
          let e := planEntry y.2
          (e.entryType = 3 || e.entryType = 4 || e.entryType = 6)
            && decide (e.firstBlock ≤ prb) && decide (prb < e.firstBlock + e.blocks)
      | _ => false

/-- The idle elements of a slot in a resource block, as (symbol, subcarrier): those of a block that nothing occupies,
and those of guard symbols. -/
def State.idleElements (s : State) (c n prb : Nat) : List (Nat × Nat) :=
  let taken := s.blockTaken c n prb
  ((List.range 14).filter fun sym =>
      match symbolKind (s.cell c).config n sym with
      | 0 => false
      | 1 => !taken
      | _ => true).flatMap fun sym => (List.range 12).map fun i => (sym, 12 * prb + i)

/-- Of some resource blocks over some slots: the energy of the idle elements that arrived, how many values that is over
the receive ports, and how many elements. -/
def State.idleEnergy (s : State) (c : Nat) (slots prbs : List Nat) : Nat × Nat × Nat :=
  let b := (s.cell c).config
  let xs := slots.flatMap fun n => prbs.flatMap fun q => (s.idleElements c n q).map fun x =>
    (rxPorts b).filterMap fun p => s.element c p n x.1 x.2
  let e := energySum xs.flatten
  (e.1, e.2, (xs.filter fun l => l ≠ []).length)

/-- The sub-bands of a carrier: 16 resource blocks each. -/
def subBands (b : Bytes) : List (List Nat) :=
  (List.range ((cfgPrb b + 15) / 16)).map fun i => (List.range (min 16 (cfgPrb b - 16 * i))).map (16 * i + ·)

/-- One value of a noise record from an energy sum and the number of values in it; 0x8000 without any. -/
def State.noiseValue (s : State) (c : Nat) (x : Nat × Nat × Nat) : Nat :=
  if x.2.1 = 0 then 0x8000 else s.powerField c x.1 (x.2.1 * 2 ^ 30)

/-- NOISE_PERIOD_END (R285, R286): the record of the ni_period slots that have just ended, written once; `period` counts
them from frame 0. -/
def execNoisePeriodEnd (cell period : Nat) (s : State) : Host.Outcome State Fault Refusal :=
  done <|
    let r := s.cell cell
    let b := r.config
    let k := cfgSlots b s.total / cfgPeriod b
    if !s.cellPiped cell ∨ period ≠ k ∨ r.periods = some k then s
    else
      let slots := (List.range (cfgPeriod b)).map ((k - 1) * cfgPeriod b + ·)
      let xs := (subBands b).map (s.idleEnergy cell slots)
      let sum (f : Nat × Nat × Nat → Nat) : Nat := xs.foldl (fun t x => t + f x) 0
      let last := k * cfgPeriod b - 1
      let s := s.setCell cell { r with periods := some k }
      let vs := xs.map (s.noiseValue cell)
      let wide := s.noiseValue cell (sum (·.1), sum (·.2.1), 0)
      s.report cell (leBytes 1 2 ++ leBytes 1 0 ++ leBytes 1 xs.length ++ leBytes 1 0 ++ leBytes 2 (slotFrame b last)
        ++ leBytes 1 (slotInFrame b last) ++ leBytes 1 0 ++ leBytes 2 wide
        ++ leBytes 2 (min (sum (·.2.2)) 65535) ++ leBytes 4 0 ++ vs.flatMap (leBytes 2)
        ++ leBytes (48 - 2 * xs.length) 0)

/-! ### Uplink results (R284, R286, R287) -/

/-- Whether the result of a slot is written after the start of slot s + 2. -/
def uplinkLate (b : Bytes) (n t : Nat) : Bool := decide ((n + 2) * cfgSlot b < t + 10240000000 - cfgOffset b)

/-- The received values of an entry's allocation over the receive ports; of its DMRS elements only, where asked. -/
def State.allocation (s : State) (c n : Nat) (entry : Bytes) (dmrs : Bool) : List (Int × Int) :=
  let e := planEntry entry
  e.syms.flatMap fun sym =>
    (e.subs.filter fun sc => !dmrs || (List.range e.layers).any fun l =>
        (Config.radioDmrs (s.radioAt c n entry sym) l sym sc).isSome).flatMap fun sc =>
      (rxPorts (s.cell c).config).filterMap fun p => s.element c p n sym sc

/-- Whether no DMRS energy above prach_thr is found in the allocation of an Msg3: the mean energy of its DMRS elements
against the noise of the occasion of the detection that it names (DESIGN CHOICE, log entry 164). -/
def State.msg3Silent (s : State) (c n : Nat) (entry : Bytes) : Bool :=
  let b := (s.cell c).config
  let x := energySum (s.allocation c n entry true)
  let y := look (0, 1) (s.cell c).noises (planEntry entry).detection
  !(decide (10 ^ cfgThr b * y.1 ^ 80 * x.2 ^ 80 < x.1 ^ 80 * y.2 ^ 80))

/-- The record and the counters of an uplink entry's result, and its transport block to the host. -/
def State.uplinkRecord (s : State) (c n : Nat) (entry : Bytes) : State :=
  let b := (s.cell c).config
  let e := planEntry entry
  let (o, s') := s.uplinkDecode c n entry
  let pusch : Bool := e.entryType = 3
  let dtx := if pusch && e.msg3 then s.msg3Silent c n entry else o.dtx
  let ok := o.crcOk && !dtx
  let late := uplinkLate b n s.total
  let x := energySum (s.allocation c n entry false)
  let power := s.powerField c x.1 (x.2 * 2 ^ 30)
  let s := s'.combineCounts c n entry
  let s := if pusch && e.msg3 && dtx then s.count F.CLU_CELL_CNT_rar_unanswered c 1 else s
  let s := if pusch && !dtx && !o.crcOk then s.count F.CLU_CELL_CNT_ul_crc_fail c 1 else s
  let s := if late then s.count F.CLU_CELL_CNT_ul_late c 1 else s
  let s := if pusch && ok then s.request 256 (.write none e.addr (o.block.take e.tbSize) false) none else s
  s.report c (leBytes 1 3
    ++ leBytes 1 ((if ok then 2 else 0) + (if dtx then 4 else 0) + (if late then 8 else 0))
    ++ leBytes 1 e.entryType ++ leBytes 1 (if pusch then e.harq else 0) ++ leBytes 2 (slotFrame b n)
    ++ leBytes 1 (slotInFrame b n) ++ leBytes 1 0 ++ leBytes 2 e.rnti ++ leBytes 2 (ofSigned 16 (satSigned 16 o.sinr))
    ++ leBytes 2 (ofSigned 16 (satSigned 16 o.timing)) ++ leBytes 2 power ++ leBytes 4 o.decoded ++ leBytes 44 0)

/-- UPLINK_RESULT (R284, R286, R287): the result of the entry at a place of the plan of a slot, once; the records of the
PRACH occasions that the slot ends come first. -/
def execUplinkResult (cell : Nat) (entry : UplinkEntry) (s : State) : Host.Outcome State Fault Refusal :=
  done <|
    if !s.cellPiped cell then s
    else
      let n := slotNamed (s.cell cell).config s.total entry.frame entry.slot
      match (s.cell cell).work.find? fun w => w.slot = n % 2 ^ 40 && w.index = entry.index with
      | none => s
      | some w =>
        let s := (List.range 8).foldl (fun s o => s.prachReport cell n o) s
        let r := s.cell cell
        (s.setCell cell { r with work := r.work.filter fun x => x ≠ w }).uplinkRecord cell n w.entry

end Sys2Proof.Machine
end

