-- ==== Sys2Proof/Machine/Fronthaul.lean ====
section
/-!
DEFINITION. The fronthaul ports (chapter 13): ingress, stream FIFOs, egress, the scheduler with its shapers
and gates, histograms and the host frame rings.
-/
namespace Sys2Proof.Machine

/-! ### The tree (R320) -/

/-- A node put into an ascending list. -/
def insertNode (n : Nat × Nat) : List (Nat × Nat) → List (Nat × Nat)
  | [] => [n]
  | m :: ms => if n.1 ≤ m.1 then n :: m :: ms else m :: insertNode n ms

/-- The subscribers of an interface: (node, cell), ascending by node. -/
def State.subscribers (s : State) (i : Nat) : List (Nat × Nat) :=
  ((s.boundCells.filter fun c => s.cellIf c = i).flatMap fun c =>
    (List.range (s.cellGroups c)).map fun g => (s.subNode c g, c)).foldl (fun l n => insertNode n l) []

/-- The service node of an interface (R320). -/
def serviceNode (i sv : Nat) : Nat := 1280 + 4 * i + sv

/-! ### FIFOs (R312 to R318) -/

/-- A stream FIFO. -/
def State.fifo (s : State) (f : Nat) : FifoRec := look FifoRec.init s.fh.fifos f

/-- The state with it replaced. -/
def State.setFifo (s : State) (f : Nat) (r : FifoRec) : State :=
  { s with fh := { s.fh with fifos := put FifoRec.init s.fh.fifos f r } }

/-- words and packets of FIFO_STATUS. -/
def State.fifoWords (s : State) (f : Nat) : Nat := (s.fifo f).words.length
def State.fifoPackets (s : State) (f : Nat) : Nat := ((s.fifo f).words.filter fun w => w.last).length

/-- A packet as words: 32 bytes each, zeros to a whole word, the end mark on the last. -/
def packetWords (bs : Bytes) (poison : Bool) : List FifoWord :=
  let n := (bs.length + 31) / 32
  (List.range n).map fun i =>
    { data := (List.range 32).map fun m => bs.getD (32 * i + m) 0
      last := i + 1 = n, poison := poison && i + 1 = n }

/-- A packet is admitted whole, or dropped whole (R315); only an ingress FIFO takes any (R16). -/
def State.takeIn (s : State) (i f : Nat) (ws : List FifoWord) : State :=
  let r := s.fifo f
  if s.fld F.FIFO_CFG_dir f ≠ 1 then s
  else if r.words.length + ws.length ≤ 2048 then s.setFifo f { r with words := r.words ++ ws }
  else (s.count F.FH_IF_CNT_fifo_full_drop i 1).count F.FIFO_STATUS_dropped f 1

/-- FIFO_DROP_REST (R317). -/
def State.dropRest (s : State) (f : Nat) : State :=
  let r := s.fifo f
  if !r.current then s
  else
    let rest := r.words.dropWhile fun w => !w.last
    (s.setFifo f { r with words := rest.drop 1, current := false }).count F.FIFO_STATUS_drop_rest f 1

/-- FIFO_DROP_REST (R317). -/
def execFifoDropRest (f : Nat) (s : State) : Host.Outcome State Fault Refusal :=
  done (if 512 ≤ f then s else s.dropRest f)

/-- A word read from a FIFO: a parity error delivers it poisoned and is counted (R312). -/
def State.readWord (s : State) (f : Nat) (w : FifoWord) (bad : Bool) : FifoWord × State :=
  if bad then ({ w with poison := true }, s.count F.FIFO_STATUS_parity_err f 1) else (w, s)

/-- POP of a legacy FIFO moves its next word into the read buffer of the Lantern (R316, R318). -/
def State.pop (s : State) (f : Nat) (parityBad : Bool) : State :=
  if 512 ≤ f ∨ s.fld F.FIFO_CFG_legacy f = 0 then s
  else
    let r := s.fifo f
    match r.words with
    | [] => s.setFifo f { r with buffer := none }
    | w :: ws =>
      let (w, s) := s.readWord f w parityBad
      s.setFifo f { words := ws, current := !w.last, buffer := some w }

/-- POP (R316). -/
def execPop (f : Nat) (parityBad : Bool) (s : State) : Host.Outcome State Fault Refusal :=
  done (s.pop f parityBad)

/-- The words of the packet at the front of a FIFO, read until its end or until one is poisoned; `n` counts
them.  The answer says whether poison was met, with the words read. -/
def State.readPacket (s : State) (f : Nat) (bad : List Nat) (n : Nat) :
    List FifoWord → List FifoWord → List FifoWord × Bool × State
  | [], acc => (acc, false, s)
  | w :: ws, acc =>
    let (w, s) := s.readWord f w (bad.contains n)
    let r := s.fifo f
    let s := s.setFifo f { r with words := ws, current := !w.last }
    if w.poison then (acc ++ [w], true, s)
    else if w.last then (acc ++ [w], false, s)
    else s.readPacket f bad (n + 1) ws (acc ++ [w])

/-- The cells of a FIFO that the pipeline processes now. -/
def State.pipedCells (s : State) (fifoOf : Nat → Nat) (f : Nat) : List Nat :=
  s.fhCells.filter fun c => fifoOf c = f && s.cellPiped c

/-- The cell whose binding names the eAxC of an uplink packet. -/
def State.packetCell (s : State) (f : Nat) (head : Bytes) : Option Nat :=
  (s.pipedCells s.ulFifo f).find? fun c =>
    let base := s.cellFh c (if packetPrach head then 80 else 48) 16
    s.cellIf c = leAt head 7 1 && decide (base ≤ leAt head 4 2) && decide (leAt head 4 2 < base + s.cellPorts c)

/-- The hub moves an uplink packet to the core that takes its symbol, for the pipeline (R16, R267): a poisoned one is
dropped with FIFO_DROP_REST (R315, R317), and one of no cell that the pipeline processes goes nowhere.  Whether its
symbol is already being processed is the pipeline's affair: a free value. -/
def State.moveUp (s : State) (f : Nat) (bad : List Nat) : State :=
  if (s.fifo f).words = [] then s
  else
  let (ws, poisoned, s) := s.readPacket f bad 0 (s.fifo f).words []
  let p := ws.flatMap fun w => w.data
  if poisoned then s.dropRest f
  else match s.packetCell f p with
    | none => s
    | some c =>
      let (v, s) := s.free
      if v % 2 = 1 then s.count F.FH_IF_CNT_rx_late (leAt p 7 1 % 32) 1
      else s.giveRadio c (.packet (s.symbolCore c (packetSymbol p)) (packetCount (s.cell c).config s.total p) p)

/-- The cell whose packet a downlink FIFO takes next, with the packet: of the cells that share it (R329), the one with
the earliest launch, the lowest cell among equals (DESIGN CHOICE, log entry 179). -/
def State.dueDownlink (s : State) (f : Nat) : Option (Nat × Config.RadioPacket) :=
  let due (p : Config.RadioPacket) : Int := toSigned 32 (p.launch % 2 ^ 32 + 2 ^ 32 - s.total % 2 ^ 32)
  (s.pipedCells s.dlFifo f).foldl (fun o c => match o, s.nextPacket c with
    | none, some p => some (c, p)
    | some x, some p => if due p < due x.2 then some (c, p) else some x
    | o, none => o) none

/-- The hub moves the next packet of the pipeline into a downlink FIFO (R16, R264); a packet for which the FIFO has no
room is not made yet. -/
def State.moveDown (s : State) (f : Nat) : State :=
  match s.dueDownlink f with
  | none => s
  | some (c, p) =>
    let ps := packetWords (s.packetBytes c p) false
    let r := s.fifo f
    if r.words.length + ps.length ≤ 2048 then (s.packetMade c p).setFifo f { r with words := r.words ++ ps } else s

/-- HUB_PACKET_MOVE (R16, R316): `parityBad` names the words of the packet whose parity fails.  Packets go to and from
the radio cores; what else R16 names meets the pipeline by its jobs and the Lantern (DESIGN CHOICE, log entry 178). -/
def execHubPacketMove (f : Nat) (parityBad : List Nat) (s : State) : Host.Outcome State Fault Refusal :=
  done <|
    if 512 ≤ f ∨ s.fld F.FIFO_CFG_legacy f = 1 then s
    else match s.fld F.FIFO_CFG_dir f with
      | 1 => s.moveUp f parityBad
      | 2 => s.moveDown f
      | _ => s

/-! ### Ingress (R307 to R310, R314, R315) -/

/-- Bits `lo` to `lo + w - 1` of a bit stream, most significant first. -/
def beBits (b : Bytes) (lo w : Nat) : Nat :=
  (List.range w).foldl (fun n i =>
    n * 2 + (if ((b.getD ((lo + i) / 8) 0).toNat).testBit (7 - (lo + i) % 8) then 1 else 0)) 0

/-- One component expanded (R310), with whether it saturated. -/
def expand (w e m : Nat) : Int × Bool :=
  let v := toSigned w m * (2 ^ e : Nat)
  (satSigned 16 v, decide (satSigned 16 v ≠ v))

/-- Bytes of a compressed or plain resource block. -/
def blockLen (meth w : Nat) : Nat := if meth = 0 then 48 else 1 + 3 * w

/-- The 24 components of a received resource block as little-endian INT16, and how many saturated. -/
def expandBlock (meth w : Nat) (b : Bytes) : Bytes × Nat :=
  let e := if meth = 0 then 0 else beAt b 0 1 % 16
  let base := if meth = 0 then 0 else 8
  let w := if meth = 0 then 16 else w
  (List.range 24).foldl (fun (out, n) i =>
    let x := expand w e (beBits b (base + i * w) w)
    (out ++ leBytes 2 (ofSigned 16 x.1), if x.2 then n + 1 else n)) (([] : Bytes), 0)

/-- What ingress reads of a frame's headers. -/
structure FrameHead where
  etype : Nat
  tagged : Bool
  vlan : Nat
  /-- Offset of what follows the Ethernet header. -/
  body : Nat
deriving DecidableEq, Repr

/-- The Ethernet header with at most one 802.1Q tag. -/
def frameHead (b : Bytes) : FrameHead :=
  if beAt b 12 2 = 0x8100 then
    { etype := beAt b 16 2, tagged := true, vlan := beAt b 14 2 % 4096, body := 18 }
  else { etype := beAt b 12 2, tagged := false, vlan := 0, body := 14 }

/-- The cell that binds an eAxC of an interface and VLAN, and whether it is a PRACH eAxC (R328). -/
def State.bindRx (s : State) (i vlan axc : Nat) : Option (Nat × Bool) :=
  let cs := s.fhCells.filter fun c => s.cellIf c = i && s.cellVlan c = vlan
  let inRange (c lo : Nat) : Bool := decide (s.cellFh c lo 16 ≤ axc) && decide (axc < s.cellFh c lo 16 + s.cellPorts c)
  match cs.find? fun c => inRange c 48 with
  | some c => some (c, false)
  | none => (cs.find? fun c => inRange c 80).map fun c => (c, true)

/-- SEQ_ID of a received eAxC followed (seq_gap). -/
def State.seqCheck (s : State) (i axc q : Nat) : State :=
  let k := i * 65536 + axc
  let v := look 0 s.fh.seqRx k
  let s := if v ≠ 0 ∧ v % 256 ≠ q then s.count F.FH_IF_CNT_seq_gap i 1 else s
  { s with fh := { s.fh with seqRx := put 0 s.fh.seqRx k (q + 1 + if q = 255 then 256 else 0) } }

/-- The resource blocks of a section whose numPrbu is 0: every block of the carrier. -/
def State.allBlocks (s : State) (c rest blk : Nat) : Nat :=
  if s.cellRuns c then cfgPrb (s.cell c).config else rest / blk

/-- One section becomes a FIFO packet (R314); `off` is where its header starts. -/
def State.section (s : State) (i c f : Nat) (prach fcsOk : Bool) (axc seq : Nat) (common : Bytes)
    (b : Bytes) (off n : Nat) : State :=
  let meth := s.cellFh c 123 1
  let w := iqWidth (s.cellFh c 118 4)
  let blk := blockLen meth w
  let (iq, sat) := (List.range n).foldl (fun (out, k) m =>
    let x := expandBlock meth w ((b.drop (off + 4 + m * blk)).take blk)
    (out ++ x.1, k + x.2)) (([] : Bytes), 0)
  let s := s.count F.FH_IF_CNT_bfp_sat i sat
  let head := leBytes 4 s.total ++ leBytes 2 axc
    ++ leBytes 1 ((if prach then 1 else 0) + (if fcsOk then 0 else 2)) ++ leBytes 1 i ++ common
    ++ (b.drop off).take 3 ++ leBytes 1 0 ++ (b.drop (off + 3)).take 1 ++ leBytes 1 0 ++ leBytes 2 n
    ++ leBytes 2 ((48 * n + 31) / 32) ++ leBytes 1 seq ++ leBytes 9 0
  s.takeIn i f (packetWords (head ++ iq) (!fcsOk))

/-- The sections of a U-plane frame, one after another. -/
def State.sections (s : State) (i c f : Nat) (prach fcsOk : Bool) (axc seq : Nat) (common b : Bytes) :
    Nat → Nat → State
  | 0, _ => s
  | fuel + 1, off =>
    let blk := blockLen (s.cellFh c 123 1) (iqWidth (s.cellFh c 118 4))
    let rest := b.length - (off + 4)
    if b.length ≤ off + 4 ∨ rest < blk then s
    else
      let n0 := beAt b (off + 3) 1
      let n := if n0 = 0 then s.allBlocks c rest blk else n0
      if rest < n * blk ∨ n = 0 then s
      else (s.section i c f prach fcsOk axc seq common b off n).sections i c f prach fcsOk axc seq common b
        fuel (off + 4 + n * blk)

/-- Whether an eCPRI header has the one form of R309: revision 1, no concatenation, type 0, the E bit and no
subsequence. -/
def ecpriOk (b : Bytes) (o : Nat) : Bool :=
  beAt b o 1 / 16 = 1 && beAt b o 1 % 2 = 0 && beAt b (o + 1) 1 = 0 && beAt b (o + 7) 1 = 0x80

/-- An eCPRI frame (R309): one of another form, or of an eAxC, VLAN or destination that is not bound, is dropped and
counted; a cell that does not run receives nothing (R271).  Choices: log entry 165. -/
def State.rxEcpri (s : State) (i : Nat) (b : Bytes) (h : FrameHead) (fcsOk : Bool) : State :=
  let o := h.body
  let axc := beAt b (o + 4) 2
  let seq := beAt b (o + 6) 1
  let bad := s.count F.FH_IF_CNT_rx_unmatched i 1
  if !h.tagged ∨ !ecpriOk b o ∨ beAt b 0 6 ≠ s.fld F.FH_IF_STATUS_src_mac i then bad
  else match s.bindRx i h.vlan axc with
    | none => bad
    | some (c, prach) =>
      let len := beAt b (o + 2) 2
      let p := (b.drop o).take (4 + len)
      if !s.cellRuns c then s
      else (s.seqCheck i axc seq).sections i c (s.ulFifo c) prach fcsOk axc seq ((p.drop 8).take 4) p p.length 12

/-! ### The host rings (R327, R345) -/

/-- Slots of a ring code. -/
def hostSlots (code : Nat) : Nat := if 1 ≤ code ∧ code ≤ 10 then 2 ^ (code + 3) else 0

/-- Slots that a frame needs. -/
def frameSlots (len : Nat) : Nat := if len ≤ 2032 then 1 else 1 + (len - 2032 + 2047) / 2048

/-- The host address of the rings of an interface; the transmit ring follows the receive ring. -/
def State.rxRing (s : State) (i : Nat) : Nat := s.fld F.FH_HOST_RING_base_4k i * 4096
def State.txRing (s : State) (i : Nat) : Nat := s.rxRing i + hostSlots (s.fld F.FH_HOST_RING_rx_code i) * 2048

/-- The fronthaul host message of an interface (R431). -/
def State.hostFrameMsg (s : State) (i : Nat) : State := s.message 0 (8 + i)

/-- A PTP timestamp as a slot holds it, within 3 ns (R345): seconds, two zero bytes, nanoseconds. -/
def State.stamp (s : State) : Bytes × State :=
  let (t, s) := s.within 3
  (leBytes 6 (t / 1000000000) ++ leBytes 2 0 ++ leBytes 4 (t % 1000000000), s)

/-- A frame, without its FCS, for the host: whole into the receive ring, or dropped.  Only PTP frames have a
timestamp; the fields of others are a free value. -/
def State.rxHost (s : State) (i sv : Nat) (b : Bytes) : State :=
  let n := hostSlots (s.fld F.FH_HOST_RING_rx_code i)
  let k := frameSlots b.length
  let h := s.fld F.FH_HOST_PTR_rx_head i
  let used := (h + 65536 - s.fld F.FH_HOST_PTR_rx_tail i) % 65536
  if n = 0 ∨ n < used + k then s.count F.FH_IF_CNT_host_rx_drop i 1
  else
    let (stamp, s) := if sv = 0 then s.stamp else
      let (v, s) := s.free
      (leBytes 6 v ++ leBytes 2 0 ++ leBytes 4 (v / 2 ^ 48), s)
    let slot (m : Nat) : Nat := s.rxRing i + (h + m) % n * 2048
    let s := s.pf0Write (slot 0)
      (leBytes 2 b.length ++ leBytes 1 sv ++ leBytes 1 (if sv = 0 then 1 else 0) ++ stamp ++ b.take 2032)
    let s := (List.range (k - 1)).foldl (fun s m =>
      s.pf0Write (slot (m + 1)) ((b.drop (2032 + 2048 * m)).take 2048)) s
    (s.countWrap F.FH_HOST_PTR_rx_head i k).hostFrameMsg i

/-- FRAME_RECEIVE (R307 to R315, R327, R345): `frame` counts from the destination address to the FCS. -/
def execFrameReceive (i : Nat) (frame : Bytes) (fcsOk : Bool) (s : State) :
    Host.Outcome State Fault Refusal :=
  done <|
    if 32 ≤ i ∨ !s.linkUp i ∨ frame.length < 64 then s
    else if 9216 < frame.length then s.count F.FH_IF_CNT_rx_oversize i 1
    else
      let b := frame.take (frame.length - 4)
      let h := frameHead b
      let s := if fcsOk then s.count F.FH_IF_CNT_rx_frames i 1 else s.count F.FH_IF_CNT_rx_fcs_err i 1
      if h.etype = 0xAEFE then
        if fcsOk ∨ (s.bindRx i h.vlan (beAt b (h.body + 4) 2)).isSome then s.rxEcpri i b h fcsOk else s
      else if !fcsOk then s
      else s.rxHost i (if h.etype = 0x88F7 then 0 else 1) b

/-! ### Egress (R309, R311, R319) -/

/-- A mantissa of `w` bits for component `v` under exponent `e`: rounded under R143, saturated. -/
def mantissa (w e : Nat) (v : Int) : Int × Bool :=
  let d : Nat := 2 ^ e
  let q := v / (d : Int)
  let r := v % (d : Int)
  let m := if 2 * r > d ∨ (2 * r = d ∧ q % 2 ≠ 0) then q + 1 else q
  (satSigned w m, decide (satSigned w m = m))

/-- The exponent of a block (R311). -/
def blockExp (w : Nat) (vs : List Int) : Nat :=
  match (List.range (17 - w)).find? fun e => vs.all fun v => (mantissa w e v).2 with
  | some e => e
  | none => 16 - w

/-- A resource block compressed for the wire. -/
def compress (meth w : Nat) (iq : Bytes) : Bytes :=
  let vs := (List.range 24).map fun i => toSigned 16 (leAt iq (2 * i) 2)
  if meth = 0 then vs.flatMap fun v => beOut 2 (ofSigned 16 v)
  else
    let e := blockExp w vs
    let n := vs.foldl (fun n v => n * 2 ^ w + ofSigned w (mantissa w e v).1) 0
    beOut 1 e ++ beOut (3 * w) n

/-- The next SEQ_ID of an eAxC. -/
def State.nextSeqId (s : State) (i axc : Nat) : Nat × State :=
  let k := i * 65536 + axc
  let v := look 0 s.fh.seqTx k
  (v, { s with fh := { s.fh with seqTx := put 0 s.fh.seqTx k ((v + 1) % 256) } })

/-- A section header as sent: symInc 0, and numPrbu 0 for 256 blocks or more (R309). -/
def sentSection (h : Bytes) (n : Nat) : Bytes :=
  let x := leAt h 1 1
  h.take 1 ++ leBytes 1 (if bitOf x 2 then x - 4 else x) ++ (h.drop 2).take 1
    ++ (if 256 ≤ n then leBytes 1 0 else (h.drop 3).take 1)

/-- The frame of an egress packet, without FCS, at least 60 bytes. -/
def State.buildFrame (s : State) (c : Nat) (d : Bytes) (pay : Bytes) (seq : Nat) : Bytes :=
  let i := s.cellIf c
  let cplane := leAt d 4 1 % 2 = 1
  let pcp := if cplane then s.cellFh c 108 3 else s.cellFh c 111 3
  let n := leAt d 20 2
  let w := iqWidth (s.cellFh c 114 4)
  let meth := s.cellFh c 122 1
  let sect := sentSection ((d.drop 16).take 4) n
  let body := (d.drop 12).take 4 ++
    if cplane then pay.take n
    else sect ++ (List.range n).flatMap fun m => compress meth w ((pay.drop (48 * m)).take 48)
  let f := beOut 6 (s.cellFh c 128 48) ++ beOut 6 (s.fld F.FH_IF_STATUS_src_mac i) ++ beOut 2 0x8100
    ++ beOut 2 (pcp * 8192 + s.cellVlan c) ++ beOut 2 0xAEFE
    ++ beOut 1 0x10 ++ beOut 1 (if cplane then 2 else 0) ++ beOut 2 (body.length + 4)
    ++ beOut 2 (leAt d 8 2) ++ beOut 1 seq ++ beOut 1 0x80 ++ body
  f ++ List.replicate (60 - f.length) 0

/-- A leaf queue. -/
def State.leaf (s : State) (q : Nat) : List FhFrame := look [] s.fh.queues q

/-- The state with it replaced. -/
def State.setLeaf (s : State) (q : Nat) (fs : List FhFrame) : State :=
  { s with fh := { s.fh with queues := put [] s.fh.queues q fs } }

/-- The leaf queue for which the packet at the front of an egress FIFO is meant. -/
def State.packetQueue (s : State) (w : FifoWord) : Nat :=
  let c := leAt w.data 6 2
  2 * s.subNode c (leAt w.data 10 1 % s.cellGroups c) + (if leAt w.data 4 1 % 2 = 1 then 0 else 1)

/-- EGRESS_PACKET_READ (R16, R319, R320, R384): a full leaf queue stops the reading; a poisoned packet is
dropped, and one of a cell that has stopped goes no further (R271). -/
def execEgressPacketRead (f : Nat) (parityBad : List Nat) (s : State) : Host.Outcome State Fault Refusal :=
  done <|
    if 512 ≤ f ∨ s.fld F.FIFO_CFG_dir f ≠ 2 then s
    else match (s.fifo f).words with
      | [] => s
      | w :: _ =>
        let q := s.packetQueue w
        if 512 ≤ (s.leaf q).length then s
        else
          let (ws, poisoned, s) := s.readPacket f parityBad 0 (s.fifo f).words []
          let c := leAt w.data 6 2
          if poisoned then
            let r := s.fifo f
            let rest := if r.current then (r.words.dropWhile fun w => !w.last).drop 1 else r.words
            (s.setFifo f { r with words := rest, current := false }).count F.FIFO_STATUS_dropped f 1
          else if (s.entry 8 (0x100 + c)).isNone ∨ !s.cellRuns c then s
          else
            let (seq, s) := s.nextSeqId (s.cellIf c) (leAt w.data 8 2)
            let frame := s.buildFrame c w.data ((ws.drop 1).flatMap fun w => w.data) seq
            s.setLeaf q (s.leaf q ++ [{ bytes := frame, launch := some (leAt w.data 0 4), queued := s.total,
                                        ring := none }])

/-! ### Gates (R324, R325) -/

/-- An interface. -/
def State.ifRec (s : State) (i : Nat) : IfRec := look IfRec.init s.fh.ifs i

/-- The state with it replaced. -/
def State.setIf (s : State) (i : Nat) (r : IfRec) : State :=
  { s with fh := { s.fh with ifs := put IfRec.init s.fh.ifs i r } }

/-- The intervals of a list with the last cut or extended to the cycle end (R324). -/
def GateList.spans (g : GateList) : List (Nat × Nat) :=
  let rec go (left : Nat) : List (Nat × Nat) → List (Nat × Nat)
    | [] => []
    | [(_, m)] => if left = 0 then [] else [(left, m)]
    | (n, m) :: es => if left = 0 then [] else (min n left, m) :: go (left - min n left) es
  go g.cycle g.entries

/-- The index of the entry in force at an instant, with what is left of it. -/
def GateList.at' (g : GateList) (t : Nat) : Nat × Nat :=
  let rec go (pos i : Nat) : List (Nat × Nat) → Nat × Nat
    | [] => (0, 0)
    | (n, _) :: es => if pos < n then (i, n - pos) else go (pos - n) (i + 1) es
  go (if g.cycle = 0 then 0 else (t - g.start) % g.cycle) 0 g.spans

/-- How long service `sv` stays open from the instant on, in ns; `none` without end.  Neighbouring open
entries count as one open interval (DEDUCED, log entry 35). -/
def GateList.openFor (g : GateList) (sv t : Nat) : Option Nat :=
  if !g.enable then none
  else
    let es := g.spans
    let (i, left) := g.at' t
    let isOpen (m : Nat) : Bool := bitOf m sv
    if es.all fun e => isOpen e.2 then none
    else
      let order := (es.drop i) ++ es.take i
      match order with
      | [] => some 0
      | (_, m) :: rest =>
        if !isOpen m then some 0
        else some (left + ((rest.takeWhile fun e => isOpen e.2).foldl (fun n e => n + e.1) 0))

/-- How long service `sv` of an interface stays open now. -/
def State.gateOpen (s : State) (i sv : Nat) : Option Nat :=
  match (s.ifRec i).oper with
  | none => none
  | some g => g.openFor sv s.total

/-- The longest open interval of a service in a list. -/
def GateList.longest (g : GateList) (sv : Nat) : Option Nat :=
  let starts := (g.spans.foldl (fun (acc, p) e => (acc ++ [p], p + e.1)) (([] : List Nat), 0)).1
  (starts.map fun p => g.openFor sv (g.start + p)).foldl (fun b o => match b, o with
    | some x, some y => some (max x y)
    | _, _ => none) (some 0)

/-- A commit (R324, R325): the administrative list waits for its start, or the commit is refused. -/
def State.gateCommit (s : State) (i : Nat) : State :=
  let len := s.fld F.FH_GATE_CTL_admin_len i
  let en := s.fld F.FH_GATE_CTL_enable i = 1
  let cyc := s.fld F.FH_GATE_CTL_cycle_ns i
  let x := s.fld F.FH_GATE_BASE_base_wnc i
  let now := s.total
  let base : Int := if s.fld F.FH_GATE_CTL_wnc_mode i = 1
    then ((s.fld F.FH_GATE_BASE_epoch i * 2 ^ 32 + x : Nat) : Int)
    else (now : Int) + toSigned 32 (x + 2 ^ 32 - now % 2 ^ 32)
  if 32 ≤ i ∨ 256 < len ∨ (en ∧ (len = 0 ∨ cyc = 0)) then s
  else
    let gap := ((now + cyc : Nat) : Int) - base
    let n : Nat := if gap ≤ 0 ∨ cyc = 0 then 0 else (gap.toNat + cyc - 1) / cyc
    let start : Nat := if cyc = 0 then max base.toNat now else (base + (n * cyc : Nat)).toNat
    let late := 0 < n ∨ (cyc = 0 ∧ base < now)
    let es := (List.range len).map fun j =>
      (s.fld F.FH_GATE_LIST_interval_ns (i * 256 + j), s.fld F.FH_GATE_LIST_gates (i * 256 + j))
    let s := s.setIf i { s.ifRec i with pend := some { enable := en, start := start, cycle := cyc,
                                                       entries := es } }
    let s := s.setFld F.FH_GATE_STATUS_pending i 1
    if late then s.setFld F.FH_GATE_STATUS_gate_late_start i 1 else s

/-- GATE_COMMIT (R324, R325). -/
def execGateCommit (i : Nat) (s : State) : Host.Outcome State Fault Refusal := done (s.gateCommit i)

/-- A cancel (R325): a pending list is discarded. -/
def State.gateCancel (s : State) (i : Nat) : State :=
  if (s.ifRec i).pend.isNone then s
  else (s.setIf i { s.ifRec i with pend := none }).setFld F.FH_GATE_STATUS_pending i 0

/-- GATE_CANCEL (R325). -/
def execGateCancel (i : Nat) (s : State) : Host.Outcome State Fault Refusal := done (s.gateCancel i)

/-- GATE_LIST_START (R324, R325): the pending list becomes the operating list. -/
def execGateListStart (i : Nat) (s : State) : Host.Outcome State Fault Refusal :=
  done <| match (s.ifRec i).pend with
    | none => s
    | some g =>
      if s.total < g.start then s
      else
        let r := s.ifRec i
        let busy := r.tx.any fun t => decide (s.total * 1000 < t.until') && decide (g.openFor t.service s.total = some 0)
        let s := s.setIf i { r with oper := some g, pend := none }
        let s := (s.setFld F.FH_GATE_STATUS_pending i 0).setFld F.FH_GATE_STATUS_oper_enable i (if g.enable then 1 else 0)
        let s := (s.setFld F.FH_GATE_STATUS_oper_len i g.entries.length).setFld F.FH_GATE_STATUS_cur_entry i
          (g.at' s.total).1
        if busy then s.count F.FH_GATE_STATUS_gate_overrun i 1 else s

/-- GATE_ENTRY_ADVANCE (R324). -/
def execGateEntryAdvance (i : Nat) (s : State) : Host.Outcome State Fault Refusal :=
  done <| match (s.ifRec i).oper with
    | none => s
    | some g => s.setFld F.FH_GATE_STATUS_cur_entry i (g.at' s.total).1

/-! ### Selection (R320 to R323) -/

/-- Bytes of a frame with its FCS. -/
def FhFrame.len (f : FhFrame) : Nat := f.bytes.length + 4

/-- Picoseconds that a frame takes on the wire at the interface's speed. -/
def State.wireTime (s : State) (i : Nat) (f : FhFrame) : Nat :=
  let sp := s.fld F.FH_IF_STATUS_speed i
  (f.len + 20) * 80 / 2 ^ (sp - 1)

/-- Whether a node has tokens, or is unshaped (R321, R323). -/
def State.tokensOk (s : State) (node : Nat) : Bool :=
  s.fld F.FH_SHAPER_rate node = 0 || decide (0 < toSigned 32 (s.fld F.FH_SHAPER_tokens node))

/-- (int32)(launch - now). -/
def State.launchDiff (s : State) (x : Nat) : Int := toSigned 32 (x + 2 ^ 32 - s.total % 2 ^ 32)

/-- Whether a frame at the head of a queue is eligible (R321); `node` is its subscriber node. -/
def State.eligible (s : State) (i sv : Nat) (node : Option Nat) (f : FhFrame) : Bool :=
  node.all s.tokensOk && s.tokensOk (serviceNode i sv)
    && f.launch.all (fun x => decide (s.launchDiff x ≤ 0))
    && (s.gateOpen i sv).all fun n => decide (s.wireTime i f ≤ n * 1000)

/-- The transmit slots that have passed: tx_tail follows the frames sent in ring order (R327). -/
def State.passTx (s : State) (i : Nat) : Nat → State
  | 0 => s
  | fuel + 1 =>
    let r := s.ifRec i
    match r.posted with
    | (_, n, true) :: rest =>
      ((s.setIf i { r with posted := rest }).countWrap F.FH_HOST_PTR_tx_tail i n).hostFrameMsg i |>.passTx i fuel
    | _ => s

/-- A frame of the host ring is done: its timestamp is written where it was requested, then tx_tail passes. -/
def State.ringDone (s : State) (i : Nat) (f : FhFrame) (sent : Bool) : State :=
  match f.ring with
  | none => s
  | some (pos, want) =>
    let n := hostSlots (s.fld F.FH_HOST_RING_tx_code i)
    let s := if want && sent && n ≠ 0 then
        let (b, s) := s.stamp
        s.pf0Write (s.txRing i + pos % n * 2048 + 4) b
      else s
    let r := s.ifRec i
    let s := s.setIf i { r with posted := r.posted.map fun e => if e.1 = pos then (e.1, e.2.1, true) else e }
    s.passTx i (r.posted.length)

/-- The deficit of a subscriber queue. -/
def State.deficitOf (s : State) (q : Nat) : Nat := look 0 s.fh.deficit q

/-- The state with it set. -/
def State.setDeficit (s : State) (q n : Nat) : State :=
  { s with fh := { s.fh with deficit := put 0 s.fh.deficit q n } }

/-- The head frame of a queue dropped; an emptied queue loses its deficit (R320). -/
def State.dropHead (s : State) (q : Nat) (rest : List FhFrame) : State :=
  let s := s.setLeaf q rest
  if rest = [] then s.setDeficit q 0 else s

/-- A head frame longer than every open interval of its service is dropped (R325). -/
def State.dropOversize (s : State) (i sv q : Nat) : Nat → State
  | 0 => s
  | fuel + 1 =>
    match s.leaf q, (s.ifRec i).oper with
    | f :: rest, some g =>
      if g.enable ∧ (g.longest sv).any fun n => decide (n * 1000 < s.wireTime i f) then
        (((s.dropHead q rest).count F.FH_IF_CNT_oversize_drop i 1).ringDone i f false).dropOversize i sv q fuel
      else s
    | _, _ => s

/-- The queue that holds the frames of service `sv` of a subscriber node. -/
def subQueue (node sv : Nat) : Nat := 2 * node + (sv - 1)

/-- The nodes of a list from the one whose turn it is on; a turn is kept as node + 1, 0 before the first. -/
def fromTurn (turn : Nat) (ns : List (Nat × Nat)) : List (Nat × Nat) :=
  (ns.dropWhile fun n => n.1 + 1 < turn) ++ ns.takeWhile fun n => n.1 + 1 < turn

/-- Deficit round robin (R320): a node gains its quantum of weight * 1,024 bytes when its turn begins, and sends while
its deficit covers its head frame.  `turn`: whose turn it is now. -/
def State.roundRobin (s : State) (sv turn : Nat) (ns : List (Nat × Nat)) : Nat → Option Nat × State
  | 0 => (none, s)
  | fuel + 1 =>
    match ns with
    | [] => (none, s)
    | n :: rest =>
      let q := subQueue n.1 sv
      let s := if n.1 + 1 = turn then s else s.setDeficit q (s.deficitOf q + s.cellFh n.2 208 8 * 1024)
      match s.leaf q with
      | [] => (none, s)
      | f :: _ =>
        if f.len ≤ s.deficitOf q then (some n.1, s)
        else s.roundRobin sv 0 (rest ++ [n]) fuel

/-- Tokens lost when a frame starts (R323). -/
def State.spend (s : State) (node n : Nat) : State :=
  if s.fld F.FH_SHAPER_rate node = 0 then s
  else s.setFld F.FH_SHAPER_tokens node (ofSigned 32 (toSigned 32 (s.fld F.FH_SHAPER_tokens node) - n))

/-- A frame starts on the wire. -/
def State.sendFrame (s : State) (i sv q : Nat) (node : Option Nat) (f : FhFrame) (rest : List FhFrame) : State :=
  let s := s.setLeaf q rest
  let s := match node with
    | some n => s.spend n (f.len + 20)
    | none => s
  let s := (s.spend (serviceNode i sv) (f.len + 20)).count F.FH_IF_CNT_tx_frames i 1
  let r := s.ifRec i
  let s := s.setIf i { r with tx := some { service := sv, until' := s.total * 1000 + s.wireTime i f } }
  ({ s with fh := { s.fh with sent := s.fh.sent ++ [(i, f.bytes, s.total)] } }).ringDone i f true

/-- A C or U frame of a chosen node: dropped when it is late (R322), else sent. -/
def State.sendSub (s : State) (i sv node : Nat) : Bool × State :=
  let q := subQueue node sv
  match s.leaf q with
  | [] => (false, s)
  | f :: rest =>
    let late : Nat := match f.launch with
      | some x => (-(s.launchDiff x)).toNat
      | none => 0
    if s.fld F.FH_LATE_TOLERANCE_tol_ns i < late then
      (false, ((s.dropHead q rest).count F.FH_LATE_DROP_count i 1).setFld F.FH_LATE_DROP_last_late_ns i
        (min late (2 ^ 32 - 1)))
    else
      let s := s.setDeficit q (if rest = [] then 0 else s.deficitOf q - f.len)
      (true, s.sendFrame i sv q (some node) f rest)

/-- The C or U service of an interface makes a selection; a late frame is dropped and the selection made
again. -/
def State.selectSub (s : State) (i sv : Nat) : Nat → Bool × State
  | 0 => (false, s)
  | fuel + 1 =>
    let subs := s.subscribers i
    let s := subs.foldl (fun s n => s.dropOversize i sv (subQueue n.1 sv) 512) s
    let ok (n : Nat × Nat) : Bool := match s.leaf (subQueue n.1 sv) with
      | f :: _ => s.eligible i sv (some n.1) f
      | [] => false
    let r := s.ifRec i
    let turn := if sv = 1 then r.turnC else r.turnU
    match s.roundRobin sv turn (fromTurn turn (subs.filter ok)) (16 * (subs.length + 1)) with
    | (none, s) => (false, s)
    | (some node, s) =>
      let r := s.ifRec i
      let s := s.setIf i (if sv = 1 then { r with turnC := node + 1 } else { r with turnU := node + 1 })
      match s.sendSub i sv node with
      | (true, s) => (true, s)
      | (false, s) => s.selectSub i sv fuel

/-- The S or M service of an interface. -/
def State.selectHost (s : State) (i sv : Nat) : Bool × State :=
  let q := 2560 + 2 * i + (if sv = 0 then 0 else 1)
  let s := s.dropOversize i sv q 512
  match s.leaf q with
  | f :: rest => if s.eligible i sv none f then (true, s.sendFrame i sv q none f rest) else (false, s)
  | [] => (false, s)

/-- The services in strict priority S, C, U, M (R320, R321). -/
def State.selectFrame (s : State) (i : Nat) : State :=
  let fuel := 1 + s.fh.queues.foldl (fun n e => n + e.2.length) 0
  match s.selectHost i 0 with
  | (true, s) => s
  | (false, s) => match s.selectSub i 1 fuel with
    | (true, s) => s
    | (false, s) => match s.selectSub i 2 fuel with
      | (true, s) => s
      | (false, s) => (s.selectHost i 3).2

/-! ### Shapers (R323) -/

/-- `k` refills of a node in one cycle: a waiting write takes effect, the tokens are clipped to the burst, and the node
gains rate * 1 µs for each, in half bytes. -/
def State.refill (s : State) (node k : Nat) : State :=
  let s := match look none s.fh.shaper node with
    | some v =>
      let s := (s.setFld F.FH_SHAPER_rate node (bits v 0 16)).setFld F.FH_SHAPER_burst node (bits v 16 16)
      { s with fh := { s.fh with shaper := put none s.fh.shaper node none } }
    | none => s
  let cap : Int := (s.fld F.FH_SHAPER_burst node * 2048 : Nat)
  let have2 : Int := 2 * toSigned 32 (s.fld F.FH_SHAPER_tokens node) + (if look false s.fh.half node then 1 else 0)
  let new2 := min (have2 + (k * (s.fld F.FH_SHAPER_rate node * 25) : Nat)) cap
  let s := s.setFld F.FH_SHAPER_tokens node (ofSigned 32 (new2 / 2))
  { s with fh := { s.fh with half := put false s.fh.half node (new2 % 2 = 1) } }

/-- SHAPER_REFILL (R323, R336): every microsecond of device time; the instants that a step passes are all marked in its
cycle, and an instant once marked is not marked again after a step back. -/
def execShaperRefill (s : State) : Host.Outcome State Fault Refusal :=
  done <|
    let k := s.total / 1000 - s.fh.refilled
    if k = 0 then s
    else
      let s := { s with fh := { s.fh with refilled := s.total / 1000 } }
      (List.range 1408).foldl (fun s n => s.refill n k) s

/-- A write to a shaper by PF0 or PF1; PF1 reaches subscriber nodes only (R323, R457, R458). -/
def State.shaperWrite (s : State) (fn node v : Nat) : State :=
  if 1408 ≤ node then s
  else if fn = 1 ∧ (1248 ≤ node ∨ !s.pf1Ready) then s.badAccess 3 (0x400000 + 8 * node)
  else { s with fh := { s.fh with shaper := put none s.fh.shaper node (some (bits v 0 32)) } }

/-- FH_SHAPER_WRITE (R323). -/
def execFhShaperWrite (fn node value : Nat) (s : State) : Host.Outcome State Fault Refusal :=
  done (s.shaperWrite fn node value)

/-! ### Histograms (R326) -/

/-- The leaf queues that exist: those of bound subscribers and of present interfaces. -/
def State.leafQueues (s : State) : List Nat :=
  (s.boundCells.flatMap fun c => (List.range (s.cellGroups c)).flatMap fun g =>
    [2 * s.subNode c g, 2 * s.subNode c g + 1])
  ++ ((List.range 32).filter fun i => s.fld F.FH_IF_STATUS_present i = 1).flatMap fun i =>
    [2560 + 2 * i, 2561 + 2 * i]

/-- The bin of a value at or above `base`: bin b from 1 covers base * 2^(b - 1) to base * 2^b - 1, bin 15 is
open above. -/
def histBin (base v : Nat) : Nat := min 15 (Nat.log2 (v / base) + 1)

/-- `n` more in a bin, saturating. -/
def State.addBin (s : State) (n q b : Nat) : State :=
  let k := q * 32 + b
  { s with fh := { s.fh with bins := put 0 s.fh.bins k (min (look 0 s.fh.bins k + n) (2 ^ 32 - 1)) } }

/-- `n` samples of one queue in one cycle.  R326 gives no delay bin below 100 ns in a queue that is not empty: it is a
free value. -/
def State.sampleQueue (s : State) (n q : Nat) : State :=
  match s.leaf q with
  | [] => (s.addBin n q 0).addBin n q 16
  | f :: fs =>
    let depth := (f :: fs).foldl (fun t g => t + g.len) 0
    let delay := s.total - f.queued
    let s := s.addBin n q (histBin 64 depth)
    if delay < 100 then
      let (v, s) := s.free
      s.addBin n q (16 + v % 16)
    else s.addBin n q (16 + histBin 100 delay)

/-- HISTOGRAM_SAMPLE (R326, R336): every 10 µs of device time, as for the refills. -/
def execHistogramSample (s : State) : Host.Outcome State Fault Refusal :=
  done <|
    let k := s.total / 10000 - s.fh.sampled
    if k = 0 then s
    else s.leafQueues.foldl (fun s q => s.sampleQueue k q)
      { s with fh := { s.fh with sampled := s.total / 10000 } }

/-- A write of clear (R326): the bins of a queue become zero. -/
def State.histClear (s : State) (queue : Nat) : State :=
  { s with fh := { s.fh with bins := dropRange s.fh.bins (queue * 32) 32 } }

/-- HISTOGRAM_CLEAR (R326). -/
def execHistogramClear (queue : Nat) (s : State) : Host.Outcome State Fault Refusal := done (s.histClear queue)

/-- The 1,024 bits of FH_HIST_WINDOW. -/
def State.histWindow (s : State) : Nat :=
  let q := s.fld F.FH_HIST_SEL_queue 0
  (List.range 32).foldl (fun n b => n + look 0 s.fh.bins (q * 32 + b) * 2 ^ (32 * b)) 0

/-! ### The host transmit ring (R327) -/

/-- Frames of the ring read into the leaf queues, in ring order, while the queue has room and every slot of
the frame is posted. -/
def State.readTx (s : State) (i : Nat) : Nat → State
  | 0 => s
  | fuel + 1 =>
    let n := hostSlots (s.fld F.FH_HOST_RING_tx_code i)
    let r := s.ifRec i
    let avail := (s.fld F.FH_HOST_PTR_tx_head i + 65536 - r.read) % 65536
    if n = 0 ∨ avail = 0 then s
    else
      let slot (m : Nat) : Nat := s.txRing i + (r.read + m) % n * 2048
      let head := s.hostBytes none (slot 0) 16
      let len := leAt head 0 2
      let k := frameSlots len
      if len < 60 ∨ 9212 < len ∨ s.hostError none (slot 0) 16 then
        let s := s.setIf i { r with read := (r.read + 1) % 65536, posted := r.posted ++ [(r.read, 1, true)] }
        ((s.count F.FH_IF_CNT_tx_bad_len i 1).passTx i (r.posted.length + 1)).readTx i fuel
      else if avail < k then s
      else
        let q := 2560 + 2 * i + (if leAt head 2 1 = 0 then 0 else 1)
        if 512 ≤ (s.leaf q).length then s
        else
          let b := s.hostBytes none (slot 0 + 16) (min len 2032)
            ++ (List.range (k - 1)).flatMap fun m =>
                s.hostBytes none (slot (m + 1)) (min 2048 (len - 2032 - 2048 * m))
          let f : FhFrame := { bytes := b, launch := none, queued := s.total,
                               ring := some (r.read, bitOf (leAt head 3 1) 0) }
          let s := s.setIf i { r with read := (r.read + k) % 65536, posted := r.posted ++ [(r.read, k, false)] }
          (s.setLeaf q (s.leaf q ++ [f])).readTx i fuel

/-- HOST_TX_POST (R327): the manager posts transmit slots. -/
def execHostTxPost (i head : Nat) (s : State) : Host.Outcome State Fault Refusal :=
  done (if 32 ≤ i then s else (s.setFld F.FH_HOST_PTR_tx_head i head).readTx i 65536)

/-- FRAME_SELECT (R321): when the transmitter of an interface is free.  A leaf queue that gains room goes on to
take posted frames from the host ring (R320, R327). -/
def execFrameSelect (i : Nat) (s : State) : Host.Outcome State Fault Refusal :=
  done <|
    if 32 ≤ i ∨ !s.linkUp i ∨ (s.ifRec i).tx.any fun t => decide (s.total * 1000 < t.until') then s
    else (s.selectFrame i).readTx i 65536

/-! ### Links (R305, R306, R328) -/

/-- The ball lanes of an interface. -/
def State.ifLanes (s : State) (i : Nat) : List Nat := [0, 1, 2, 3].filter fun l => s.ifOfLane (i / 4) l = i

/-- Whether an interface can come up: present, its port not held down, every lane driven by a SerDes in
service. -/
def State.mayLink (s : State) (i : Nat) : Bool :=
  s.fld F.FH_IF_STATUS_present i = 1 && s.cutBits 8 (i / 4) 34 1 = 0
    && (s.ifLanes i).all fun l => s.fld F.HLTH_UNIT_state (ethUnit (i / 4) (s.laneSerdes (i / 4) l)) = 0

/-- FH_LINK_UP (R305, R306). -/
def execFhLinkUp (i : Nat) (s : State) : Host.Outcome State Fault Refusal :=
  done <|
    if 32 ≤ i ∨ s.linkUp i ∨ !s.mayLink i then s
    else
      let speed := match s.split (i / 4) with
        | 0 => 3
        | 1 => 2
        | _ => 1
      (s.setFld F.FH_IF_STATUS_link_up i 1).setFld F.FH_IF_STATUS_speed i speed

/-- FH_LINK_DOWN. -/
def execFhLinkDown (i : Nat) (s : State) : Host.Outcome State Fault Refusal :=
  done (if 32 ≤ i then s else s.ifDown i)

end Sys2Proof.Machine
end

