-- ==== Sys2Proof/Machine/Cut.lean ====
section
/-!
DEFINITION. The cut image (chapter 3): its layout, the checks of R71 with the conditions of R64, and the
load, the cancel and the end of checking.  What an image installs is in Machine/Install.lean.
-/
namespace Sys2Proof.Machine

/-! ### The image (R57 to R60) -/

/-- A directory entry (R57). -/
structure CutSec where
  ty : Nat
  size : Nat
  count : Nat
  off : Nat
deriving DecidableEq, Repr

/-- An entry of an image: its section type, its bits, its directory index and its index in the section. -/
structure CutEnt where
  ty : Nat
  bits' : Nat
  sec : Nat
  idx : Nat
deriving DecidableEq, Repr

def CutEnt.key (e : CutEnt) : Nat := bits e.bits' 0 24
def CutEnt.op (e : CutEnt) : Nat := bits e.bits' 24 8
def CutEnt.f (e : CutEnt) (lo w : Nat) : Nat := bits e.bits' lo w

/-- Header fields (R57). -/
def cutKind (b : Bytes) : Nat := leAt b 6 1
def cutFull (b : Bytes) : Bool := cutKind b = 0
def cutLen (b : Bytes) : Nat := leAt b 8 4
def cutCount (b : Bytes) : Nat := leAt b 0xC 2
def cutGen (b : Bytes) : Nat := leAt b 0x10 8
def cutBase (b : Bytes) : Nat := leAt b 0x18 8
def cutDue (b : Bytes) : Nat := leAt b 0x20 8

/-- The section directory. -/
def cutSecs (b : Bytes) : List CutSec :=
  (List.range (min (cutCount b) 16)).map fun i =>
    let o := 0x40 + 16 * i
    { ty := leAt b o 2, size := leAt b (o + 2) 2, count := leAt b (o + 4) 4, off := leAt b (o + 8) 4 }

/-- The entry size of a section (R60, R328). -/
def secSize (ty : Nat) : Nat := if ty = 5 then 64 else if ty = 8 then 32 else 16

/-- Every entry of an image whose directory is sound. -/
def cutEnts (b : Bytes) : List CutEnt :=
  ((cutSecs b).zipIdx).flatMap fun (t, i) =>
    (List.range (min t.count 65536)).map fun j =>
      { ty := t.ty, bits' := leAt b (t.off + j * secSize t.ty) (secSize t.ty), sec := i, idx := j }

/-- A failed check: result, directory index and entry index (R68). -/
structure CutRej where
  code : Nat
  sec : Nat
  idx : Nat
deriving DecidableEq, Repr

/-- A result that concerns no section. -/
def CutRej.plain (code : Nat) : CutRej := ⟨code, 0xFF, 0xFFFF⟩

/-- The first failure of a list of checks. -/
def firstRej (l : List (Option CutRej)) : Option CutRej := (l.find? Option.isSome).join

/-- A check that fails with a result. -/
def rejIf (bad : Bool) (r : CutRej) : Option CutRej := if bad then some r else none

/-- The entry of an image that has a type and a key, as the place of a failure; none where the failure
concerns an entry that the image does not carry. -/
def rejAt (es : List CutEnt) (code ty key : Nat) : CutRej :=
  match es.find? fun e => e.ty = ty && e.key = key with
  | some e => ⟨code, e.sec, e.idx⟩
  | none => .plain code

/-! ### Fields (R61, R328) -/

/-- Kinds of a FRONTHAUL key. -/
def fhPort (key : Nat) : Bool := decide (key < 8)
def fhCell (key : Nat) : Bool := decide (0x100 ≤ key) && decide (key < 0x500)
def fhFifo (key : Nat) : Bool := decide (0x800 ≤ key) && decide (key < 0xA00)

/-- The fields of an entry above its key word: first bit and width. -/
def cutFields (ty key : Nat) : List (Nat × Nat) :=
  match ty with
  | 1 => [(32, 3), (40, 4)]
  | 2 => [(32, 2), (34, 12), (46, 12), (58, 1), (80, 8), (88, 8), (96, 8)]
  | 3 => [(32, 2), (40, 8)]
  | 4 => [(32, 4), (40, 5), (48, 8), (56, 8)]
  | 5 => [(32, 16), (48, 16), (64, 3), (72, 1), (73, 1), (256, 256)]
  | 6 => [(32, 20), (52, 9), (64, 16), (80, 1), (81, 1), (82, 1)]
  | 7 => [(32, 4), (48, 8), (64, 32), (96, 32)]
  | 8 =>
    if fhPort key then [(32, 2), (34, 1), (48, 48), (96, 48), (144, 48), (192, 48)]
    else if fhCell key then
      [(32, 5), (40, 4), (44, 4), (48, 16), (64, 16), (80, 16), (96, 12), (108, 3), (111, 3), (114, 4),
       (118, 4), (122, 1), (123, 1), (124, 4), (128, 48), (176, 16), (192, 16), (208, 8)]
    else if fhFifo key then [(32, 1), (33, 12)]
    else []
  | 9 => [(32, 2), (40, 8), (48, 16)]
  | 10 => if key < 32 then [(32, 32), (64, 4), (68, 1), (96, 9), (105, 3), (108, 2)] else [(96, 9)]
  | _ => []

/-- Whether a reserved bit of an entry is set (R59). -/
def CutEnt.reserved (e : CutEnt) : Bool :=
  let rest := (cutFields e.ty e.key).foldl (fun v (lo, w) => v - bits v lo w * 2 ^ lo) e.bits'
  decide (rest / 2 ^ 32 ≠ 0)

/-- The number of keys of a section (R60). -/
def keyOk (ty key : Nat) : Bool :=
  match ty with
  | 1 => decide (key < 1)
  | 2 => decide (key < 256)
  | 3 => decide (key < 32)
  | 4 => decide (key < 1024)
  | 5 => decide (key < 255)
  | 6 => decide (key < 256)
  | 7 => decide (key < 4096)
  | 8 => fhPort key || fhCell key || fhFifo key
  | 9 => decide (key < 2)
  | 10 => decide (key < 42)
  | _ => false

/-- Whether a field of an entry lies outside its range (R61, R71, R328). -/
def CutEnt.outOfRange (e : CutEnt) : Bool :=
  match e.ty with
  | 1 => decide (5 < e.f 32 3)
  | 2 => decide (1 < e.f 32 2) || (decide (1 ≤ e.f 46 12) && decide (e.f 46 12 ≤ 7)) || decide (32 < e.f 80 8)
      || decide (32 < e.f 88 8) || decide (16 < e.f 96 8)
  | 3 => decide (128 < e.f 40 8)
  | 4 => decide (2 < e.f 32 4) || decide (16 < e.f 56 8)
      || decide (e.f 56 8 < match e.f 32 4 with | 0 => 2 | 1 => 16 | _ => 1)
  | 5 => decide (e.f 48 16 = 0) || decide (544 < e.f 48 16) || decide (4 < e.f 64 3)
  | 6 => decide (e.f 52 9 = 255) || (decide (255 < e.f 52 9) && e.f 52 9 ≠ 0x1FF) || e.f 64 16 = 0
  | 7 => e.f 32 4 = 0 || decide (3 < e.f 32 4) || (e.f 32 4 ≠ 1 && e.f 96 32 % 512 ≠ 0)
  | 8 =>
    if fhPort e.key then e.f 32 2 = 3
    else if fhCell e.key then e.f 208 8 = 0 || !([0, 1, 2, 4, 8].contains (e.f 124 4))
    else e.f 33 12 = 0 || decide (2048 < e.f 33 12)
  | 9 => e.f 32 2 = 3 || decide (63 < e.f 40 8)
  | 10 =>
    if e.key < 32 then
      ((List.range 8).any fun j => decide (8 < e.f (32 + 4 * j) 4) && e.f (32 + 4 * j) 4 ≠ 15)
        || e.f 64 2 = 3 || e.f 66 2 = 3
    else e.key < 40 && e.f 102 3 ≠ 0
  | _ => false

/-! ### The form of an image (R57, R59) -/

/-- The first fault of form. -/
def cutForm (b : Bytes) (len : Nat) : Option CutRej :=
  let n := cutCount b
  let secs := cutSecs b
  let lo := 0x40 + 16 * n
  let hi := len - 7856
  if leAt b 0 4 ≠ 0x32434E46 ∨ leAt b 4 2 ≠ 1 ∨ 1 < cutKind b ∨ cutLen b ≠ len ∨ len % 16 ≠ 0 ∨ len < 7936
      ∨ 1048576 < len ∨ n = 0 ∨ 16 < n ∨ leAt b 0xE 2 ≠ 0 ∨ leAt b 0x30 16 ≠ 0 then some (.plain 3)
  else
    let dirBad (t : CutSec) (i : Nat) : Bool :=
      t.ty = 0 || decide (10 < t.ty) || t.size ≠ secSize t.ty || leAt b (0x40 + 16 * i + 12) 4 ≠ 0
        || t.off % 16 ≠ 0 || decide (t.off < lo) || decide (hi < t.off + t.count * secSize t.ty)
        || ((secs.take i).any fun u => u.ty = t.ty
          || meets (u.off, u.count * secSize u.ty) (t.off, t.count * secSize t.ty))
    match (secs.zipIdx).find? fun (t, i) => dirBad t i with
    | some (_, i) => some ⟨3, i, 0xFFFF⟩
    | none =>
      let es := cutEnts b
      let bad := (es.zip (⟨0, 0, 0, 0⟩ :: es)).find? fun (e, before) =>
        e.reserved || (before.ty = e.ty && decide (e.key ≤ before.key))
      bad.map fun (e, _) => ⟨3, e.sec, e.idx⟩

/-! ### The resulting cut (R60, R63) -/

/-- Entries that an image sets or removes, applied to a cut; the removal of an entry that the cut does not hold removes
nothing (DESIGN CHOICE, log entry 154). -/
def applyEnts (m : SMap (Option Nat)) (es : List CutEnt) : SMap (Option Nat) :=
  es.foldl (fun m e =>
    put none m (e.ty * 2 ^ 24 + e.key) (if e.op = 1 then none else some (e.bits' / 2 ^ 32 * 2 ^ 32 + e.key))) m

/-- The cut that an image would leave: a full cut replaces every section, a delta those entries that it
carries and its FRONTHAUL section whole. -/
def State.resulting (s : State) (b : Bytes) : SMap (Option Nat) :=
  let es := cutEnts b
  if cutFull b then applyEnts [] es
  else if (cutSecs b).any fun t => t.ty = 8 then
    applyEnts (s.cut.active.filter fun e => e.1 / 2 ^ 24 ≠ 8) es
  else applyEnts s.cut.active es

/-- The state with another cut active. -/
def State.withCut (s : State) (m : SMap (Option Nat)) : State := { s with cut := { s.cut with active := m } }

/-! ### Checks on the image and the resulting cut (R71); `t` has the resulting cut -/

/-- Sections and entries that R60 requires, and removals that R63 forbids. -/
def cutMissing (b : Bytes) (es : List CutEnt) : Option CutRej :=
  let need : List (Nat × Nat) := [(1, 1), (2, 256), (3, 32), (8, 0), (9, 2), (10, 32)]
  let lack (t : Nat × Nat) : Option CutRej :=
    match (cutSecs b).findIdx? fun u => u.ty = t.1 with
    | none => some (.plain 9)
    | some i =>
      rejIf ((List.range t.2).any fun k => !(es.any fun e => e.ty = t.1 && e.key = k)) ⟨9, i, 0xFFFF⟩
  let forbidden := (es.find? fun e => e.op = 1 && (cutFull b || !([4, 5, 6, 7].contains e.ty))).map
    fun e => (⟨9, e.sec, e.idx⟩ : CutRej)
  firstRej ((if cutFull b then need.map lack else []) ++ [forbidden])

/-- Values outside their range (R71); ports of one group that differ (R403); antenna groups of a cell that is not of
kind 1 (R328). -/
def State.cutValue (t : State) (b : Bytes) (es : List CutEnt) : Option CutRej :=
  let both := t.cutBits 9 0 32 2 = 2 ∧ t.cutBits 9 1 32 2 = 2
  let differ := t.cutBits 9 0 40 8 ≠ t.cutBits 9 1 40 8 ∨ t.cutBits 9 0 48 16 ≠ t.cutBits 9 1 48 16
  firstRej
    [rejIf (cutFull b && (cutBase b ≠ 0 || cutDue b ≠ 0)) (.plain 8),
     (es.find? fun e => decide (1 < e.op) || !keyOk e.ty e.key || (e.op = 0 && e.outOfRange)).map
       fun e => ⟨8, e.sec, e.idx⟩,
     rejIf (decide (both ∧ differ)) (rejAt es 8 9 1),
     (t.boundCells.find? fun c => decide (1 < t.cellFh c 124 4) && t.cellKind c ≠ 1).map fun c =>
       rejAt es 8 8 (0x100 + c)]

/-- The range of a partition in bytes of a vault. -/
def State.partRange (t : State) (q : Nat) : Nat × Nat := (t.cutBits 5 q 32 16 * 0x200000, t.cutBits 5 q 48 16 * 0x200000)

/-- A range brought out to whole pages of 2 MiB. -/
def wholePages (r : Nat × Nat) : Nat × Nat :=
  let lo := r.1 / 0x200000
  (lo * 0x200000, ((r.1 + r.2 + 0x1FFFFF) / 0x200000 - lo) * 0x200000)

/-- Partitions (R62, R71): range, cores of another, pages of a vault region. -/
def State.cutPartitions (t : State) (es : List CutEnt) : Option CutRej :=
  firstRej ((t.keys 5).map fun q =>
    let shared := (t.keys 5).any fun q' => decide (q' < q) && (t.members q).any fun n => t.isMember q' n
    let overlap := (t.members q).any fun n =>
      (t.regions 2 n ++ t.regions 3 n).any fun r => meets (t.partRange q) (wholePages r)
    rejIf (decide (544 < t.cutBits 5 q 32 16 + t.cutBits 5 q 48 16) || shared || overlap) (rejAt es 11 5 q))

/-- Regions (R71). -/
def State.cutRegions (t : State) (es : List CutEnt) : Option CutRej :=
  let kind (r : Nat) := t.cutBits 7 r 32 4
  let core (r : Nat) := t.cutBits 7 r 48 8
  let range (r : Nat) : Nat × Nat := (t.cutBits 7 r 64 32, t.cutBits 7 r 96 32)
  firstRej ((t.keys 7).map fun r =>
    let size := if kind r = 1 then 0x400 else 0x48000
    let overlap := (t.keys 7).any fun r' => decide (r' < r) && core r' = core r
      && (decide (kind r' = 1) == decide (kind r = 1)) && meets (range r') (range r)
    rejIf (!t.isRadio (core r) || decide (size < (range r).1 + (range r).2) || overlap) (rejAt es 12 7 r))

/-- Slices (R71). -/
def State.cutSlices (t : State) (es : List CutEnt) : Option CutRej :=
  let privileged (sl : Nat) : Bool := t.cutBits 6 sl 81 1 = 1
  firstRej ((t.keys 6).map fun sl =>
    let absent := (t.partitionOf sl).any fun q => (t.entry 5 q).isNone
    let twice := (t.keys 6).any fun x => decide (x < sl) && t.cutBits 6 x 32 20 = t.cutBits 6 sl 32 20
    let many := privileged sl && decide (16 < ((t.keys 6).filter fun x => decide (x ≤ sl) && privileged x).length)
    rejIf (absent || twice || many) (rejAt es 13 6 sl))

/-- Cells (R71, R268, R289). -/
def State.cutCapacity (t : State) (es : List CutEnt) : Option CutRej :=
  let jasper (k : Nat) : Nat := t.cutBits 3 k 32 2
  let sum (l : List Nat) : Nat := (l.map t.cellWeight).foldl (· + ·) 0
  let cells := (t.keys 4).map fun c =>
    let k := t.cellCluster c
    let others := (t.clusterCells k).filter fun x => decide (x < c)
    let slotBad := (List.range 8).any fun j =>
      bitOf (t.cellMask c) j && (!t.isRadio (8 * k + j) || others.any fun x => bitOf (t.cellMask x) j)
    let kindBad := if t.cellKind c = 1 then t.cellMask c ≠ 0xFF || jasper k ≠ 3 else jasper k = 0
    rejIf (slotBad || kindBad || decide (16 < sum (others ++ [c]))) (rejAt es 14 4 c)
  let clusters := (List.range 32).map fun k =>
    let pooled := sum ((t.clusterCells k).filter fun c => t.cellMask c = 0)
    rejIf (decide (2 * (t.freeRadioSlots k).length < pooled) || (jasper k ≠ 0 && t.cutBits 3 k 40 8 = 0))
      (rejAt es 14 3 k)
  firstRej (cells ++ clusters)

/-! ### Spare maps and returns (R61, R71, R72) -/

/-- The automatic slots filled: the lowest physical slots in service that no entry has taken. -/
def fillSlots (serve : List Nat) : List Nat → List Nat → List Nat
  | _, [] => []
  | used, e :: es =>
    if e = 15 then
      match serve.find? fun p => !used.contains p with
      | some p => p :: fillSlots serve (p :: used) es
      | none => 15 :: fillSlots serve used es
    else e :: fillSlots serve used es

/-- The physical slots of a cluster in service, active or spare. -/
def State.serving (s : State) (k : Nat) : List Nat :=
  (List.range 9).filter fun e => decide (s.fld F.HLTH_UNIT_state (9 * k + e) ≤ 1)

/-- The entries of a core_slot_map field. -/
def slotEntries (m : Nat) : List Nat := (List.range 8).map fun j => bits m (4 * j) 4

/-- The map that a SPARE entry describes (R61). -/
def State.slotsOf (s : State) (e : CutEnt) : List Nat :=
  let es := slotEntries (e.f 32 32)
  fillSlots (s.serving e.key) (es.filter fun x => x ≠ 15) es

/-- Whether a unit is one that a map may not name: retired, or failed in its last full pass.  A retiring unit still
serves (R22). -/
def State.unfit (s : State) (u : Nat) : Bool :=
  decide (2 < s.fld F.HLTH_UNIT_state u)
    || (s.fld F.HLTH_UNIT_passes u ≠ 0 && s.fld F.HLTH_UNIT_last_pass_ok u = 0)

/-- Whether the map of a SPARE entry is the current one. -/
def State.mapCurrent (s : State) (e : CutEnt) : Bool :=
  decide (s.slotsOf e = slotEntries (s.fld F.CLU_CORE_MAP_core_slot_map e.key))
    && e.f 64 2 = s.fld F.CLU_CORE_MAP_jsp_of_l0 e.key && e.f 66 2 = s.fld F.CLU_CORE_MAP_jsp_of_l1 e.key
    && e.f 68 1 = s.fld F.CLU_CORE_MAP_lantern_phys e.key

/-- R71, spare: what a map may not name, the current one included.  Slots that the entry leaves to the FN2 name nothing
(DEDUCED, log entry 107). -/
def State.cutSpares (s : State) (es : List CutEnt) : Option CutRej :=
  firstRej ((es.filter fun e => e.ty = 10 && decide (e.key < 32)).map fun e =>
    let k := e.key
    let named := (slotEntries (e.f 32 32)).filter fun x => x ≠ 15
    rejIf (!decide named.Nodup || (named.any fun x => s.unfit (9 * k + x)) || e.f 64 2 = e.f 66 2
        || s.unfit (jasperUnit k (e.f 64 2)) || s.unfit (jasperUnit k (e.f 66 2))
        || s.unfit (lanternUnit k (e.f 68 1))) ⟨15, e.sec, e.idx⟩)

/-- The units that the return bits of a SPARE entry name (R61). -/
def CutEnt.returns (e : CutEnt) : List Nat :=
  let pick (lo n : Nat) (unit : Nat → Nat) : List Nat :=
    ((List.range n).filter fun i => e.f (lo + i) 1 = 1).map unit
  if e.key < 32 then
    pick 96 9 (fun i => 9 * e.key + i) ++ pick 105 3 (jasperUnit e.key) ++ pick 108 2 (lanternUnit e.key)
  else if e.key < 40 then pick 96 6 (ethUnit (e.key - 32))
  else pick 96 9 (clinkUnit (e.key - 40))

/-- R72: a returned unit is out of service, and its last full pass since then passed. -/
def State.cutReturns (s : State) (es : List CutEnt) : Option CutRej :=
  firstRej ((es.filter fun e => e.ty = 10).map fun e =>
    rejIf (e.returns.any fun u => s.fld F.HLTH_UNIT_state u ≠ 3 || !look false s.health.passedOut u)
      ⟨16, e.sec, e.idx⟩)

/-! ### The FRONTHAUL section (R329) -/

/-- Whether the split of a port forms an interface (R305). -/
def State.ifFormed (t : State) (i : Nat) : Bool :=
  match t.split (i / 4) with
  | 0 => i % 4 = 0
  | 1 => decide (i % 4 < 2)
  | _ => true

/-- The three eAxC ranges of a cell (R328, R329). -/
def State.eaxcRanges (t : State) (c : Nat) : List (Nat × Nat) :=
  [(t.cellFh c 48 16, 64), (t.cellFh c 64 16, 64), (t.cellFh c 80 16, 64)]

/-- A FRONTHAUL entry less its subscriber rate, burst and weight: the binding of a cell. -/
def State.fhBinding (t : State) (c : Nat) : Option Nat := (t.entry 8 (0x100 + c)).map fun e => bits e 32 144

/-- split and down of a port. -/
def State.portSet (t : State) (p : Nat) : Nat := t.cutBits 8 p 32 3

/-- The last case of R329: a replacement changes split or down of a port, or the binding of a cell, while a cell bound
to that port in the active cut is not OFF. -/
def State.fhLive (s t : State) (b : Bytes) (es : List CutEnt) : Option CutRej :=
  let busy (p : Nat) : Bool := s.boundCells.any fun c => s.cellIf c / 4 = p && s.fld F.CLU_CELL_STATE_state c ≠ 0
  let ports := (List.range 8).map fun p => rejIf (s.portSet p ≠ t.portSet p && busy p) (rejAt es 17 8 p)
  let cells := s.boundCells.map fun c =>
    rejIf (s.fhBinding c ≠ t.fhBinding c && busy (s.cellIf c / 4)) (rejAt es 17 8 (0x100 + c))
  if !cutFull b && (cutSecs b).any (fun u => u.ty = 8) then firstRej (ports ++ cells) else none

/-- The cases of R329; `s` has the active cut. -/
def State.cutFronthaul (s t : State) (b : Bytes) (es : List CutEnt) : Option CutRej :=
  let cells := t.boundCells.map fun c =>
    let iqBad (w m : Nat) : Bool := (decide (0 < w) && decide (w < 8)) || (m = 0 && w ≠ 0)
    let clash := t.boundCells.any fun x => decide (x < c) && t.cellIf x = t.cellIf c
      && (t.eaxcRanges x).any fun r => (t.eaxcRanges c).any fun r' => meets r r'
    let mixed := t.fhCells.contains c && t.fhCells.any fun x => x ≠ c && t.ulFifo c = t.dlFifo x
    rejIf (!t.ifFormed (t.cellIf c) || clash || mixed || iqBad (t.cellFh c 114 4) (t.cellFh c 122 1)
      || iqBad (t.cellFh c 118 4) (t.cellFh c 123 1)) (rejAt es 17 8 (0x100 + c))
  let fifos := ((t.keys 8).filter fhFifo).map fun k =>
    rejIf (t.cutBits 8 k 32 1 = 1 && t.fhCells.any fun c => t.dlFifo c = k - 0x800) (rejAt es 17 8 k)
  firstRej (cells ++ fifos ++ [s.fhLive t b es])

/-! ### The conditions of R64 and R69 -/

/-- The configuration under which a cell that is STARTING or ACTIVE runs. -/
def State.liveConfig (s : State) (c : Nat) : Option Bytes :=
  let r := s.cell c
  match s.fld F.CLU_CELL_STATE_state c with
  | 1 => r.waiting.map (·.config)
  | 2 => some r.config
  | _ => none

/-- Whether slot 0 of a logical core holds a radio context. -/
def State.slot0 (s : State) (n : Nat) : Bool := (s.physOf n).any fun p => (s.ctx p 0).isSome

/-- Whether a slice counts as quiesced (R354). -/
def State.isQuiesced (s : State) (sl : Nat) : Bool := s.slState sl = slQuiesced || s.slState sl = slUnbound

/-- Whether a rental context of a logical core owns a scratchpad granule that a region of `t` covers; an evicted one
owns none (R196). -/
def State.ownsRadio (s t : State) (r : Nat) : Bool :=
  let lo := t.cutBits 7 r 64 32 * 4096
  (s.physOf (t.cutBits 7 r 48 8)).any fun p =>
    (granules lo (t.cutBits 7 r 96 32 * 4096)).any fun g => (s.granuleSlot p g).isSome

/-- The first condition that fails: for a full cut R69, for a delta R64 and R365.  A delta may change the PASID of a
slice that TDISP has not locked, for which R64 has no row (DESIGN CHOICE, log entry 154).  A changed region asks slot 0
empty on the core that it leaves and on the one it comes to (DESIGN CHOICE, log entry 189). -/
def State.cutLive (s t : State) (b : Bytes) (es : List CutEnt) : Option CutRej :=
  if cutFull b then rejIf (s.cores.any fun e => e.2.ctx.any fun x => x.2.isSome) (.plain 10)
  else
    let code := t.cutBits 1 0 32 3
    let period := rejIf (code ≠ s.fld F.TIME_TICK_STATUS_period_code 0 && (t.entry 1 0).isSome
        && (t.keys 4).any fun c => (s.liveConfig c).any fun g => decide (cfgSlot g < tickPeriod code)) (rejAt es 10 1 0)
    let cores := (List.range 256).map fun n =>
      let diff (lo w : Nat) : Bool := s.cutBits 2 n lo w ≠ t.cutBits 2 n lo w
      rejIf ((diff 32 2 || diff 58 1 || diff 80 24) && s.slot0 n) (rejAt es 10 2 n)
    let clusters := (List.range 32).map fun k =>
      let less := (List.range 2).any fun i => bitOf (s.cutBits 3 k 32 2) i && !bitOf (t.cutBits 3 k 32 2) i
      rejIf ((less || decide (t.cutBits 3 k 40 8 < s.cutBits 3 k 40 8)) && !(t.clusterCells k).isEmpty) (rejAt es 10 3 k)
    let parts := (s.keys 5).map fun q =>
      let resident := (s.keys 6).any fun sl => s.partitionOf sl = some q && !(s.contextsOf sl).isEmpty
      rejIf (s.entry 5 q ≠ t.entry 5 q && resident) (rejAt es 10 5 q)
    let slices := (s.keys 6).map fun sl =>
      let diff (lo w : Nat) : Bool := s.cutBits 6 sl lo w ≠ t.cutBits 6 sl lo w
      let gone := (t.entry 6 sl).isNone
      let held := gone || diff 52 9 || diff 81 1 || diff 82 1
      let locked := s.tdiLocked sl && (gone || diff 32 32 || diff 80 3)
      rejIf ((held && !s.isQuiesced sl) || locked) (rejAt es 10 6 sl)
    let regions := (s.keys 7).map fun r =>
      rejIf (s.entry 7 r ≠ t.entry 7 r && (s.slot0 (s.cutBits 7 r 48 8)
        || ((t.entry 7 r).isSome && s.slot0 (t.cutBits 7 r 48 8)))) (rejAt es 10 7 r)
    let added := ((t.keys 7).filter fun r => (s.entry 7 r).isNone && t.cutBits 7 r 32 4 = 1).map fun r =>
      rejIf (s.ownsRadio t r) (rejAt es 10 7 r)
    let clink := [0, 1].map fun c =>
      let a := s.cutBits 9 c 32 2
      let z := t.cutBits 9 c 32 2
      rejIf (a ≠ z && a ≠ 0 && z ≠ 0) (rejAt es 10 9 c)
    let spares := (es.filter fun e => e.ty = 10 && decide (e.key < 32)).map fun e =>
      rejIf (!s.mapCurrent e) ⟨10, e.sec, e.idx⟩
    firstRej ([period] ++ cores ++ clusters ++ parts ++ slices ++ regions ++ added ++ clink ++ spares)

/-! ### Checking (R66, R71) -/

/-- The first failing check of the image in the buffer.  The manual gives no order among the results (log entry 12).  A
delta on generation 0 is taken before the first full cut, and the generation after 2^64 - 1 is 0 (DESIGN CHOICE, log
entry 188). -/
def State.cutCheck (s : State) : Option CutRej :=
  let b := s.cut.image
  let len := s.fld F.CUT_CTL_len 0
  let slot := leAt b 7 1
  let bind := leAt b 0x28 8
  let gen := s.fld F.CUT_GEN_generation 0
  if s.cut.fetchFailed then some (.plain 18)
  else match cutForm b len with
    | some r => some r
    | none =>
      let es := cutEnts b
      let t := s.withCut (s.resulting b)
      let stale := if cutFull b then decide (cutGen b ≤ gen)
        else cutBase b ≠ gen || cutGen b ≠ (cutBase b + 1) % 2 ^ 64
      firstRej
        [rejIf (bind ≠ 0 && bind ≠ deviceBind) (.plain 4),
         rejIf (!s.keyGood slot) (.plain 2),
         rejIf (!Config.slhVerify 0 (s.keyOf slot) (b.take (len - 7856)) (b.drop (len - 7856))) (.plain 1),
         rejIf stale (.plain 5), cutMissing b es, t.cutValue b es, t.cutPartitions es, t.cutRegions es,
         t.cutSlices es, t.cutCapacity es, s.cutFronthaul t b es, s.cutSpares es, s.cutReturns es,
         s.cutLive t b es,
         rejIf (!cutFull b && cutDue b ≠ 0 && decide (cutDue b ≤ s.tickNo)) (.plain 7)]

/-- An event of CUT_EVENT, with its message when the bit becomes 1 (R70). -/
def State.cutSignal (s : State) (f : Fld) : State := if s.fld f 0 = 1 then s else (s.setFld f 0 1).cutEvent

/-- A rejection, a drop or a refusal (R68, R69): nothing else changes. -/
def State.cutReject (s : State) (r : CutRej) : State :=
  (((s.setFld F.CUT_STATUS_last_result 0 r.code).setFld F.CUT_STATUS_last_section 0 r.sec).setFld
    F.CUT_STATUS_last_entry 0 r.idx).cutSignal F.CUT_EVENT_rejected

/-- The buffer emptied, state 0 and no period pending. -/
def State.cutIdle (s : State) : State :=
  let s := (s.setFld F.CUT_STATUS_state 0 0).setFld F.TIME_TICK_STATUS_period_pending 0 0
  let s := s.setFld F.TIME_TICK_STATUS_pending_code 0 0
  { s with cut := { s.cut with image := [], fetchFailed := false, waiting := none } }

/-- The image fetched into the buffer (R65). -/
def State.cutFetch (s : State) : State :=
  let a := s.fld F.CUT_LOAD_ADDR_addr_4k 0 * 4096
  let n := s.fld F.CUT_CTL_len 0
  { s with cut := { s.cut with image := s.hostBytes none a n, fetchFailed := s.hostError none a n, waiting := none } }

/-- `load` (R65, R69, R441). -/
def State.cutLoad (s : State) : State :=
  if s.fld F.CUT_STATUS_state 0 ≠ 0 ∨ s.bootState < 4 then s.cutReject (.plain 6)
  else
    let s := s.setFld F.CUT_STATUS_state 0 1
    if s.canIssue 0 then s.cutFetch else { s with cut := { s.cut with waiting := some s.time.clk } }

/-- Whether the staged image applies in this cycle: its boundary is due. -/
def State.cutApplies (s : State) : Bool :=
  s.fld F.CUT_STATUS_state 0 = 2 && s.tickDue.any fun n => decide (s.cut.applyAt ≤ n)

/-- `cancel` (R69): without effect in the apply cycle. -/
def State.cutCancel (s : State) : State :=
  if s.fld F.CUT_STATUS_state 0 = 0 ∨ s.cutApplies then s else s.cutIdle.cutSignal F.CUT_EVENT_cancelled

/-- A write of CUT_CTL (R65, R69): len written while an image is checked is ignored and counted; cancel acts before
load (log entry 101).  A write of the register that cancels writes len as well (DESIGN CHOICE, log entry 187). -/
def State.cutCtlWrite (s : State) (len : Nat) (load cancel : Bool) : State :=
  let s := if s.fld F.CUT_STATUS_state 0 = 1 then s.badAccess 0 0x100008 else s.setFld F.CUT_CTL_len 0 len
  let s := if cancel then s.cutCancel else s
  if load then s.cutLoad else s

/-- A write of CUT_LOAD_ADDR (R69). -/
def State.cutAddrWrite (s : State) (v : Nat) : State :=
  if s.fld F.CUT_STATUS_state 0 = 1 then s.badAccess 0 0x100000 else s.setFld F.CUT_LOAD_ADDR_addr_4k 0 (v / 4096)

/-- CUT_LOAD (R65, R69). -/
def execCutLoad (len : Nat) (s : State) : Host.Outcome State Fault Refusal := done (s.cutCtlWrite len true false)

/-- CUT_CANCEL (R69). -/
def execCutCancel (s : State) : Host.Outcome State Fault Refusal := done s.cutCancel

/-! ### Staging (R66, R37) -/

/-- The period code that an image leaves. -/
def State.newPeriod (s : State) (b : Bytes) : Nat :=
  let t := s.withCut (s.resulting b)
  if (t.entry 1 0).isSome then t.cutBits 1 0 32 3 else s.fld F.TIME_TICK_STATUS_period_code 0

/-- Whether a period change may take effect at a tick boundary: a multiple of the larger period (R37). -/
def State.qualifies (s : State) (code n : Nat) : Bool := s.tickInstant n % max s.period (tickPeriod code) = 0

/-- The first boundary from `n` on at which an image that leaves a period code may apply; the larger period is at
most 32 of the smaller. -/
def State.applyTick (s : State) (code n : Nat) : Nat :=
  if code = s.fld F.TIME_TICK_STATUS_period_code 0 then n
  else n + ((List.range 32).find? fun i => s.qualifies code (n + i)).getD 0

/-- The image staged, with its apply tick (R66); R72: the memories of a returned core are lost with its
logical number (R23) and zero when it is mapped again. -/
def State.cutStage (s : State) : State :=
  let b := s.cut.image
  let code := s.newPeriod b
  let due := if cutFull b ∨ cutDue b = 0 then s.tickNo + 1 else cutDue b
  let n := s.applyTick code due
  let s := (s.setFld F.CUT_STATUS_state 0 2).setFld F.CUT_STAGED_TICK_apply_tick 0 n
  let s := { s with cut := { s.cut with applyAt := n } }
  if code = s.fld F.TIME_TICK_STATUS_period_code 0 then s
  else (s.setFld F.TIME_TICK_STATUS_period_pending 0 1).setFld F.TIME_TICK_STATUS_pending_code 0 code

/-- CUT_CHECK_END (R66, R68): a fetch held past the wait limit has ended as a host error (R368). -/
def execCutCheckEnd (s : State) : Host.Outcome State Fault Refusal :=
  done <|
    let held := s.cut.waiting.isSome && !s.canIssue 0
    let late := held && s.heldOut 257 s.cut.waiting
    if s.fld F.CUT_STATUS_state 0 ≠ 1 ∨ (held ∧ !late) then s
    else
      let s := if late then { s with cut := { s.cut with fetchFailed := true } }
        else if s.cut.waiting.isSome then s.cutFetch else s
      match s.cutCheck with
      | some r => s.cutIdle.cutReject r
      | none => s.cutStage

end Sys2Proof.Machine
end

