-- ==== Sys2Proof/Machine/Install.lean ====
section
/-!
DEFINITION. What a cut image installs at its apply boundary (R56, R67, R73), in step 2 of R38.
-/
namespace Sys2Proof.Machine

/-! ### The period (R36, R37) -/

/-- A new period: its base is the boundary `n` under the old one. -/
def State.installPeriod (s : State) (code n : Nat) : State :=
  if code = s.fld F.TIME_TICK_STATUS_period_code 0 then s
  else
    let at' := s.tickInstant n
    let s := (s.setFld F.TIME_TICK_BASE_base_ns 0 at').setFld F.TIME_TICK_BASE_base_tick 0 n
    s.setFld F.TIME_TICK_STATUS_period_code 0 code

/-! ### Partitions and slices (R200, R354) -/

/-- Pages that a removed or unbound slice still owns and that are still to be written to zero (R200). -/
def State.pagesToZero (s : State) : List (Nat × Nat) :=
  s.slices.flatMap fun e => if e.2.release then e.2.zeroPages.map fun i => (i, e.1) else []

/-- The entries of pages `[lo, lo + len)` of a physical core at their reset values; a page that is zeroed first keeps
its owner until its zeroing ends, which sets the reset value (R200, R481). -/
def State.resetPages (s : State) (p lo len : Nat) : State :=
  let c := Reg.code .CORE_VAULT_PAGE
  let t := { s with regs := put [] s.regs c (dropRange (look [] s.regs c) (p * 576 + lo) len) }
  (s.pagesToZero.filter fun x => decide (p * 576 + lo ≤ x.1) && decide (x.1 < p * 576 + lo + len)).foldl
    (fun t x => t.setFld F.CORE_VAULT_PAGE_owner x.1 (s.fld F.CORE_VAULT_PAGE_owner x.1)) t

/-- R200: the pages of a new partition, of a changed range, and of a core added; `old` has the former cut. -/
def State.installPartition (s old : State) (q : Nat) : State :=
  let base := s.cutBits 5 q 32 16
  let len := s.cutBits 5 q 48 16
  let same := (old.entry 5 q).isSome && old.cutBits 5 q 32 32 = s.cutBits 5 q 32 32
  ((s.members q).filter fun n => !(same && old.isMember q n)).foldl (fun s n =>
    match s.physOf n with
    | some p => s.resetPages p base len
    | none => s) s

/-- The sequences and pages of a slice freed (R354, R200, R212): the pages that it owned under the former cut. -/
def State.freeSlice (s old : State) (sl : Nat) : State :=
  let s := s.dropSeqs sl
  (s.setSlice sl { s.slice sl with zeroPages := old.pagesOf sl, release := true, deferred := none }).passPages sl

/-- The sequences of a slice held from now on by the Lamplighter of die `dst`, that of its partition's lowest core
(R15), with the step that it has in flight; one for which the table has no free entry stays (DESIGN CHOICE, log entry
176). -/
def State.moveSeqs (s : State) (sl src dst : Nat) : State :=
  let r := (s.seqsOf sl).foldl (fun (r : State × List (Nat × Nat)) e =>
    match r.1.freeSeq dst with
    | some k => ((r.1.setSeq k (some e.2)).setSeq e.1 none, (e.1, k) :: r.2)
    | none => r) (s, [])
  let name (k : Nat) : Nat := ((r.2.find? fun x => x.1 = k).map (·.2)).getD k
  let l := s.lampSlice sl
  let s := r.1.setLamp sl { l with
    step := l.step.map fun (t : StepRun) =>
      { t with entries := t.entries.map fun (e : StepEntry) => { e with index := name e.index } }
    out := l.out.map fun (o : OutRec) => { o with frees := o.frees.map name } }
  if l.step.isSome then
    (s.lower F.LAMP_STATUS_steps_in_flight src 1).count F.LAMP_STATUS_steps_in_flight dst 1
  else s

/-- The fields of SLC_STATE that the cut gives. -/
def State.showSlice (s : State) (sl : Nat) : State :=
  let s := s.setFld F.SLC_STATE_confidential sl (s.cutBits 6 sl 82 1)
  let s := s.setFld F.SLC_STATE_privileged sl (s.cutBits 6 sl 81 1)
  let s := s.setFld F.SLC_STATE_protect_radio sl (s.cutBits 6 sl 80 1)
  s.setFld F.SLC_STATE_partition sl ((s.partitionOf sl).getD 0x1FF)

/-- A full cut recreates a slice: what a command or a reset had under way ends (R354, R356). -/
def State.recreate (s : State) (sl : Nat) : State :=
  let s := if (s.slice sl).command.isSome then s.endSliceCmd sl 11 else s
  s.setSlice sl { s.slice sl with fenced := false }

/-- The slice `sl` under the new cut (R354). -/
def State.installSlice (s old : State) (full : Bool) (sl : Nat) : State :=
  let had := (old.entry 6 sl).isSome
  let has := (s.entry 6 sl).isSome
  let moved := old.partitionOf sl ≠ s.partitionOf sl
  let fresh := if (s.partitionOf sl).isSome then slActive else slUnbound
  let s := s.showSlice sl
  if !has then if had then (s.freeSlice old sl).setSlState sl slAbsent else s
  else if !had then s.setSlState sl fresh
  else
    let s := if moved then s.freeSlice old sl
      else if old.lampDie sl = s.lampDie sl then s else s.moveSeqs sl (old.lampDie sl) (s.lampDie sl)
    if full then (s.recreate sl).setSlState sl fresh
    else if moved then s.setSlState sl (if (s.partitionOf sl).isSome then slQuiesced else slUnbound)
    else s

/-! ### The fronthaul (R305, R312, R320, R323) -/

/-- dir, legacy and threshold of a FIFO. -/
def State.installFifo (s : State) (f : Nat) : State :=
  let ul := s.fhCells.any fun c => s.ulFifo c = f
  let dl := s.fhCells.any fun c => s.dlFifo c = f
  let th := if (s.entry 8 (0x800 + f)).isSome then s.cutBits 8 (0x800 + f) 33 12 else 8
  let s := s.setFld F.FIFO_CFG_dir f (if ul then 1 else if dl then 2 else 0)
  (s.setFld F.FIFO_CFG_legacy f (s.cutBits 8 (0x800 + f) 32 1)).setFld F.FIFO_CFG_threshold f th

/-- Presence, address and link of an interface: a changed split, or `down`, takes its link down. -/
def State.installIf (s old : State) (i : Nat) : State :=
  let mac := s.cutBits 8 (i / 4) (48 + 48 * (i % 4)) 48
  let fused := getBits (Reg.resetVal .FH_IF_STATUS i) 0 48
  let s := s.setFld F.FH_IF_STATUS_src_mac i (if mac = 0 then fused else mac)
  let s := s.setFld F.FH_IF_STATUS_present i (if s.ifFormed i then 1 else 0)
  if old.split (i / 4) ≠ s.split (i / 4) ∨ s.cutBits 8 (i / 4) 34 1 = 1 then s.ifDown i else s

/-- The shapers of a bound cell (R56, R320): a group takes the rate divided by the groups. -/
def State.installShapers (s : State) (c : Nat) : State :=
  let g := s.cellGroups c
  (List.range g).foldl (fun s i =>
    let n := s.subNode c i
    let s := (s.setFld F.FH_SHAPER_rate n (s.cellFh c 176 16 / g)).setFld F.FH_SHAPER_burst n (s.cellFh c 192 16)
    { s with fh := { s.fh with shaper := put none s.fh.shaper n none } }) s

/-- What a FRONTHAUL section installs. -/
def State.installFronthaul (s old : State) (carried : Bool) : State :=
  let s := (List.range 512).foldl (fun s f => s.installFifo f) s
  if carried then
    let s := (List.range 32).foldl (fun s i => s.installIf old i) s
    s.boundCells.foldl (fun s c => s.installShapers c) s
  else s

/-- The Beryl memories of the cores whose radio parts change (R263). -/
def State.installBeryl (s old : State) : State :=
  (s.cores.map (·.1)).foldl (fun s p =>
    s.setCore p { s.core p with beryl := s.berylResized old p (s.core p).beryl }) s

/-! ### Cells and Citia Link (R274, R403, R414) -/

/-- R274: a cell whose entry is gone, or changed in kind, cluster or core_mask. -/
def State.cellChanged (old new : State) (c : Nat) : Bool :=
  (new.entry 4 c).isNone || old.cutBits 4 c 32 24 ≠ new.cutBits 4 c 32 24

/-- The role of a port; a role that ends takes its link down.  A new twin port takes its part in the pair that another
one serves (R414), else it searches, with no heartbeat counted yet. -/
def State.installPort (s : State) (c : Nat) : State :=
  let role := s.cutBits 9 c 32 2
  let was := s.fld F.CLINK_PORT_STATUS_role c
  let s := if role = was then s else s.clinkDown c
  let s := (s.setFld F.CLINK_PORT_STATUS_role c role).setFld F.CLINK_PORT_STATUS_member c (s.cutBits 9 c 40 8)
  let s := s.setFld F.CLINK_PORT_STATUS_group_id c (s.cutBits 9 c 48 16)
  let o := 1 - c
  if role = was then s
  else if role ≠ 1 then s.setFld F.CLINK_TWIN_STATUS_state c 0
  else if s.role o = 1 then
    ((s.setFld F.CLINK_TWIN_STATUS_state c (s.fld F.CLINK_TWIN_STATUS_state o)).setFld F.CLINK_TWIN_STATUS_missed c
      (s.fld F.CLINK_TWIN_STATUS_missed o)).setFld F.CLINK_TWIN_STATUS_mirror_ok c (s.fld F.CLINK_TWIN_STATUS_mirror_ok o)
  else (s.setFld F.CLINK_TWIN_STATUS_state c 1).onTwin fun t => { t with beat := false, consec := 0 }

/-! ### Spare maps and returns (R61, R73) -/

/-- The map of a cluster installed by a full cut: no context holds a slot then.  A device address keeps naming
the same data (R31); what lay in a slot that loses its core is lost (R23). -/
def State.installMap (s : State) (k : Nat) (new : List Nat) : State :=
  let s := if slotEntries (s.fld F.CLU_CORE_MAP_core_slot_map k) = new then s
    else new.zipIdx.foldl (fun s (e, j) =>
      let s := s.setSlotMap k j e
      if e = 15 then (s.zeroRange (vaultAddr (8 * k + j) 0) 0x48000000).zeroRange (spmAddr (8 * k + j) 0) 0x400000
      else s) s
  (s.serving k).foldl (fun s e =>
    let st := if new.contains e then 0 else 1
    (s.setFld F.HLTH_UNIT_state (9 * k + e) st).setFld F.HLTH_UNIT_state (vaultUnit (9 * k + e)) st) s

/-- The Jasper engines and the Lantern that a full cut's map names. -/
def State.installUnits (s : State) (k l0 l1 lant : Nat) : State :=
  let s := ((s.setFld F.CLU_CORE_MAP_jsp_of_l0 k l0).setFld F.CLU_CORE_MAP_jsp_of_l1 k l1).setFld
    F.CLU_CORE_MAP_lantern_phys k lant
  let s := [0, 1, 2].foldl (fun s e =>
    let u := jasperUnit k e
    let st := if e = l0 ∨ e = l1 then 0 else 1
    if s.fld F.HLTH_UNIT_state u ≤ 1 then (s.setFld F.HLTH_UNIT_state u st).setFld F.JSP_ENGINE_state (3 * k + e) st
    else s) s
  [0, 1].foldl (fun s l =>
    let u := lanternUnit k l
    if s.fld F.HLTH_UNIT_state u ≤ 1 then s.setFld F.HLTH_UNIT_state u (if l = lant then 0 else 1) else s) s

/-- A unit back in service with a state, score 160 (R387). -/
def State.serve (s : State) (u st : Nat) : State :=
  let s := ((s.setFld F.HLTH_UNIT_score u 160).setFld F.HLTH_UNIT_state u st).setFld F.HLTH_UNIT_flagged u 0
  s.onHealth fun h => { h with installs := h.installs.filter fun i => i.1 ≠ u }

/-- A returned core (R72, R73): the lowest unmapped logical slot takes it, with empty memories and no context;
else it is the cluster's spare. -/
def State.returnCore (s : State) (p : Nat) : State :=
  let k := p / 9
  let s := s.setCore p { Core.init with spares := (s.core p).spares }
  match (List.range 8).find? fun j => s.slotMap k j = 15 with
  | some j =>
    let n := 8 * k + j
    let s := ((s.serve p 0).serve (vaultUnit p) 0).setSlotMap k j (p % 9)
    (s.zeroRange (vaultAddr n 0) 0x48000000).zeroRange (spmAddr n 0) 0x400000
  | none => (s.serve p 1).serve (vaultUnit p) 1

/-- The unit out of service that a logical Lantern or a ball lane among the peers of `u` still names and to which no
spare is promised. -/
def State.unserved (s : State) (u : Nat) : Option Nat :=
  (peers u).find? fun v =>
    s.fld F.HLTH_UNIT_state v ≠ 0 && (s.health.installs.all fun i => i.1 ≠ v)
      && (if v < 736 then s.fld F.CLU_CORE_MAP_lantern_phys ((v - 672) / 2) = (v - 672) % 2
        else if v < 816 then (s.serdesLane ((v - 768) / 6) ((v - 768) % 6)).isSome
        else (s.clinkLane ((v - 816) / 9) ((v - 816) % 9)).isSome)

/-- A returned unit other than a core is a spare of its kind (R73).  A Lantern or SerDes is installed at the next
boundary where a logical Lantern or a lane of its group has no unit (R306, R393, R405; DESIGN CHOICE, log entry 173).
-/
def State.returnUnit (s : State) (u : Nat) : State :=
  if u < 288 then (s.returnCore u).refreshMap (u / 9)
  else if 576 ≤ u ∧ u < 672 then (s.serve u 1).setFld F.JSP_ENGINE_state (u - 576) 1
  else
    let s := s.serve u 1
    match s.unserved u with
    | some v => s.onHealth fun h => { h with installs := h.installs ++ [(v, some u)] }
    | none => s

/-- The SPARE entries of an image: returns, of a full cut too, then, in a full cut, the maps (DESIGN CHOICE, log entry
154). -/
def State.installSparesOf (s : State) (full : Bool) (es : List CutEnt) : State :=
  let es := es.filter fun e => e.ty = 10
  let s := es.foldl (fun s e => e.returns.foldl (fun s u => s.returnUnit u) s) s
  if full then
    (es.filter fun e => decide (e.key < 32)).foldl (fun s e =>
      let k := e.key
      ((s.installMap k (s.slotsOf e)).installUnits k (e.f 64 2) (e.f 66 2) (e.f 68 1)).refreshMap k) s
  else s

/-! ### The whole image (R67) -/

/-- The registers of the cut after an image applies: generation, chain digest, result and state. -/
def State.cutRecord (s : State) (b : Bytes) : State :=
  let prev := if cutFull b then leBytes 32 0 else leBytes 32 (s.fld F.CUT_CHAIN_DIGEST_digest 0)
  let s := s.setFld F.CUT_GEN_generation 0 (cutGen b)
  let s := s.setFld F.CUT_CHAIN_DIGEST_digest 0 (leNat (sha256 (prev ++ sha256 b)))
  let s := ((s.setFld F.CUT_STATUS_last_result 0 0).setFld F.CUT_STATUS_last_section 0 0xFF).setFld
    F.CUT_STATUS_last_entry 0 0xFFFF
  let s := if cutFull b then s.setFld F.CUT_STATUS_active_valid 0 1 else s
  s.cutIdle.cutSignal F.CUT_EVENT_applied

/-- The image installed at boundary `n`; the first full cut makes the device ready (R56). -/
def State.installCut (s : State) (b : Bytes) (n : Nat) : State :=
  let old := s
  let es := cutEnts b
  let full := cutFull b
  let s := (s.withCut (s.resulting b)).installPeriod (s.newPeriod b) n
  let s := (s.installSparesOf full es).installBeryl old
  let s := ((old.keys 4).filter fun c => State.cellChanged old s c).foldl (fun s c => s.removeCell old c) s
  let s := (List.range 256).foldl (fun s sl => s.installSlice old full sl) s
  let s := (s.keys 5).foldl (fun s q => s.installPartition old q) s
  let s := s.installFronthaul old ((cutSecs b).any fun t => t.ty = 8)
  let s := [0, 1].foldl (fun s c => s.installPort c) s
  let s := s.cutRecord b
  let s := if full ∧ s.bootState = 4 then (s.setFld F.DEV_STATUS_ready 0 1).setBoot 5 else s
  (s.mirrorSend (.cutImage b)).afterAll

/-- Step 2 of R38: the image whose tick has come is installed, or dropped whole (R67, R68).  The conditions checked once
more include R69's on a full cut (DESIGN CHOICE, log entry 154) and the last case of R329. -/
def State.dueCut (s : State) (n : Nat) : State :=
  let b := s.cut.image
  let code := s.newPeriod b
  let es := cutEnts b
  if s.fld F.CUT_STATUS_state 0 ≠ 2 ∨ n < s.cut.applyAt then s
  else if code ≠ s.fld F.TIME_TICK_STATUS_period_code 0 ∧ !s.qualifies code n then s
  else match firstRej [s.cutReturns es, s.cutLive (s.withCut (s.resulting b)) b es,
      s.fhLive (s.withCut (s.resulting b)) b es] with
    | some r => s.cutIdle.cutReject r
    | none => s.installCut b n

end Sys2Proof.Machine
end

