-- ==== Sys2Proof/Machine/Power.lean ====
section
/-!
DEFINITION. Rails, straps, throttling and thermal limits (chapter 21), and the monitors (R402).
-/
namespace Sys2Proof.Machine

/-! ### Straps and rails (R465, R470) -/

/-- VDD_AUX_ON (R465): the straps are sampled once. -/
def execVddAuxOn (sbMode : Bool) (sbAddr : Nat) (trefSel : Bool) (s : State) : Host.Outcome State Fault Refusal :=
  done <|
    if s.pins.auxOn then s
    else { s with pins := { s.pins with auxOn := true, sbMode := sbMode, sbAddr := sbAddr % 4, trefSel := trefSel } }

/-- VDD_AUX_OFF (R465, R433): power is lost; only the fuses stay. -/
def execVddAuxOff (s : State) : Host.Outcome State Fault Refusal :=
  done <|
    if !s.pins.auxOn then s
    else
      let s := s.deviceReset
      { s with
        pins := { s.pins with auxOn := false, sbMode := false, sbAddr := 0, trefSel := false, therm := true,
                              thermtrip := true }
        power := { s.power with tripped := false } }

/-- Whether a rail that leaves its tolerance resets the device (R470). -/
def railResets : Rail → Bool
  | .vddAux => false
  | .vdd1v8 => false
  | _ => true

/-- RAIL_UNDERVOLTAGE (R470). -/
def execRailUndervoltage (rail : Rail) (s : State) : Host.Outcome State Fault Refusal :=
  done <|
    if railResets rail then
      let s := s.deviceReset
      { s with power := { s.power with down := if s.power.down.contains rail then s.power.down
                                                else s.power.down ++ [rail] } }
    else s

/-- RAIL_RESTORE (R470): every rail is back; start-up goes on at step 2. -/
def execRailRestore (s : State) : Host.Outcome State Fault Refusal :=
  done { s with power := { s.power with down := [] } }

/-! ### Throttling (R473 to R478) -/

/-- The causes that the two controls of a die follow, each on its own (R478). -/
abbrev byPower : Nat := 0
abbrev byHeat : Nat := 1

/-- The key of a die and a cause. -/
def throttleKey (die cause : Nat) : Nat := die * 2 + cause

/-- What a cause takes off d and off m of a die. -/
def State.dOff (s : State) (die cause : Nat) : Nat := look 0 s.power.dutyOff (throttleKey die cause)
def State.mOff (s : State) (die cause : Nat) : Nat := look 0 s.power.multOff (throttleKey die cause)

/-- The clock multiplier of a die (R474). -/
def State.mult (s : State) (die : Nat) : Nat := 16 - max (s.mOff die byPower) (s.mOff die byHeat)

/-- The power block changed. -/
def State.onPower (s : State) (f : PowerBlk → PowerBlk) : State := { s with power := f s.power }

def State.setDOff (s : State) (die cause v : Nat) : State :=
  s.onPower fun b => { b with dutyOff := put 0 b.dutyOff (throttleKey die cause) v }

def State.setMOff (s : State) (die cause v : Nat) : State :=
  s.onPower fun b => { b with multOff := put 0 b.multOff (throttleKey die cause) v }

/-! ### AVSBus (R467) -/

/-- The set voltage of a core rail in steps of 5 mV: 0.75 V until the first AVSBus write. -/
def State.coreVolt (s : State) (rail : Nat) : Nat := look 150 s.power.volts rail

/-- The voltage that the device wants for a die at a multiplier, within the range of R466 (log entry 159). -/
def State.wantVolt (s : State) (die m : Nat) : Nat :=
  max 130 (min 170 (Config.coreVoltage die m ((List.range 144).map fun i => s.fld F.HLTH_MON_proc i)))

/-- An AVSBus write to the rail of a die, where the voltage changes. -/
def State.setVolt (s : State) (die m : Nat) : State :=
  let v := s.wantVolt die m
  if s.coreVolt die = v then s
  else s.onPower fun b => { b with volts := put 150 b.volts die v, avs := b.avs ++ [(die, v, s.mult die)] }

/-- A change of the clock multiplier of a die: the voltage rises before the clock, and falls after it. -/
def State.changeClock (s : State) (die : Nat) (f : State → State) : State :=
  let m := (f s).mult die
  if s.mult die < m then f (s.setVolt die m)
  else if m < s.mult die then (f s).setVolt die m
  else f s

/-- The cycle, + 1, since which a condition holds: kept while it holds, 0 when it does not. -/
def since (s : State) (old : Nat) (holds : Bool) : Nat :=
  if holds then (if old = 0 then s.time.clk + 1 else old) else 0

/-- Whether a condition has held for a number of cycles. -/
def State.heldFor (s : State) (v n : Nat) : Bool := v ≠ 0 && decide (v - 1 + n ≤ s.time.clk)

/-- Stage 1 of a cause at a sample (R474): d falls by 1 down to 4, and once it has been at 4 for 1 ms the cause is
at stage 2. -/
def State.stageOne (s : State) (die cause : Nat) (exceeds : Bool) : State :=
  let k := throttleKey die cause
  let s := if exceeds ∧ s.dOff die cause < 12 then s.setDOff die cause (s.dOff die cause + 1) else s
  let h := since s (look 0 s.power.held k) (exceeds && decide (12 ≤ s.dOff die cause))
  s.onPower fun b => { b with held := put 0 b.held k h
                              stage2 := put false b.stage2 k (s.heldFor h 1000000) }

/-- The conditions of recovery of a die have held for 10 ms (R475). -/
def State.calmDie (s : State) (die : Nat) : Bool :=
  s.heldFor (look 0 s.power.calm 0) 10000000 && s.heldFor (look 0 s.power.calm (throttleKey die byHeat)) 10000000

/-- d of a die rises by 1 (R475). -/
def State.dRise (s : State) (die : Nat) : State :=
  if s.pins.pwrbrk ∧ s.mult die = 16 ∧ s.calmDie die then
    [byPower, byHeat].foldl (fun s c => s.setDOff die c (s.dOff die c - 1)) s
  else s

/-- POWER_SAMPLE (R473 to R475): the mean of the last 10 samples against the limit. -/
def execPowerSample (watts : Nat) (s : State) : Host.Outcome State Fault Refusal :=
  done <|
    let s := s.onPower fun b => { b with samples := (watts :: b.samples).take 10 }
    let sum := s.power.samples.foldl (· + ·) 0
    let full := decide (s.power.samples.length = 10)
    let excess := full && decide (s.power.limit * 10 < sum)
    let calm := full && decide (sum * 100 < s.power.limit * 10 * 97)
    let s := s.onPower fun b => { b with calm := put 0 b.calm 0 (since s (look 0 b.calm 0) calm) }
    let s := [0, 1].foldl (fun s die => (s.stageOne die byPower excess).dRise die) s
    s.settle

/-- PWRBRK_ASSERT (R477): d is 0 on both dies (`State.duty`). -/
def execPwrbrkAssert (s : State) : Host.Outcome State Fault Refusal :=
  done { s with pins := { s.pins with pwrbrk := false } }

/-- PWRBRK_RELEASE (R477): d recovers from 0 under R475. -/
def execPwrbrkRelease (s : State) : Host.Outcome State Fault Refusal :=
  done <|
    if s.pins.pwrbrk then s
    else
      let s := { s with pins := { s.pins with pwrbrk := true } }
      [0, 1].foldl (fun s die => s.setDOff die byPower 16) s

/-- POWER_LIMIT_SET (R473, R478): 400 W to 1,200 W. -/
def execPowerLimitSet (watts : Nat) (s : State) : Host.Outcome State Fault Refusal :=
  done <|
    if s.sidebandFull ∧ 400 ≤ watts ∧ watts ≤ 1200 then s.onPower fun b => { b with limit := watts } else s

/-! ### Monitors and heat (R402, R474, R478, R479) -/

/-- °C in the units of HLTH_MON. -/
def celsius (n : Nat) : Int := (n : Int) * 8

/-- The monitors written: temperatures in 0.125 °C, voltages in mV, frequencies in MHz; absent values leave
theirs. -/
def State.sampleMonitors (s : State) (temps : List Int) (volts procs : List Nat) : State :=
  let s := temps.zipIdx.foldl (fun s x => if x.2 < 144 then s.setFld F.HLTH_MON_temp x.2 (ofSigned 16 x.1) else s) s
  let s := volts.zipIdx.foldl (fun s x => if x.2 < 144 then s.setFld F.HLTH_MON_volt x.2 x.1 else s) s
  procs.zipIdx.foldl (fun s x => if x.2 < 144 then s.setFld F.HLTH_MON_proc x.2 x.1 else s) s

/-- A sensor outside −40 to 150 °C is excluded; a die with more than 8 excluded is held at stage 2 (R478). -/
def State.exclude (s : State) (n : Nat) : State :=
  let bad := (List.range (min n 144)).filter fun m =>
    (decide (s.tempOf m < -320) || decide (1200 < s.tempOf m)) && !s.power.excluded.contains m
  let s := s.onPower fun b => { b with excluded := b.excluded ++ bad }
  [0, 1].foldl (fun s die =>
    if 8 < (s.power.excluded.filter fun m => dieOf m = die).length then
      s.onPower fun b => { b with stuck := put false b.stuck die true }
    else s) s

/-- The stages of a die by its hottest sensor (R474). -/
def State.heatDie (s : State) (die : Nat) : State :=
  let t := s.hottest die
  let k := throttleKey die byHeat
  let s := s.onPower fun b => { b with calm := put 0 b.calm k (since s (look 0 b.calm k) (t < celsius 98)) }
  let s := s.stageOne die byHeat (celsius 100 ≤ t)
  let s := if celsius 103 ≤ t then s.onPower fun b => { b with stage2 := put false b.stage2 k true } else s
  let s := s.onPower fun b => { b with stage3 := put false b.stage3 die (celsius 105 ≤ t) }
  if celsius 105 ≤ t then
    s.changeClock die fun s => (s.setMOff die byHeat 8).setDOff die byHeat (max 12 (s.dOff die byHeat))
  else s

/-- The thermal trip (R479): every clock stops, as a device reset, and THERMTRIP_N is asserted. -/
def State.trip (s : State) : State :=
  let s := s.deviceReset
  { s with pins := { s.pins with thermtrip := false, therm := false }, power := { s.power with tripped := true } }

/-- MONITOR_SAMPLE (R402, R467, R474, R478, R479): each sample lets the device choose its voltages again. -/
def execMonitorSample (temps : List Int) (volts procs : List Nat) (s : State) :
    Host.Outcome State Fault Refusal :=
  done <|
    let s := (s.sampleMonitors temps volts procs).exclude temps.length
    let hot := [0, 1, 2].foldl (fun t d => if t < s.hottest d then s.hottest d else t) (-32768)
    if temps = [] then s
    else if celsius 110 ≤ hot then s.trip
    else
      let s := if celsius 100 ≤ hot then { s with pins := { s.pins with therm := false } }
        else if hot < celsius 97 then { s with pins := { s.pins with therm := true } }
        else s
      ([0, 1].foldl (fun s die =>
        let s := s.heatDie die
        s.setVolt die (s.mult die)) s).settle

/-- THERMTRIP_RELEASE (R479): PERST_N has been low for 1 ms.  The health clock counts from the reset that its
falling made. -/
def execThermtripRelease (s : State) : Host.Outcome State Fault Refusal :=
  done <|
    if s.power.tripped ∧ !s.pins.perst ∧ s.power.perstLow + 1000000 ≤ s.time.clk then
      { s with pins := { s.pins with thermtrip := true }, power := { s.power with tripped := false } }
    else s

/-- The clock multiplier of a die at a tick boundary (R474, R475): a cause at stage 2 lowers its m by 1, down to
12; without any, m rises by 1 after 10 ms of recovery.  The voltage follows in the order of R467. -/
def State.multStep (s : State) (die : Nat) : State :=
  let two (c : Nat) : Bool := look false s.power.stage2 (throttleKey die c)
    || (c = byHeat && look false s.power.stuck die)
  let rise := !two byPower && !two byHeat && s.calmDie die && !look false s.power.stage3 die
  s.changeClock die fun s => [byPower, byHeat].foldl (fun s c =>
    if two c then (if s.mOff die c < 4 then s.setMOff die c (s.mOff die c + 1) else s)
    else if rise then s.setMOff die c (s.mOff die c - 1)
    else s) s

end Sys2Proof.Machine
end

