-- ==== Sys2Proof/Machine/Tick.lean ====
section
/-!
DEFINITION. The tick boundary (R35 to R38) with all that comes about at it.
-/
namespace Sys2Proof.Machine

/-- The physical cores that hold anything. -/
def State.liveCores (s : State) : List Nat := s.cores.map (·.1)

/-- Whether the radio context of a core is no longer needed (R273): every cell that uses the core is OFF, and
the radio function has no list, descriptor or command there. -/
def State.radioIdle (s : State) (p : Nat) : Bool :=
  (s.ctx p 0).any (fun x => x.queue.isEmpty && x.lists.isEmpty)
    && ((s.core p).held.all fun h => h.portal ≠ 256)
    && (s.logicalOf p).all fun n =>
      (s.keys 4).all fun c => s.fld F.CLU_CELL_STATE_state c = 0 || !s.cellUses c n

/-- RADIO_CONTEXT_FREE (R273), on every core. -/
def State.freeRadio (s : State) : State :=
  (s.liveCores.filter fun p => s.radioIdle p).foldl (fun s p => s.endContext p 0) s

/-- R274, R367: the cells and the radio contexts that a PF1 function-level reset ends at the next boundary. -/
def State.flr1Tick (s : State) : State :=
  if s.host.flr1 then
    let s := { s with host := { s.host with flr1 := false } }
    let s := (List.range 1024).foldl (fun s c =>
      (if (s.cell c).fetch.isSome then s.setCell c { s.cell c with fetch := none } else s).removeCell s c) s
    s.liveCores.foldl (fun s p => if (s.ctx p 0).isSome then (s.endContext p 0).admitHeld p else s) s
  else s

/-- A window that ran to the end of its tick: work that is pending is a spill (R44), and its lease ends, unless the next
begins at once (R42); either counts the spill (DEDUCED, log entry 152). -/
def State.windowTurn (s : State) (p : Nat) : State :=
  if (s.core p).windowOpen then if s.windowFrom p = 0 ∧ s.windowDue p then s.spill p else s.closeWindow p else s

/-- Step 5 of R38 on a core: a window at offset 0 begins, and after a skip (R338) any that has begun. -/
def State.windowStart (s : State) (skip : Bool) (p : Nat) : State :=
  if (skip || s.windowFrom p = 0) && s.windowDue p then s.openWindow p else s

/-- The boundary of tick `n` delivered (R38). -/
def State.deliverTick (s : State) (n : Nat) (skip : Bool) : State :=
  let s := s.setFld F.TIME_TICK_NUMBER_tick_number 0 n
  let s := { s with time := { s.time with lastTick := some n, skip := none } }
  let s := s.flr1Tick.freeRadio
  let s := (s.installSpares.serveLandings).dueCut n
  let s := s.liveCores.foldl (fun s p => s.applyLimit p) s
  let s := s.liveCores.foldl (fun s p => s.windowTurn p) s
  let s := (s.listed .CORE_LEASE_STATUS).foldl (fun s p => s.setFld F.CORE_LEASE_STATUS_handed_back p 0) s
  let s := s.liveCores.foldl (fun s p => s.rentalChoice p) s
  let s := s.liveCores.foldl (fun s p => s.windowStart skip p) s
  let s := ((s.twinTick).tickSends).updatePresent
  ((s.multStep 0).multStep 1).settle

/-- TICK_BOUNDARY (R38, R338): boundaries that an adjustment passed are delivered as the last of them, and the others
counted. -/
def execTickBoundary (s : State) : Host.Outcome State Fault Refusal :=
  done <| match s.tickDue with
    | some n =>
      if s.time.skip.isSome then (s.count F.TIME_STATUS_ticks_skipped 0 (n - s.nextTick)).deliverTick n true
      else s.deliverTick n false
    | none => s

end Sys2Proof.Machine
end

