-- ==== Sys2Proof/Machine/Flags.lean ====
section
/-!
DEFINITION. What a read of a register answers: status fields that follow the state of the block, beside what
the register file stores (the field tables of every chapter; R458 and R459 for the mirrors of PF1).
-/
namespace Sys2Proof.Machine

/-- A sum of fields: each a position and a value. -/
def fieldSum (l : List (Nat × Nat)) : Nat := l.foldl (fun n f => n + f.2 * 2 ^ f.1) 0

/-- A truth value as a bit. -/
def bit1 (b : Bool) : Nat := if b then 1 else 0

/-- CORE_IDENT of a physical core (R18, R19, R23); it changes with CLU_CORE_MAP, at the boundary of a map change
(R24). -/
def State.identView (s : State) (p : Nat) : Nat :=
  let (n, st) := match s.logicalOf p with
    | some n => (n, 0)
    | none => (0, if bitOf (s.fld F.CLU_CORE_MAP_retired_cores (p / 9)) (p % 9) then 2 else 1)
  fieldSum [(0, p), (12, p % 9), (16, p / 9), (24, n), (32, st)]

/-- CORE_LEASE_CFG: what the cut gives the logical core that the physical core serves. -/
def State.leaseView (s : State) (p : Nat) : Nat :=
  fieldSum [(0, s.radioStart p), (16, s.radioLen p), (28, bit1 ((s.logicalOf p).any s.garnetRadio))]

/-- A command held by a wait: its header wait, the entries of a WAIT, or a BARRIER. -/
def QCmd.inWait (c : QCmd) : Bool :=
  match c.phase with
  | .queued => c.waitEn && !c.waitOk
  | .started => c.isWait || c.isBarrier
  | .worked => false

/-- state of CORE_CTX_STATE. -/
def Ctx.stateCode (x : Ctx) : Nat :=
  if x.evicted then 3
  else if x.queue.isEmpty then 1
  else if [0, 1, 2, 3].all fun e => ((x.queueOf e).head?).all QCmd.inWait then 2
  else 1

/-- CORE_CTX_STATE of a slot. -/
def State.ctxView (s : State) (p slot : Nat) : Nat :=
  match s.ctx p slot with
  | none => 0x1FF
  | some x =>
    fieldSum ([(0, x.owner), (12, x.stateCode)]
      ++ [0, 1, 2, 3].map fun e => (16 + 8 * e, (x.queueOf e).length))

/-- The codes of R118. -/
def BankState.code : BankState → Nat
  | .free => 0
  | .loading => 1
  | .loaded => 2
  | .accum => 3
  | .draining => 4
  | .pending => 5

/-- The slot whose context uses the array: from Garnet's yield to the radio window, and on to the end of the radio
context's work in the array, slot 0 (R129); else the rental context that holds the core. -/
def State.arraySlot (s : State) (p : Nat) : Nat :=
  let radio := if s.fld F.CORE_LEASE_STATUS_phase p = 0 then
      ((s.core p).array.any fun a => a.slot = 0) || (s.core p).port.any fun r => r.slot = 0 && !r.preload
    else bitOf (s.core p).yielded 0
  if radio && (s.logicalOf p).any s.garnetRadio then 0 else s.fld F.CORE_LEASE_STATUS_rental_slot p

/-- GAR_BANK_STATE (R118). -/
def State.banksView (s : State) (p : Nat) : Nat :=
  let b (bank half : Nat) : BankHalf := look BankHalf.init (s.core p).banks (bank * 2 + half)
  let nib (bank half : Nat) : Nat := (b bank half).state.code + 8 * bit1 (b bank half).poison
  let slotOf (bank : Nat) : Nat := if (b bank 0).slot = 7 then (b bank 1).slot else (b bank 0).slot
  fieldSum [(0, nib 0 0), (4, nib 1 0), (8, nib 0 1), (12, nib 1 1),
    (16, bit1 ((s.ctx p (s.arraySlot p)).any fun x => x.halfMode)), (17, slotOf 0), (20, slotOf 1)]

/-- No rental Garnet command is in progress on a core: none started, in the array or at the drain port.  One that only
stands before issue (R121) is not in progress (DESIGN CHOICE, log entry 156). -/
def State.rentalIdle (s : State) (p : Nat) : Bool :=
  ([1, 2, 3].all fun sl => (s.ctx p sl).all fun x => x.queue.all fun c => c.engine ≠ 0 || c.ahead || c.phase ≠ .started)
    && ((s.core p).array.all fun a => a.slot = 0) && ((s.core p).port.all fun a => a.slot = 0)

/-- GAR_ISSUE_CTL. -/
def State.issueView (s : State) (p : Nat) : Nat :=
  let h := s.fld F.GAR_ISSUE_CTL_rental_hold p
  h + 2 * bit1 (h = 1 && s.rentalIdle p)


/-- OPAL_INFLIGHT. -/
def State.opalView (s : State) (p : Nat) : Nat :=
  fieldSum [(0, s.flyingOf p 1 + s.flyingOf p 2 + s.flyingOf p 3), (16, s.flyingOf p 0), (24, s.orderedWait p)]

/-- BER_STATUS (R238, R261): bank 0 is selected during the radio lease once Beryl has yielded. -/
def State.berylView (s : State) (p : Nat) : Nat :=
  let b0 := s.berylBank p 0
  let b1 := s.berylBank p 1
  let radio := s.fld F.CORE_LEASE_STATUS_phase p ≠ 0 && bitOf (s.core p).yielded 1
  fieldSum [(0, bit1 !radio), (1, bit1 b0.running), (2, bit1 b1.running),
    (3, s.fld F.CORE_LEASE_STATUS_rental_slot p), (6, bit1 b0.poison), (7, bit1 b1.poison),
    (8, b0.get kPC % 4096), (20, b1.get kPC % 4096)]

/-- The seconds until a group's soft retirements fall below the limit (HLTH_RATE): until all but limit - 1 of
them have left the window of 24 h of the health clock. -/
def State.nextFree (s : State) (g : Nat) : Nat :=
  let limit := s.retireLimit
  let inside := (s.health.soft.filter fun e => e.1 = g ∧ s.time.clk < e.2 + 86400000000000).map (·.2)
  if inside.length < limit then 0
  else if limit = 0 then Config.rateNever.toNat
  else match inside[inside.length - limit]? with
    | some t => (t + 86400000000000 - s.time.clk + 999999999) / 1000000000
    | none => 0

/-- HLTH_RATE of a group. -/
def State.rateView (s : State) (g : Nat) : Nat :=
  let flagged := ((s.listed .HLTH_UNIT).filter fun u => groupOf u = some g && s.fld F.HLTH_UNIT_flagged u = 1).length
  fieldSum [(0, min (s.inWindow g) 15), (4, min flagged 255), (32, s.nextFree g)]

/-- CLU_CELL_STATE: the frame and the slot while the cell is ACTIVE. -/
def State.cellView (s : State) (c : Nat) : Nat :=
  let v := s.stored .CLU_CELL_STATE c
  if s.fld F.CLU_CELL_STATE_state c = 2 then
    let b := (s.cell c).config
    withFld (withFld v F.CLU_CELL_STATE_frame (cfgFrame b s.total)) F.CLU_CELL_STATE_slot (cfgSlotIn b s.total)
  else v

/-- FIFO_STATUS: the words and the whole packets present. -/
def State.fifoView (s : State) (f : Nat) : Nat :=
  let ws := (s.fifo f).words
  withFld (withFld (s.stored .FIFO_STATUS f) F.FIFO_STATUS_words ws.length) F.FIFO_STATUS_packets
    (ws.filter fun w => w.last).length

/-- The table entry that LAMP_SEQ_WINDOW shows (R210): 640 bytes, zero for a FREE entry. -/
def State.seqView (s : State) (d : Nat) : Nat :=
  match look none s.seqs (d * 4096 + s.fld F.LAMP_SEQ_SEL_index d) with
  | some q => leNat q.bytes
  | none => 0

/-- CLU_CLM_GRANULE: the granules of the radio region belong to the radio function (R197, R198). -/
def State.clmView (s : State) (i : Nat) : Nat :=
  if (i % 128 + 1) * 0x10000 ≤ s.clmRadio (i / 128) then 0x1FE else s.stored .CLU_CLM_GRANULE i

/-- What a read of a register answers (R5), as a number of the register's width. -/
def State.view (s : State) (r : Reg) (i : Nat) : Nat :=
  match r with
  | .CORE_IDENT => s.identView i
  | .CORE_LEASE_CFG => s.leaseView i
  | .CORE_CTX_STATE => s.ctxView (i / 4) (i % 4)
  | .CORE_SPM_OWNER => s.owned (i / 4) (i % 4)
  | .SLC_STATE => withFld (s.stored r i) F.SLC_STATE_contexts (s.contextsOf i).length
  | .SLC_CREDIT_TOTAL => s.creditTotal
  | .GAR_BANK_STATE => s.banksView i
  | .GAR_ISSUE_CTL => s.issueView i
  | .OPAL_INFLIGHT => s.opalView i
  | .CLU_CLM_ECC => withFld (s.stored r i) F.CLU_CLM_ECC_ordered_wait (s.orderedWait (1000 + i))
  | .CLU_CLM_GRANULE => s.clmView i
  | .BER_STATUS => s.berylView i
  | .BER_VALID => (s.beryl i).valid
  | .TIME_NOW => fieldSum [(0, s.nowLow), (64, s.time.sec % 2 ^ 48)]
  | .TIME_TOTAL => s.total % 2 ^ 64
  | .PORTAL_CREDITS => s.portalCredits i
  | .PORTAL_SEQ_CREDITS => if s.portalOpen i then s.stored r i else withFld (s.stored r i) F.PORTAL_SEQ_CREDITS_seq_available 0
  | .PORTAL_SEQ_STATUS => withFld (s.stored r i) F.PORTAL_SEQ_STATUS_live (s.seqsOf i).length
  | .LAMP_STATUS => withFld (s.stored r i) F.LAMP_STATUS_live (s.liveSeqs i)
  | .LAMP_SEQ_WINDOW => s.seqView i
  | .SYNC_OBJ => withFld (s.stored r i) F.SYNC_OBJ_waiters (s.waiters i)
  | .CLU_CELL_STATE => s.cellView i
  | .FIFO_STATUS => s.fifoView i
  | .FH_HIST_WINDOW => s.histWindow
  | .HLTH_RATE => s.rateView i
  | .HLTH_UNIT => if i < 840 then s.stored r i else 0
  | .ONYX_ID_HASH => Config.identityHash % 2 ^ 256
  | _ => s.stored r i

/-- What a read answers at a place of the map: the lease mirror is indexed by logical core, and reads zero for
a rental role and an unmapped core (R23, R459). -/
def State.viewAt (s : State) (q : Place) (i : Nat) : Nat :=
  match q.view with
  | .leaseMirror =>
    if s.isRadio i then
      match s.physOf i with
      | some p => s.view q.reg p
      | none => 0
    else 0
  | _ => s.view q.reg i

end Sys2Proof.Machine
end

