-- ==== Sys2Proof/Machine/Host.lean ====
section
/-!
DEFINITION. The PCI Express functions (R426 to R430): function-level resets and hot reset (R367, R428,
R433), Bus Master Enable and power states, requests held too long (R368), host errors, and MSI-X.
-/
namespace Sys2Proof.Machine

/-- A function's record changed. -/
def State.onFunc (s : State) (fn : Nat) (f : Func → Func) : State :=
  if fn = 0 then { s with host := { s.host with pf0 := f s.host.pf0 } }
  else if fn = 1 then { s with host := { s.host with pf1 := f s.host.pf1 } }
  else s

/-- The MSI-X table of a function at its reset values. -/
def State.clearMsix (s : State) (fn : Nat) : State :=
  { s with host := { s.host with msix := dropRange s.host.msix (msixKey fn 0) 4096 } }

/-! ### The configuration space (R426, R427) -/

/-- What a function's configuration space declares (R426). -/
inductive Capability where
  | pcie | powerManagement | msix | aer | ari | serialNumber | pasid | ats | pri | resizableBar | doe | ide
  | dataLinkFeature | physicalLayer16 | physicalLayer32 | physicalLayer64 | laneMargining
deriving DecidableEq, Repr

/-- The capabilities of a function, and no others. -/
def capabilities (fn : Nat) : List Capability :=
  [.pcie, .powerManagement, .msix, .aer, .ari, .serialNumber]
    ++ (if fn = 0 then [.pasid, .ats, .pri, .resizableBar, .doe, .ide] else [])
    ++ [.dataLinkFeature, .physicalLayer16, .physicalLayer32, .physicalLayer64, .laneMargining]

/-- The Device Serial Number (R426). -/
def deviceSerial : Nat := deviceBind

/-- What a reset does to a function's configuration space and MSI-X table: Bus Master Enable clear, state D0; the AER
status stays (PRESUMED, log entry 183). -/
def State.resetFunc (s : State) (fn : Nat) : State :=
  (s.onFunc fn fun f => { f with busMaster := false, d3 := false }).clearMsix fn

/-- A verification or an enrolment under way (R433): an enrolment whose fuse programming has begun, which is a free
value, goes on. -/
def State.abortOnyx (s : State) : State :=
  let s := if s.bootState = 2 then s.verifyResult 6 15 1 else s
  match s.boot.enrol with
  | none => s
  | some e =>
    let (v, s) := s.free
    if e.waiting.isSome then s.enrolResult 9
    else if e.begun ∨ v % 2 = 1 then { s with boot := { s.boot with enrol := some { e with begun := true } } }
    else s.enrolResult 9

/-- The translations that slices hold or await, dropped. -/
def State.clearAtc (s : State) : State :=
  { s with slices := s.slices.foldl (fun m e =>
      put SliceRec.init m e.1 { e.2 with atc := [], atsWait := [], pri := [] }) [] }

/-- The PF0 function-level reset (R69, R367, R368, R433). -/
def State.flr0 (s : State) : State :=
  let s := ((s.resetFunc 0).clearAtc.setReg .DEV_APERTURE_BASE 0 (Reg.resetVal .DEV_APERTURE_BASE 0))
  let s := { s with host := { s.host with bar4Log2 := 30 } }
  let s := if s.fld F.CUT_STATUS_state 0 = 0 then s else s.cutIdle
  s.abortOnyx

/-- PF0_FLR (R367). -/
def execPf0Flr (s : State) : Host.Outcome State Fault Refusal := done s.flr0

/-- PF1_FLR (R274, R367): the radio portal with its lists; the Lanterns; cells and radio contexts go at the next
tick boundary. -/
def execPf1Flr (s : State) : Host.Outcome State Fault Refusal :=
  done <|
    let s := s.resetFunc 1
    let s := portalRegs.foldl (fun s r => s.setReg r 256 (r.resetVal 256)) s
    let s := s.cores.foldl (fun s e =>
      let c := s.core e.1
      (s.setCore e.1 { c with held := c.held.filter fun h => h.portal ≠ 256 }).onCtx e.1 0 fun x =>
        { x with lists := [] }) s
    let s := (List.range 32).foldl (fun s k =>
      (s.setFld F.CLU_LANT_CTL_run k 0).setFld F.CLU_LANT_CTL_running k 0) s
    { s with host := { s.host with flr1 := true } }

/-- HOT_RESET (R428): a hot reset, a link disable or a loss of link while PERST_N stays high. -/
def execHotReset (s : State) : Host.Outcome State Fault Refusal :=
  done <|
    if !s.pins.perst then s
    else
      let s := (s.flr0).resetFunc 1
      let s := { s with host := { s.host with linkUp := false }, boot := { s.boot with ideKeys := [] } }
      ((List.range 256).filter fun sl => s.tdiLocked sl).foldl (fun s sl => s.tdiError sl) s

/-- PCIE_LINK_UP (R428). -/
def execPcieLinkUp (s : State) : Host.Outcome State Fault Refusal :=
  done (if s.pins.perst then { s with host := { s.host with linkUp := true } } else s)

/-- BUS_MASTER_ENABLE (R368, R428). -/
def execBusMasterEnable (fn : Nat) (s : State) : Host.Outcome State Fault Refusal :=
  done ((s.onFunc fn fun f => { f with busMaster := true }).retryHeld.enrolRead.retryFetches.settle)

/-- POWER_STATE_CHANGE (R426): between D0 and D3hot; with No_Soft_Reset the way back to D0 resets nothing. -/
def execPowerStateChange (fn : Nat) (d3 : Bool) (s : State) : Host.Outcome State Fault Refusal :=
  done ((s.onFunc fn fun f => { f with d3 := d3 }).retryHeld.enrolRead.retryFetches.settle)

/-- Whether a held request, each of which is a write, a message too, has been held too long (R368, R428). -/
def State.heldOver (s : State) (h : HeldReq) : Bool := !s.canIssue (fnOf h.who) && s.heldOut h.who (some h.since)

/-- A slice command one of whose writes ended as a host error ends with result fetch, and a SAVE has written nothing
(R364, R368). -/
def State.jobLost (s : State) (sl : Nat) : State :=
  match (s.slice sl).command with
  | some r =>
    let s := if r < 16 ∨ r = 19 then s.setSlice sl { s.slice sl with command := some 10 } else s
    if r = 19 then s.setFld F.SLC_XFER_DONE_image_len sl 0 else s
  | none => s

/-- HELD_REQUEST_TIMEOUT (R368, R428): writes held too long are discarded, and the command that made one is
flagged ERR_POISON; the fetches of an enrolment and of a cell command fail. -/
def execHeldRequestTimeout (s : State) : Host.Outcome State Fault Refusal :=
  done <|
    let late := s.host.held.filter s.heldOver
    let s := { s with host := { s.host with held := s.host.held.filter fun h => !s.heldOver h } }
    (late.foldl (fun s h =>
      match h.flag with
      | some (p, slot, seq) =>
        s.onCmd p slot seq fun c => { c with err := if c.err = 0 then ePoison else c.err }
      | none => match h.job with
        | some sl => s.jobLost sl
        | none => s) s).enrolRead.retryFetches.settle

/-- HOST_READ_ERROR (R427): reads of the range end in a host error from now on. -/
def execHostReadError (pasid : Option Nat) (addr len : Nat) (s : State) : Host.Outcome State Fault Refusal :=
  done { s with host := { s.host with fail := s.host.fail ++ [(hostKey pasid addr, len)] } }

/-- Vectors of a function (R430). -/
def vectorsOf (fn : Nat) : Nat := if fn = 0 then 2048 else if fn = 1 then 256 else 0

/-- A vector unmasked (R430): a pending event sends one message. -/
def State.unmask (s : State) (fn v : Nat) : State :=
  let e := s.msixEntry fn v
  let s := s.setMsix fn v { e with masked := false, pending := false }
  if e.pending then s.message fn v else s

/-- MSIX_UNMASK (R430). -/
def execMsixUnmask (fn vector : Nat) (s : State) : Host.Outcome State Fault Refusal :=
  done (if vector < vectorsOf fn then s.unmask fn vector else s)

end Sys2Proof.Machine
end

