-- ==== Sys2Proof/Machine/Access.lean ====
section
/-!
DEFINITION. Accesses to the register space (R5 to R10, R455 to R460), to the portal pages (R94, R213), the
bootstrap window (R437), the MSI-X tables (R430), the vault aperture (R32 to R34, R201) and, as the model's
own input, to host memory (log entry 6).
-/
namespace Sys2Proof.Machine

/-! ### Where an access falls -/

/-- The code of a BAR in last_bar of DEV_BAD_ACCESS. -/
def barCode : Bar → Nat
  | .pf0Bar2 => 1
  | .pf0Bar2Ide _ => 1
  | .pf0Bar4 => 2
  | .pf1Bar0 => 3
  | _ => 0

/-- The register space of a BAR. -/
def spaceOf : Bar → Space
  | .pf0Bar2 => .pf0Bar2
  | .pf0Bar2Ide _ => .pf0Bar2
  | .pf1Bar0 => .pf1Bar0
  | _ => .pf0Bar0

/-- The IDE stream by which an access to BAR2 arrives (R366). -/
def streamOf : Bar → Option Nat
  | .pf0Bar2Ide n => some n
  | _ => none

/-- A naturally aligned 32-bit or 64-bit request (R8). -/
def aligned (off size : Nat) : Bool := (size = 4 || size = 8) && off % size = 0

/-- The functions' MSI-X tables (R430): function, vector and byte within the entry. -/
def msixAt (b : Bar) (off : Nat) : Option (Nat × Nat × Nat) :=
  match b with
  | .pf0Bar0 => if 0x80000 ≤ off ∧ off < 0x88000 then some (0, (off - 0x80000) / 16, off % 16) else none
  | .pf1Bar0 => if 0xF00000 ≤ off ∧ off < 0xF01000 then some (1, (off - 0xF00000) / 16, off % 16) else none
  | _ => none

/-- The pending-bit arrays (R430): function and first vector of the byte addressed. -/
def pendingAt (b : Bar) (off : Nat) : Option (Nat × Nat) :=
  match b with
  | .pf0Bar0 => if 0x88000 ≤ off ∧ off < 0x88100 then some (0, (off - 0x88000) * 8) else none
  | .pf1Bar0 => if 0xF01000 ≤ off ∧ off < 0xF01020 then some (1, (off - 0xF01000) * 8) else none
  | _ => none

/-- What an offset of a BAR names. -/
inductive Target where
  | reg (q : Place) (i byte : Nat)
  | table (fn vector byte : Nat)
  | pendingBits (fn vector : Nat)
  /-- The submission window of a portal (R95). -/
  | submission (portal byte : Nat)
  /-- The sequence window of a slice (R213). -/
  | sequence (sl byte : Nat)
  /-- The message store of a slice, read-only here (R98). -/
  | store (sl byte : Nat)
  /-- The bootstrap window (R437). -/
  | window (byte : Nat)
  /-- The read buffer of a FIFO, in the space of its cluster's Lantern (R318). -/
  | buffer (f byte : Nat)
  | reserved
deriving DecidableEq, Repr

/-- A register of a BAR. -/
def regTarget (b : Bar) (off : Nat) : Target :=
  match findReg (spaceOf b) off with
  | some (q, i, byte) => .reg q i byte
  | none => .reserved

/-- An offset of BAR2 in its portal pages (R94); the page of an ABSENT slice is reserved (R353). -/
def State.pageTarget (s : State) (b : Bar) (off : Nat) : Target :=
  let sl := off / 0x10000
  let o := off % 0x10000
  if 256 ≤ sl ∨ s.fld F.SLC_STATE_state sl = 0 then .reserved
  else if o < 0x1000 then .submission sl o
  else if 0x2000 ≤ o ∧ o < 0x2800 then .sequence sl (o - 0x2000)
  else if 0x3000 ≤ o ∧ o < 0x3080 then .store sl (o - 0x3000)
  else regTarget b off

/-- What an offset names in the register space of a cluster's Lantern: the FIFO registers at the offsets of the cluster
window and the read buffers (R318), and the ring pointers of the cluster's cells (R286) at their offsets in PF1 BAR0
(DESIGN CHOICE, log entry 162). -/
def State.lanternTarget (s : State) (k off : Nat) : Target :=
  if 0x1000 ≤ off ∧ off < 0x1400 then .buffer (16 * k + (off - 0x1000) / 64) ((off - 0x1000) % 64)
  else if 0x800 ≤ off ∧ off < 0xA00 then regTarget .pf1Bar0 (0x320000 + 0x200 * k + (off - 0x800))
  else if 0x100000 ≤ off ∧ off < 0x140000 then
    match regTarget .pf1Bar0 off with
    | .reg q i byte => if q.reg = .CLU_CELL_RING_PTR ∧ s.cellCluster i = k then .reg q i byte else .reserved
    | t => t
  else .reserved

/-- What an offset names now (R7, R94, R99, R437, R442, R455). -/
def State.target (s : State) (b : Bar) (off : Nat) : Target :=
  match b with
  | .pf0Bar2 | .pf0Bar2Ide _ =>
    if s.bootState = 1 then (if off < 0x400000 then .window off else .reserved) else s.pageTarget b off
  | .pf1Bar0 =>
    if !s.pf1Ready then .reserved
    else if off < 0x1000 then .submission 256 off
    else match msixAt b off, pendingAt b off with
      | some (f, v, n), _ => .table f v n
      | none, some (f, v) => .pendingBits f v
      | none, none => regTarget b off
  | .lantern k => s.lanternTarget k off
  | _ =>
    match msixAt b off, pendingAt b off with
    | some (f, v, n), _ => .table f v n
    | none, some (f, v) => .pendingBits f v
    | none, none => regTarget b off

/-! ### Reads -/

/-- Byte `j` of the read buffer of a FIFO: the word, then end, poison and valid (R318). -/
def FifoRec.bufferByte (r : FifoRec) (j : Nat) : Byte :=
  match r.buffer with
  | none => 0
  | some w => if j < 32 then w.data.getD j 0
    else if j = 32 then BitVec.ofNat 8 (bit1 w.last + 2 * bit1 w.poison + 4) else 0

/-- The answer of a read. -/
def State.answers (s : State) (v : Nat) : State := { s with lastRead := v, lastPoison := false }

/-- The half that a requester's read has latched for an offset (R9). -/
def State.latchOf (s : State) (req : Nat) (b : Bar) (off : Nat) : Option HalfWord :=
  s.host.latched.find? fun h => h.req = req ∧ h.bar = b ∧ h.offset = off

/-- The halves kept for other requesters and offsets, with `new` put in. -/
def keepHalves (l : List HalfWord) (req : Nat) (b : Bar) (off : Nat) (new : List HalfWord) : List HalfWord :=
  (l.filter fun h => !(h.req = req ∧ h.bar = b ∧ h.offset = off)) ++ new

/-- The latch of an offset replaced. -/
def State.setLatch (s : State) (req : Nat) (b : Bar) (off : Nat) (new : List HalfWord) : State :=
  { s with host := { s.host with latched := keepHalves s.host.latched req b off new } }

/-- The 64-bit word of a register that a read of its byte `byte` reaches; TIME_NOW and TIME_PPS_IN take and use
up snapshots (R333). -/
def State.readWord64 (s : State) (req : Nat) (q : Place) (i byte : Nat) : State :=
  match q.reg with
  | .TIME_NOW => if byte < 8 then s.lowSnap req false else s.highSnap req false
  | .TIME_PPS_IN => if byte < 8 then s.lowSnap req true else s.highSnap req true
  | _ => s.answers (bits (s.viewAt q i) (byte / 8 * 64) 64)

/-- A read of a register, in one of the ways of R8 and R9: `off` is the offset of the access. -/
def State.readReg (s : State) (req : Nat) (b : Bar) (off size : Nat) (q : Place) (i byte : Nat) : State :=
  if q.reg.width = 32 then s.answers (bits (s.viewAt q i) 0 32)
  else if size = 8 then s.readWord64 req q i byte
  else if byte % 8 = 0 then
    let s := s.readWord64 req q i byte
    let v := s.lastRead
    (s.setLatch req b (off + 4) [⟨req, b, off + 4, v / 2 ^ 32⟩]).answers (v % 2 ^ 32)
  else match s.latchOf req b off with
    | some h => (s.setLatch req b off []).answers h.value
    | none => s.answers (bits (s.viewAt q i) (byte / 8 * 64 + 32) 32)

/-- A dword of an MSI-X entry. -/
def MsixEntry.dword (e : MsixEntry) (d : Nat) : Nat :=
  if d = 0 then e.addr % 2 ^ 32 else if d = 1 then e.addr / 2 ^ 32 else if d = 2 then e.data else bit1 e.masked

/-- Pending bits from a vector on, `n` of them. -/
def State.pendingBits (s : State) (fn v n : Nat) : Nat :=
  fieldSum ((List.range n).map fun m => (m, bit1 (s.msixEntry fn (v + m)).pending))

/-- A read of `size` bytes, 4 or 8 and aligned, whose lowest byte a target holds. -/
def State.readTarget (s : State) (req : Nat) (b : Bar) (off size : Nat) : Target → State
  | .reg q i byte => s.readReg req b off size q i byte
  | .table fn v n =>
    let e := s.msixEntry fn v
    s.answers (if size = 4 then e.dword (n / 4) else e.dword (n / 4) + e.dword (n / 4 + 1) * 2 ^ 32)
  | .pendingBits fn v => s.answers (s.pendingBits fn v (8 * size))
  | .store sl n => s.answers (bits (s.stored .SLC_MSG (sl * 8 + n / 16)) (n % 16 * 8) (8 * size))
  | .submission _ _ => s.answers 0
  | .sequence _ _ => s.answers 0
  | .window n => s.answers (leNat ((List.range size).map fun m => look 0 s.boot.window (n + m)))
  | .buffer f n => s.answers (leNat ((List.range size).map fun m => (s.fifo f).bufferByte (n + m)))
  | .reserved => (s.answers 0).badAccess (barCode b) off

/-- A 64-bit request that acts as two 32-bit ones (R8): no register of 64 bits lies there, and some half falls on
a register. -/
def State.isSplit (s : State) (b : Bar) (off : Nat) : Bool :=
  match s.target b off, s.target b (off + 4) with
  | .reg q _ _, _ => q.reg.width = 32
  | .reserved, .reg _ _ _ => true
  | _, _ => false

/-- A read of register space. -/
def State.readSpace (s : State) (req : Nat) (b : Bar) (off size : Nat) : State :=
  match s.target b off with
  | .window n => s.answers (leNat ((List.range size).map fun m => look 0 s.boot.window (n + m)))
  | .submission _ _ => s.answers 0
  | .sequence _ _ => s.answers 0
  | t =>
    if !aligned off size then (s.answers 0).badAccess (barCode b) off
    else if size = 8 ∧ s.isSplit b off then
      let s := s.readTarget req b off 4 t
      let lo := s.lastRead
      let s := s.readTarget req b (off + 4) 4 (s.target b (off + 4))
      s.answers (lo + s.lastRead * 2 ^ 32)
    else s.readTarget req b off size t

/-! ### Writes -/

/-- The bits of a register's fields of one access type. -/
def Reg.accessMask (r : Reg) (a : Access) : Nat :=
  r.fields.foldl (fun m f => if f.access = a then m ||| (2 ^ f.width - 1) <<< f.lo else m) 0

/-- What a write of `v` stores in 64-bit word `w` of a register (R5): RW fields set, W1C bits written 1 cleared. -/
def State.plainStore (s : State) (r : Reg) (i w v : Nat) : State :=
  let old := s.stored r i
  let x := (v % 2 ^ 64) <<< (64 * w)
  let rw := r.accessMask .rw &&& ((2 ^ 64 - 1) <<< (64 * w))
  let new := (old - (old &&& rw)) ||| (x &&& rw)
  s.setReg r i (BitVec.ofNat 512 (new - (new &&& (x &&& r.accessMask .w1c))))

/-- A command of SLC_CMD (R354, R356). -/
def State.slcCmd (s : State) (sl v : Nat) : State :=
  match bits v 0 4 with
  | 0 => s
  | 1 => s.quiesce sl
  | 2 => s.resume sl
  | 3 => s.resetCmd sl
  | 4 => s.freeze sl
  | 5 => s.save sl (bitOf v 4)
  | 6 => s.restore sl
  | 7 => s.logStart sl
  | 8 => s.logStop sl
  | 9 => s.logFlushCmd sl
  | _ => s.badAccess 0 (0xA00010 + sl * 0x1000)

/-- A write of FH_GATE_CTL (R324, R325): the fields first, then commit or cancel. -/
def State.gateCtl (s : State) (i v : Nat) : State :=
  let s := s.plainStore .FH_GATE_CTL i 0 v
  let s := if bitOf v 12 then s.gateCancel i else s
  if bitOf v 11 then s.gateCommit i else s

/-- A write of CORE_CTX_CMD (R203). -/
def State.ctxCmd (s : State) (p v : Nat) : State :=
  match bits v 2 2 with
  | 0 => s
  | 1 => (s.evict p (bits v 0 2)).settle
  | _ => s.badAccess 0 (0x1000220 + p * 0x10000)

/-- A write of 64-bit word `w` of a register of PF0 or of PF1's own, `v` with the bits not written as they stood
(RW) or 0; `via` is the stream of a portal write (R366). -/
def State.regWrite (s : State) (r : Reg) (i w v : Nat) (via : Option Nat) : State :=
  match r with
  | .DEV_RESET => s.resetWrite v
  | .CUT_LOAD_ADDR => s.cutAddrWrite v
  | .CUT_CTL => s.cutCtlWrite (bits v 0 21) (bitOf v 24) (bitOf v 25)
  | .ONYX_BOOT_CTL => if bitOf v 24 then s.bootGo v else s.plainStore r i w v
  | .ONYX_SVN => let s := s.plainStore r i w v
                 if bitOf v 8 then s.svnCommit else s
  | .ONYX_ENROL_CTL => if bitOf v 0 then s.enrolGo else s
  | .TIME_INCREMENT => s.incrWrite v
  | .TIME_ADJ_CTL => if bitOf v 2 then s.adjust (bits v 0 2) else s
  | .TIME_PPS_CTL => s.ppsCtlWrite v
  | .FH_SHAPER => s.shaperWrite 0 i v
  | .FH_HIST_SEL =>
    let s := s.plainStore r i w v
    if bitOf v 12 then s.histClear (bits v 0 12) else s
  | .FH_GATE_CTL => s.gateCtl i v
  | .FH_GATE_LIST =>
    if s.fld F.FH_GATE_STATUS_pending (i / 256) = 1 then s.badAccess 0 (0x400800 + i / 256 * 0x1000 + i % 256 * 8)
    else s.plainStore r i w v
  | .FH_HOST_PTR => (s.plainStore r i w v).readTx i 65536
  | .CLINK_FENCE => s.fenceWrite i v
  | .CLINK_TWIN_CTL =>
    let s := s.plainStore r i w v
    if bitOf v 1 then s.handover i else s
  | .CLINK_MIRROR_DUMP => s.mirrorDump i (v / 4096)
  | .LAMP_CTX_CFG => s.ctxCfgWrite i v
  | .SLC_CFG => s.cfgWrite i v
  | .SLC_CMD => s.slcCmd i v
  | .SLC_MSG => s.msgWrite (i / 8) (i % 8) w v
  | .SLC_ND_CLR => if bitOf v 0 then s.setFld F.SLC_ND_TOTAL_total i 0 else s
  | .HLTH_VIGIL_REQ => s.vigilReqWrite v
  | .SYNC_CTL => s.waitLimitWrite v
  | .SYNC_OBJ => if w = 0 then s.objWrite i .word64 v else s.objWrite i .word8 v
  | .GAR_ISSUE_CTL => (s.plainStore r i w v).settle
  | .GAR_MAX_INSTR_TIME => s.limitWrite i v
  | .CORE_CTX_CMD => s.ctxCmd i v
  | .CORE_VAULT_PAGE => s.pageWrite (i / 576) (i % 576) v
  | .CLU_CELL_CMD => s.cellCmd i (bits v 0 2) (bitOf v 2) (bits v 16 10)
  | .CLU_LANT_CTL => s.lantWrite i v
  | .PORTAL_STEP_BIND => if s.viaOk i via then s.bindWrite i v else s.badSubmission i
  | .PORTAL_CREDIT_MIRROR | .PORTAL_ERR_RING | .PORTAL_ERR_PTR | .PORTAL_OUT_RING | .PORTAL_OUT_PTR
  | .PORTAL_OUT_COAL => if s.viaOk i via then s.plainStore r i w v else s.badSubmission i
  | _ => s.plainStore r i w v

/-- A write of a register through PF1 by its mirror (R458): FIFO_CMD and FH_SHAPER take it. -/
def State.mirrorWrite (s : State) (b : Bar) (off : Nat) (q : Place) (i v : Nat) : State :=
  match q.view, q.reg with
  | .writable, .FIFO_CMD =>
    match bits v 0 2 with
    | 1 => s.dropRest i
    | 2 => s.pop i false
    | _ => s
  | .writable, .FH_SHAPER => s.shaperWrite 1 i v
  | _, _ => s.badAccess (barCode b) off

/-- Through PF0 the FIFO registers are read-only, and a write is counted (R318). -/
def Reg.isFifo : Reg → Bool
  | .FIFO_CFG | .FIFO_STATUS | .FIFO_CMD => true
  | _ => false

/-- A place whose fields are all read-only, and where a write is counted (R318, R458). -/
def Place.readOnly (q : Place) : Bool := if q.view = .own then q.reg.isFifo else q.view ≠ .writable

/-- A write of 64-bit word `w` at a place, `v` complete. -/
def State.placeWrite (s : State) (b : Bar) (off : Nat) (q : Place) (i w v : Nat) : State :=
  if q.view = .own then s.regWrite q.reg i w v (streamOf b) else s.mirrorWrite b off q i v

/-- The low half that a requester's write holds for a word (R9). -/
def State.heldLow (s : State) (req : Nat) (b : Bar) (off : Nat) : Option HalfWord :=
  s.host.lowHeld.find? fun h => h.req = req ∧ h.bar = b ∧ h.offset = off

/-- The held low half of a word replaced. -/
def State.setHeldLow (s : State) (req : Nat) (b : Bar) (off : Nat) (new : List HalfWord) : State :=
  { s with host := { s.host with lowHeld := keepHalves s.host.lowHeld req b off new } }

/-- The value that a register takes later by a write already made: the increment (R334), whose low half a write of
the high half alone keeps. -/
def State.toCome (s : State) (r : Reg) (i : Nat) : Nat :=
  match r with
  | .TIME_INCREMENT => s.time.pendIncr.getD (s.stored r i)
  | _ => s.stored r i

/-- The low half of a word as it stands for a write of the high half alone: RW fields keep their value, and
nothing else is written. -/
def State.lowKept (s : State) (q : Place) (i w : Nat) : Nat :=
  bits (s.toCome q.reg i &&& q.reg.accessMask .rw) (64 * w) 32

/-- Whether a write can change some bit of the high half of word `w` of a register. -/
def Reg.highWritable (r : Reg) (w : Nat) : Bool :=
  r.fields.any fun f => f.access ≠ .ro && decide (f.lo < 64 * w + 64) && decide (64 * w + 32 < f.lo + f.width)

/-- A write of a register, in one of the ways of R8 and R9; SYNC_OBJ takes its halves at once (R83).  A write of a
high half alone in which nothing can be written changes nothing, nor a write still pending for the low half. -/
def State.writeReg (s : State) (req : Nat) (b : Bar) (off size v : Nat) (q : Place) (i byte : Nat) : State :=
  let w := byte / 8
  if q.readOnly then s.badAccess (barCode b) off
  else if q.reg.width = 32 ∨ size = 8 then s.placeWrite b off q i w v
  else if q.reg = .SYNC_OBJ ∧ w = 0 then s.objWrite i (if byte = 0 then .low32 else .high32) v
  else if byte % 8 = 0 then s.setHeldLow req b off [⟨req, b, off, v⟩]
  else match s.heldLow req b (off - 4) with
    | some h =>
      (s.setHeldLow req b (off - 4) []).placeWrite b (off - 4) q i w (h.value % 2 ^ 32 + v % 2 ^ 32 * 2 ^ 32)
    | none =>
      if q.reg.highWritable w then
        s.placeWrite b (off - 4) q i w (s.lowKept q i w % 2 ^ 32 + v % 2 ^ 32 * 2 ^ 32)
      else s

/-- A dword of an MSI-X entry written; unmasking sends a pending message (R430). -/
def State.msixWrite (s : State) (fn vec d v : Nat) : State :=
  let e := s.msixEntry fn vec
  let v := v % 2 ^ 32
  if d = 0 then s.setMsix fn vec { e with addr := e.addr / 2 ^ 32 * 2 ^ 32 + v }
  else if d = 1 then s.setMsix fn vec { e with addr := e.addr % 2 ^ 32 + v * 2 ^ 32 }
  else if d = 2 then s.setMsix fn vec { e with data := v }
  else if v % 2 = 1 then s.setMsix fn vec { e with masked := true }
  else s.unmask fn vec

/-- A write of `size` bytes, 4 or 8 and aligned, to a target of register space. -/
def State.writeTarget (s : State) (req : Nat) (b : Bar) (off size v : Nat) : Target → State
  | .reg q i byte => s.writeReg req b off size v q i byte
  | .table fn vec n =>
    let s := s.msixWrite fn vec (n / 4) v
    if size = 8 then s.msixWrite fn vec (n / 4 + 1) (v / 2 ^ 32) else s
  | .pendingBits _ _ => s
  | .store _ _ => s
  | .submission _ _ => s
  | .sequence _ _ => s
  | .window _ => s
  | .buffer _ _ => s
  | .reserved => s.badAccess (barCode b) off

/-- Bytes stored in the bootstrap window (R437). -/
def windowStore (m : SMap Byte) (a : Nat) : Bytes → SMap Byte
  | [] => m
  | b :: bs => windowStore (put 0 m a b) (a + 1) bs

/-- A write to the sequence window (R213, R366). -/
def State.seqWindow (s : State) (sl byte size v : Nat) (via : Option Nat) : State :=
  if byte % 128 = 0 ∧ size = 128 then s.seqWrite sl (byte / 128) (leBytes 128 v) via
  else if !s.viaOk sl via then s.badSubmission sl
  else s.count F.PORTAL_SEQ_CREDITS_seq_bad_write sl 1

/-- The slice in RUN to whose portal page an access goes that does not arrive on its stream with the T bit set: a write
is discarded and counted in bad_write, wherever in the page it goes (R366). -/
def State.offStream (s : State) (b : Bar) (off : Nat) : Option Nat :=
  match b with
  | .pf0Bar2 | .pf0Bar2Ide _ =>
    if s.bootState ≠ 1 ∧ off / 0x10000 < 256 ∧ s.fld F.SLC_STATE_state (off / 0x10000) ≠ 0
        ∧ !s.viaOk (off / 0x10000) (streamOf b) then some (off / 0x10000) else none
  | _ => none

/-- A write to register space. -/
def State.writeSpace (s : State) (req : Nat) (b : Bar) (off size v : Nat) : State :=
  match s.offStream b off with
  | some sl => s.badSubmission sl
  | none => match s.target b off with
  | .window n => { s with boot := { s.boot with window := windowStore s.boot.window n (leBytes size v) } }
  | .submission portal byte =>
    if byte % 64 = 0 ∧ size = 64 then s.submit portal (byte / 64) (leBytes 64 v) (streamOf b)
    else s.badSubmission portal
  | .sequence sl byte => s.seqWindow sl byte size v (streamOf b)
  | t =>
    if !aligned off size then s.badAccess (barCode b) off
    else if size = 8 ∧ s.isSplit b off then
      let s := s.writeTarget req b off 4 (v % 2 ^ 32) t
      s.writeTarget req b (off + 4) 4 (v / 2 ^ 32 % 2 ^ 32) (s.target b (off + 4))
    else s.writeTarget req b off size v t

/-! ### The vault aperture (R32 to R34, R201) -/

/-- The device address of an offset of BAR4: base_gib with the bits below the BAR's size cleared. -/
def State.apertureAddr (s : State) (off : Nat) : Nat :=
  let size := 2 ^ s.host.bar4Log2
  s.fld F.DEV_APERTURE_BASE_base_gib 0 * 2 ^ 30 / size * size + off

/-- Whether R201 hides the bytes of core `p` from vault offset `off`: the page of a confidential slice, or
the save area of a slot that holds a context of one. -/
def State.hidden (s : State) (p off len : Nat) : Bool :=
  ((List.range ((off + len - 1) / 0x200000 - off / 0x200000 + 1)).any fun m =>
      s.pageInRange p (off / 0x200000 + m)
        && s.isConfidential (s.fld F.CORE_VAULT_PAGE_owner (p * 576 + off / 0x200000 + m)))
    || [0, 1, 2, 3].any fun sl =>
      decide (off < saveArea sl + 0x1000000) && decide (saveArea sl < off + len)
        && (s.ctx p sl).any fun x => s.isConfidential x.owner

/-- An access through the aperture, a write where it has a value; it waits with other requests to its lines (R22, R189).
DESIGN CHOICE (log entry 151): an access that lies in an unpopulated part with some byte only is taken whole as one that
lies there, since R32 speaks of the address alone. -/
def State.apertureAt (s : State) (off size : Nat) (value : Option Nat) : State :=
  let a := s.apertureAddr off
  let bad (s : State) : State := (if value.isSome then s else s.answers 0).badAccess 2 off
  if size = 0 ∨ touchesReserved a size then bad s
  else match locate a with
    | .vault n o =>
      match s.physOf n with
      | none => s.apertureAccess a size value
      | some p =>
        if s.hidden p o size then bad s
        else if s.rangeHeld a size then s.holdMem p (.aperture a size value)
        else s.apertureAccess a size value
    | _ => bad s

/-- A read and a write through the aperture. -/
def State.apertureRead (s : State) (off size : Nat) : State := s.apertureAt off size none
def State.apertureWrite (s : State) (off size v : Nat) : State := s.apertureAt off size (some v)

/-! ### Host memory and the size of BAR4, the model's own inputs -/

/-- What software stores in host memory: the bytes take their value, without poison, and read well again. -/
def State.placeHost (s : State) (pasid : Option Nat) (a : Nat) (data : Bytes) : State :=
  let k := hostKey pasid a
  { s with host := { s.host with
      mem := hostStore s.host.mem k data
      poison := dropRange s.host.poison k data.length
      fail := s.host.fail.filter fun e => !(decide (e.1 < k + data.length) && decide (k < e.1 + e.2)) } }

/-- The size of BAR4 (R32, R429): 1 GiB to 512 GiB. -/
def State.setBar4 (s : State) (e : Nat) : State :=
  if 30 ≤ e ∧ e ≤ 39 then { s with host := { s.host with bar4Log2 := e } } else s

/-! ### The cluster Lantern (R275) -/

/-- An access of the Lantern to device memory: what it does not reach stops it on a fault (R275; DESIGN CHOICE, log
entry 162); it waits with other requests to its lines (R22, R189). -/
def State.lanternAt (s : State) (k a size : Nat) (value : Option Nat) : State :=
  if !s.lanternReach k a size then s.lantFault k
  else match (coresAt a size).head?.bind s.physOf with
    | some p => if s.rangeHeld a size then s.holdMem p (.lantern a size value) else s.lanternAccess a size value
    | none => s.lanternAccess a size value
def State.lanternLoad (s : State) (k a size : Nat) : State := s.lanternAt k a size none
def State.lanternStore (s : State) (k a size v : Nat) : State := s.lanternAt k a size (some v)

/-- Whether the Lantern of a cluster runs. -/
def State.lanternRuns (s : State) (k : Nat) : Bool := decide (k < 32) && s.fld F.CLU_LANT_CTL_running k = 1

/-! ### Accesses -/

/-- A read by a requester. -/
def State.readAt (s : State) (req : Nat) (b : Bar) (off size : Nat) : State :=
  match b with
  | .pf0Bar4 => if 2 ^ s.host.bar4Log2 < off + size then s else s.apertureRead off size
  | .pf0Bar4Size => s.answers s.host.bar4Log2
  | .hostMemory pasid => s.answers (leNat (s.hostBytes pasid off size))
  | .lantern k => if s.lanternRuns k then s.readSpace req b off size else s
  | .lanternMemory k => if s.lanternRuns k then s.lanternLoad k off size else s
  | _ => s.readSpace req b off size

/-- A write by a requester. -/
def State.writeAt (s : State) (req : Nat) (b : Bar) (off size v : Nat) : State :=
  match b with
  | .pf0Bar4 => if 2 ^ s.host.bar4Log2 < off + size then s else s.apertureWrite off size v
  | .pf0Bar4Size => s.setBar4 v
  | .hostMemory pasid => s.placeHost pasid off (leBytes size v)
  | .lantern k => if s.lanternRuns k then s.writeSpace req b off size v else s
  | .lanternMemory k => if s.lanternRuns k then s.lanternStore k off size v else s
  | _ => s.writeSpace req b off size v

/-- Whether an access to register space is one that R7 or R8 counts whole. -/
def State.isBad (s : State) (b : Bar) (off size : Nat) : Bool :=
  (match b with
    | .lantern k => s.lanternRuns k
    | _ => true) && match b with
  | .pf0Bar4 | .pf0Bar4Size | .hostMemory _ | .lanternMemory _ => false
  | _ =>
    if (s.offStream b off).isSome then false
    else match s.target b off with
    | .window _ | .submission _ _ | .sequence _ _ => false
    | .reserved => !(aligned off size && size = 8 && s.isSplit b off)
    | _ => !aligned off size

/-- REGISTER_WRITE (R5, R8, R9). -/
def execRegisterWrite (req : Nat) (bar : Bar) (offset size value : Nat) (s : State) :
    Host.Outcome State Fault Refusal :=
  done (s.writeAt req bar offset size value)

/-- RC_READ (R5, R8, R9): a read; the map of chapter 20 has no field of type RC, so nothing is cleared but a
snapshot or a latch that the read uses up. -/
def execRcRead (req : Nat) (bar : Bar) (offset size : Nat) (s : State) : Host.Outcome State Fault Refusal :=
  done (s.readAt req bar offset size)

/-- BAD_ACCESS (R7, R8): counted, with zero for a read; an access that is none of these changes nothing here. -/
def execBadAccess (_req : Nat) (bar : Bar) (offset size : Nat) (write : Bool) (s : State) :
    Host.Outcome State Fault Refusal :=
  done <|
    if s.isBad bar offset size then (if write then s else s.answers 0).badAccess (barCode bar) offset else s

/-- LOW_HALF_READ (R9). -/
def execLowHalfRead (req : Nat) (bar : Bar) (offset : Nat) (s : State) : Host.Outcome State Fault Refusal :=
  done (if offset % 8 = 0 then s.readAt req bar offset 4 else s)

/-- LOW_HALF_WRITE (R9). -/
def execLowHalfWrite (req : Nat) (bar : Bar) (offset value : Nat) (s : State) :
    Host.Outcome State Fault Refusal :=
  done (if offset % 8 = 0 then s.writeAt req bar offset 4 value else s)

/-- HIGH_HALF_WRITE (R9). -/
def execHighHalfWrite (req : Nat) (bar : Bar) (offset value : Nat) (s : State) :
    Host.Outcome State Fault Refusal :=
  done (if offset % 8 = 4 then s.writeAt req bar offset 4 value else s)

end Sys2Proof.Machine
end

