-- ==== Sys2Proof/Machine/Dispatch.lean ====
section
/-!
DEFINITION. The meaning of each command: one arm per constructor of `Instr`, each one direct call of
that command's own meaning.
-/
namespace Sys2Proof.Machine

/-- The effect of a command on everything but the queue. -/
def exec (i : Instr) (s : State) : Host.Outcome State Fault Refusal :=
  match i with
  | .registerWrite req bar offset size value => Sys2Proof.Machine.execRegisterWrite req bar offset size value s
  | .rcRead req bar offset size => Sys2Proof.Machine.execRcRead req bar offset size s
  | .badAccess req bar offset size write => Sys2Proof.Machine.execBadAccess req bar offset size write s
  | .lowHalfRead req bar offset => Sys2Proof.Machine.execLowHalfRead req bar offset s
  | .lowHalfWrite req bar offset value => Sys2Proof.Machine.execLowHalfWrite req bar offset value s
  | .highHalfWrite req bar offset value => Sys2Proof.Machine.execHighHalfWrite req bar offset value s
  | .tickBoundary => Sys2Proof.Machine.execTickBoundary s
  | .garMaxInstrTimeWrite p value => Sys2Proof.Machine.execGarMaxInstrTimeWrite p value s
  | .radioWindowStart p => Sys2Proof.Machine.execRadioWindowStart p s
  | .engineYield p engine cycle => Sys2Proof.Machine.execEngineYield p engine cycle s
  | .yieldOverrun p => Sys2Proof.Machine.execYieldOverrun p s
  | .radioWindowEnd p => Sys2Proof.Machine.execRadioWindowEnd p s
  | .cutLoad len => Sys2Proof.Machine.execCutLoad len s
  | .cutCancel => Sys2Proof.Machine.execCutCancel s
  | .cutCheckEnd => Sys2Proof.Machine.execCutCheckEnd s
  | .descriptorSubmit portal slot desc via => Sys2Proof.Machine.execDescriptorSubmit portal slot desc via s
  | .submissionWindowBadWrite portal => Sys2Proof.Machine.execSubmissionWindowBadWrite portal s
  | .commandFetch p slot => Sys2Proof.Machine.execCommandFetch p slot s
  | .signalArrive idx => Sys2Proof.Machine.execSignalArrive idx s
  | .waitTimeout p slot engine => Sys2Proof.Machine.execWaitTimeout p slot engine s
  | .commandComplete p slot engine => Sys2Proof.Machine.execCommandComplete p slot engine s
  | .creditMirrorWrite portal => Sys2Proof.Machine.execCreditMirrorWrite portal s
  | .slcMsgWrite sl m word value => Sys2Proof.Machine.execSlcMsgWrite sl m word value s
  | .syncObjWrite n form value => Sys2Proof.Machine.execSyncObjWrite n form value s
  | .syncCtlWrite value => Sys2Proof.Machine.execSyncCtlWrite value s
  | .nop p slot => Sys2Proof.Machine.execNop p slot s
  | .signal p slot => Sys2Proof.Machine.execSignal p slot s
  | .wait p slot => Sys2Proof.Machine.execWait p slot s
  | .yieldPoint p slot => Sys2Proof.Machine.execYieldPoint p slot s
  | .handBack p slot => Sys2Proof.Machine.execHandBack p slot s
  | .barrier p slot => Sys2Proof.Machine.execBarrier p slot s
  | .digestMark p slot => Sys2Proof.Machine.execDigestMark p slot s
  | .stepTrigger p slot => Sys2Proof.Machine.execStepTrigger p slot s
  | .timestamp p slot => Sys2Proof.Machine.execTimestamp p slot s
  | .interrupt p slot => Sys2Proof.Machine.execInterrupt p slot s
  | .hostWrite p slot => Sys2Proof.Machine.execHostWrite p slot s
  | .gmm p slot => Sys2Proof.Machine.execGmm p slot s
  | .gdrain p slot => Sys2Proof.Machine.execGdrain p slot s
  | .gpreload p slot => Sys2Proof.Machine.execGpreload p slot s
  | .gdcfg p slot => Sys2Proof.Machine.execGdcfg p slot s
  | .gmode p slot => Sys2Proof.Machine.execGmode p slot s
  | .gmmLastWavefront p half => Sys2Proof.Machine.execGmmLastWavefront p half s
  | .drainStart p half => Sys2Proof.Machine.execDrainStart p half s
  | .drainEnd p half => Sys2Proof.Machine.execDrainEnd p half s
  | .preloadEnd p half => Sys2Proof.Machine.execPreloadEnd p half s
  | .garnetFault p half kind => Sys2Proof.Machine.execGarnetFault p half kind s
  | .ocopy p slot => Sys2Proof.Machine.execOcopy p slot s
  | .ogather p slot => Sys2Proof.Machine.execOgather p slot s
  | .oscatter p slot => Sys2Proof.Machine.execOscatter p slot s
  | .oscatterAdd p slot => Sys2Proof.Machine.execOscatterAdd p slot s
  | .ofill p slot => Sys2Proof.Machine.execOfill p slot s
  | .oparityEnc p slot => Sys2Proof.Machine.execOparityEnc p slot s
  | .oparityRebuild p slot => Sys2Proof.Machine.execOparityRebuild p slot s
  | .odigest p slot => Sys2Proof.Machine.execOdigest p slot s
  | .opalTransactionDone p slot => Sys2Proof.Machine.execOpalTransactionDone p slot s
  | .orderedAddArrive idx => Sys2Proof.Machine.execOrderedAddArrive idx s
  | .orderedAddRetry idx => Sys2Proof.Machine.execOrderedAddRetry idx s
  | .orderedAddTimeout line => Sys2Proof.Machine.execOrderedAddTimeout line s
  | .vaultLineRead addr found => Sys2Proof.Machine.execVaultLineRead addr found s
  | .vaultLineWrite addr data poison found => Sys2Proof.Machine.execVaultLineWrite addr data poison found s
  | .vaultScrub p line found => Sys2Proof.Machine.execVaultScrub p line found s
  | .rowCopyEnd p => Sys2Proof.Machine.execRowCopyEnd p s
  | .bankCopyEnd p => Sys2Proof.Machine.execBankCopyEnd p s
  | .spmScrub addr found => Sys2Proof.Machine.execSpmScrub addr found s
  | .granuleClaimDeferred p slot engine => Sys2Proof.Machine.execGranuleClaimDeferred p slot engine s
  | .remoteSpmRequest p slot addr => Sys2Proof.Machine.execRemoteSpmRequest p slot addr s
  | .granuleZeroEnd p g => Sys2Proof.Machine.execGranuleZeroEnd p g s
  | .clmGranuleZeroEnd k g => Sys2Proof.Machine.execClmGranuleZeroEnd k g s
  | .coreVaultPageWrite p page value => Sys2Proof.Machine.execCoreVaultPageWrite p page value s
  | .pageZeroEnd sl => Sys2Proof.Machine.execPageZeroEnd sl s
  | .ctxEvict p slot => Sys2Proof.Machine.execCtxEvict p slot s
  | .evictEnd p => Sys2Proof.Machine.execEvictEnd p s
  | .restoreEnd p => Sys2Proof.Machine.execRestoreEnd p s
  | .seqStart sl winSlot cmd via => Sys2Proof.Machine.execSeqStart sl winSlot cmd via s
  | .seqExtend sl winSlot cmd via => Sys2Proof.Machine.execSeqExtend sl winSlot cmd via s
  | .seqCancel sl winSlot cmd via => Sys2Proof.Machine.execSeqCancel sl winSlot cmd via s
  | .seqParams sl winSlot cmd via => Sys2Proof.Machine.execSeqParams sl winSlot cmd via s
  | .seqWindowBadWrite sl => Sys2Proof.Machine.execSeqWindowBadWrite sl s
  | .ackRecordWrite sl => Sys2Proof.Machine.execAckRecordWrite sl s
  | .stepBind sl value via => Sys2Proof.Machine.execStepBind sl value via s
  | .stepBuild sl => Sys2Proof.Machine.execStepBuild sl s
  | .stepComplete sl => Sys2Proof.Machine.execStepComplete sl s
  | .outputCoalesceTimeout sl => Sys2Proof.Machine.execOutputCoalesceTimeout sl s
  | .fixedBatchStart sl => Sys2Proof.Machine.execFixedBatchStart sl s
  | .allBlocked p => Sys2Proof.Machine.execAllBlocked p s
  | .contextIdleRelease p slot => Sys2Proof.Machine.execContextIdleRelease p slot s
  | .lampCtxCfgWrite d value => Sys2Proof.Machine.execLampCtxCfgWrite d value s
  | .bload p move => Sys2Proof.Machine.execBload p move s
  | .bstore p move => Sys2Proof.Machine.execBstore p move s
  | .brun p slot => Sys2Proof.Machine.execBrun p slot s
  | .bsets p slot => Sys2Proof.Machine.execBsets p slot s
  | .bpclr p slot => Sys2Proof.Machine.execBpclr p slot s
  | .btrim p slot => Sys2Proof.Machine.execBtrim p slot s
  | .bundle p bank fetched loaded => Sys2Proof.Machine.execBundle p bank fetched loaded s
  | .cellStart cell next atFrame => Sys2Proof.Machine.execCellStart cell next atFrame s
  | .cellStop cell next atFrame => Sys2Proof.Machine.execCellStop cell next atFrame s
  | .cellReconfig cell next atFrame => Sys2Proof.Machine.execCellReconfig cell next atFrame s
  | .cellFrameAction cell => Sys2Proof.Machine.execCellFrameAction cell s
  | .cluLantCtlWrite k value => Sys2Proof.Machine.execCluLantCtlWrite k value s
  | .lanternFault k => Sys2Proof.Machine.execLanternFault k s
  | .planRead cell => Sys2Proof.Machine.execPlanRead cell s
  | .prachOccasion cell frame slot occ => Sys2Proof.Machine.execPrachOccasion cell frame slot occ s
  | .noisePeriodEnd cell period => Sys2Proof.Machine.execNoisePeriodEnd cell period s
  | .uplinkResult cell entry => Sys2Proof.Machine.execUplinkResult cell entry s
  | .jobRingProdWrite k j prod => Sys2Proof.Machine.execJobRingProdWrite k j prod s
  | .ldpcDecode k e j => Sys2Proof.Machine.execLdpcDecode k e j s
  | .ldpcEncode k e j => Sys2Proof.Machine.execLdpcEncode k e j s
  | .polarDecode k e j => Sys2Proof.Machine.execPolarDecode k e j s
  | .polarEncode k e j => Sys2Proof.Machine.execPolarEncode k e j s
  | .turboDecode k e j => Sys2Proof.Machine.execTurboDecode k e j s
  | .turboEncode k e j => Sys2Proof.Machine.execTurboEncode k e j s
  | .tbccDecode k e j => Sys2Proof.Machine.execTbccDecode k e j s
  | .tbccEncode k e j => Sys2Proof.Machine.execTbccEncode k e j s
  | .codeBlockEnd k e => Sys2Proof.Machine.execCodeBlockEnd k e s
  | .jasperFault k e => Sys2Proof.Machine.execJasperFault k e s
  | .frameReceive n frame fcsOk => Sys2Proof.Machine.execFrameReceive n frame fcsOk s
  | .fifoDropRest f => Sys2Proof.Machine.execFifoDropRest f s
  | .pop f parityBad => Sys2Proof.Machine.execPop f parityBad s
  | .hubPacketMove f parityBad => Sys2Proof.Machine.execHubPacketMove f parityBad s
  | .egressPacketRead f parityBad => Sys2Proof.Machine.execEgressPacketRead f parityBad s
  | .frameSelect n => Sys2Proof.Machine.execFrameSelect n s
  | .shaperRefill => Sys2Proof.Machine.execShaperRefill s
  | .fhShaperWrite fn node value => Sys2Proof.Machine.execFhShaperWrite fn node value s
  | .gateCommit n => Sys2Proof.Machine.execGateCommit n s
  | .gateCancel n => Sys2Proof.Machine.execGateCancel n s
  | .gateListStart n => Sys2Proof.Machine.execGateListStart n s
  | .gateEntryAdvance n => Sys2Proof.Machine.execGateEntryAdvance n s
  | .histogramSample => Sys2Proof.Machine.execHistogramSample s
  | .histogramClear queue => Sys2Proof.Machine.execHistogramClear queue s
  | .hostTxPost n head => Sys2Proof.Machine.execHostTxPost n head s
  | .serdesFail u => Sys2Proof.Machine.execSerdesFail u s
  | .timeNowLowRead req pps => Sys2Proof.Machine.execTimeNowLowRead req pps s
  | .timeNowHighRead req pps => Sys2Proof.Machine.execTimeNowHighRead req pps s
  | .timeIncrementWrite value => Sys2Proof.Machine.execTimeIncrementWrite value s
  | .timeAdjAdd => Sys2Proof.Machine.execTimeAdjAdd s
  | .timeAdjSubtract => Sys2Proof.Machine.execTimeAdjSubtract s
  | .timeAdjSet => Sys2Proof.Machine.execTimeAdjSet s
  | .pllLock => Sys2Proof.Machine.execPllLock s
  | .pllLockLoss => Sys2Proof.Machine.execPllLockLoss s
  | .ppsOutPulse => Sys2Proof.Machine.execPpsOutPulse s
  | .ppsInEdge => Sys2Proof.Machine.execPpsInEdge s
  | .quiesce sl => Sys2Proof.Machine.execQuiesce sl s
  | .resume sl => Sys2Proof.Machine.execResume sl s
  | .reset sl => Sys2Proof.Machine.execReset sl s
  | .freeze sl => Sys2Proof.Machine.execFreeze sl s
  | .save sl saveVault => Sys2Proof.Machine.execSave sl saveVault s
  | .restore sl => Sys2Proof.Machine.execRestore sl s
  | .logStart sl => Sys2Proof.Machine.execLogStart sl s
  | .logStop sl => Sys2Proof.Machine.execLogStop sl s
  | .logFlush sl => Sys2Proof.Machine.execLogFlush sl s
  | .quiesceComplete sl => Sys2Proof.Machine.execQuiesceComplete sl s
  | .resetEnd sl => Sys2Proof.Machine.execResetEnd sl s
  | .freezeComplete sl => Sys2Proof.Machine.execFreezeComplete sl s
  | .sliceCommandEnd sl => Sys2Proof.Machine.execSliceCommandEnd sl s
  | .pageRequestResponse sl page code => Sys2Proof.Machine.execPageRequestResponse sl page code s
  | .atsInvalidation sl lo hi => Sys2Proof.Machine.execAtsInvalidation sl lo hi s
  | .creditLimitWrite sl value => Sys2Proof.Machine.execCreditLimitWrite sl value s
  | .tdispLockInterface sl stream => Sys2Proof.Machine.execTdispLockInterface sl stream s
  | .tdispStartInterface sl => Sys2Proof.Machine.execTdispStartInterface sl s
  | .tdispStopInterface sl => Sys2Proof.Machine.execTdispStopInterface sl s
  | .ideIntegrityFailure stream => Sys2Proof.Machine.execIdeIntegrityFailure stream s
  | .pf0Flr => Sys2Proof.Machine.execPf0Flr s
  | .pf1Flr => Sys2Proof.Machine.execPf1Flr s
  | .busMasterEnable fn => Sys2Proof.Machine.execBusMasterEnable fn s
  | .heldRequestTimeout => Sys2Proof.Machine.execHeldRequestTimeout s
  | .ndClear sl => Sys2Proof.Machine.execNdClear sl s
  | .groupBarrierAdd c member n target => Sys2Proof.Machine.execGroupBarrierAdd c member n target s
  | .groupReleaseReceive c n value broken refused start => Sys2Proof.Machine.execGroupReleaseReceive c n value broken refused start s
  | .groupBarrierRelease n => Sys2Proof.Machine.execGroupBarrierRelease n s
  | .heartbeatReceive c beat => Sys2Proof.Machine.execHeartbeatReceive c beat s
  | .helloReceive c member => Sys2Proof.Machine.execHelloReceive c member s
  | .timeMessageReceive c t1 t2 t3 t4 => Sys2Proof.Machine.execTimeMessageReceive c t1 t2 t3 t4 s
  | .flitCrcFail c => Sys2Proof.Machine.execFlitCrcFail c s
  | .clinkLinkDown c => Sys2Proof.Machine.execClinkLinkDown c s
  | .clinkLinkUp c => Sys2Proof.Machine.execClinkLinkUp c s
  | .xqProducerAdvance c q => Sys2Proof.Machine.execXqProducerAdvance c q s
  | .transferWrite c q => Sys2Proof.Machine.execTransferWrite c q s
  | .transferLand c xfer => Sys2Proof.Machine.execTransferLand c xfer s
  | .transferAck c q outcome code => Sys2Proof.Machine.execTransferAck c q outcome code s
  | .mirrorReceive c item => Sys2Proof.Machine.execMirrorReceive c item s
  | .mirrorDump c addr4k => Sys2Proof.Machine.execMirrorDump c addr4k s
  | .handover c => Sys2Proof.Machine.execHandover c s
  | .healthPoll unanswered => Sys2Proof.Machine.execHealthPoll unanswered s
  | .softRetirement u => Sys2Proof.Machine.execSoftRetirement u s
  | .vaultCopyEnd p => Sys2Proof.Machine.execVaultCopyEnd p s
  | .vigilTest run => Sys2Proof.Machine.execVigilTest run s
  | .vigilRequest value => Sys2Proof.Machine.execVigilRequest value s
  | .vigilCancel => Sys2Proof.Machine.execVigilCancel s
  | .vigilStale u => Sys2Proof.Machine.execVigilStale u s
  | .startupVigilPass runs => Sys2Proof.Machine.execStartupVigilPass runs s
  | .monitorSample temps volts procs => Sys2Proof.Machine.execMonitorSample temps volts procs s
  | .powerSample watts => Sys2Proof.Machine.execPowerSample watts s
  | .pwrbrkAssert => Sys2Proof.Machine.execPwrbrkAssert s
  | .pwrbrkRelease => Sys2Proof.Machine.execPwrbrkRelease s
  | .powerLimitSet watts => Sys2Proof.Machine.execPowerLimitSet watts s
  | .railUndervoltage rail => Sys2Proof.Machine.execRailUndervoltage rail s
  | .vddAuxOn sbMode sbAddr trefSel => Sys2Proof.Machine.execVddAuxOn sbMode sbAddr trefSel s
  | .hotReset => Sys2Proof.Machine.execHotReset s
  | .hostReadError pasid addr len => Sys2Proof.Machine.execHostReadError pasid addr len s
  | .deviceReset => Sys2Proof.Machine.execDeviceReset s
  | .devReset key => Sys2Proof.Machine.execDevReset key s
  | .romInitDone => Sys2Proof.Machine.execRomInitDone s
  | .bootGo len => Sys2Proof.Machine.execBootGo len s
  | .verifyEnd => Sys2Proof.Machine.execVerifyEnd s
  | .svnCommit => Sys2Proof.Machine.execSvnCommit s
  | .enrol => Sys2Proof.Machine.execEnrol s
  | .enrolEnd => Sys2Proof.Machine.execEnrolEnd s
  | .spdmMessage sideband request => Sys2Proof.Machine.execSpdmMessage sideband request s
  | .measurements sideband indices => Sys2Proof.Machine.execMeasurements sideband indices s
  | .ideKmKey stream key => Sys2Proof.Machine.execIdeKmKey stream key s
  | .mctpMessage request => Sys2Proof.Machine.execMctpMessage request s
  | .jtagInstructionLoad instr => Sys2Proof.Machine.execJtagInstructionLoad instr s
  | .msixUnmask fn vector => Sys2Proof.Machine.execMsixUnmask fn vector s
  | .pllRelock => Sys2Proof.Machine.execPllRelock s
  | .fhLinkDown n => Sys2Proof.Machine.execFhLinkDown n s
  | .fhLinkUp n => Sys2Proof.Machine.execFhLinkUp n s
  | .railRestore => Sys2Proof.Machine.execRailRestore s
  | .vddAuxOff => Sys2Proof.Machine.execVddAuxOff s
  | .perstNDeassert => Sys2Proof.Machine.execPerstNDeassert s
  | .thermtripRelease => Sys2Proof.Machine.execThermtripRelease s
  | .powerStateChange fn d3 => Sys2Proof.Machine.execPowerStateChange fn d3 s
  | .pcieLinkUp => Sys2Proof.Machine.execPcieLinkUp s
  | .translationCompletion sl page result => Sys2Proof.Machine.execTranslationCompletion sl page result s
  | .mirrorAck c => Sys2Proof.Machine.execMirrorAck c s
  | .handoverReceive c frame cells => Sys2Proof.Machine.execHandoverReceive c frame cells s
  | .handoverReplyReceive c cell accepted => Sys2Proof.Machine.execHandoverReplyReceive c cell accepted s

end Sys2Proof.Machine
end

