-- ==== Sys2Proof/WellFormed.lean ====
section
/-!
DEFINITION. Which commands are well formed: every operand that names a unit, a slot or a window names one that
the manual gives the block.
-/
namespace Sys2Proof

/-- An operand that names something of which the manual gives a number. -/
inductive Operand where
  /-- A physical core (R18). -/
  | core (n : Nat)
  /-- A cluster (R18). -/
  | cluster (n : Nat)
  /-- A context slot (R13). -/
  | slot (n : Nat)
  /-- An engine code (R78). -/
  | engine (n : Nat)
  /-- A slice (R347). -/
  | slice (n : Nat)
  /-- A portal: a slice's, or 256 for the radio portal (R94, R99). -/
  | portal (n : Nat)
  /-- A slot of a submission window (R94). -/
  | window (n : Nat)
  /-- A slot of a sequence command window (R213). -/
  | seqSlot (n : Nat)
  /-- Bytes of a fixed number (R95, R213). -/
  | bytes (n : Nat) (data : Bytes)
  /-- A synchronisation object (R14). -/
  | object (n : Nat)
  /-- A Citia Link port (R404). -/
  | port (n : Nat)
  /-- A transfer queue of a port (R409). -/
  | queue (n : Nat)
  /-- A member of a group (R420). -/
  | member (n : Nat)
  /-- A compute die, which is also a Lamplighter (R12). -/
  | die (n : Nat)
  /-- A fronthaul interface (R305). -/
  | iface (n : Nat)
  /-- A stream FIFO (R16). -/
  | fifo (n : Nat)
  /-- A shaper node (R323). -/
  | node (n : Nat)
  /-- A leaf queue (R326). -/
  | leaf (n : Nat)
  /-- A cell (R457). -/
  | cell (n : Nat)
  /-- A frame number (R269). -/
  | frame (n : Nat)
  /-- A frequency occasion (R286). -/
  | occasion (n : Nat)
  /-- A Jasper engine of a cluster (R12). -/
  | jasper (n : Nat)
  /-- A job ring of a cluster. -/
  | ring (n : Nat)
  /-- A half code of R109. -/
  | half (n : Nat)
  /-- A Beryl bank (R238). -/
  | bank (n : Nat)
  /-- A granule of a scratchpad (R194), and one of cluster memory (R198). -/
  | granule (n : Nat)
  | clmGranule (n : Nat)
  /-- A 2 MiB page of a vault (R200). -/
  | page (n : Nat)
  /-- A line of a vault (R187). -/
  | line (n : Nat)
  /-- An entry of a message store, and a 64-bit word of it (R98). -/
  | message (n : Nat)
  | word (n : Nat)
  /-- A unit of R386. -/
  | unit (n : Nat)
  /-- A PCI Express function, and an MSI-X vector of one (R429, R430). -/
  | func (n : Nat)
  | vector (fn n : Nat)
  /-- An IDE stream number. -/
  | stream (n : Nat)
  /-- The offset of the low and of the high half of a 64-bit register (R9). -/
  | low (n : Nat)
  | high (n : Nat)
deriving DecidableEq, Repr

/-- Whether there is such a thing. -/
def Operand.ok : Operand → Bool
  | .core n => decide (n < 288)
  | .cluster n => decide (n < 32)
  | .slot n => decide (n < 4)
  | .engine n => decide (n < 4)
  | .slice n => decide (n < 256)
  | .portal n => decide (n ≤ 256)
  | .window n => decide (n < 64)
  | .seqSlot n => decide (n < 16)
  | .bytes n data => decide (data.length = n)
  | .object n => decide (n < 32768)
  | .port n => decide (n < 2)
  | .queue n => decide (n < 16)
  | .member n => decide (n < 64)
  | .die n => decide (n < 2)
  | .iface n => decide (n < 32)
  | .fifo n => decide (n < 512)
  | .node n => decide (n < 1408)
  | .leaf n => decide (n < 2624)
  | .cell n => decide (n < 1024)
  | .frame n => decide (n < 1024)
  | .occasion n => decide (n < 8)
  | .jasper n => decide (n < 3)
  | .ring n => decide (n < 8)
  | .half n => decide (n < 3)
  | .bank n => decide (n < 2)
  | .granule n => decide (n < 64)
  | .clmGranule n => decide (n < 128)
  | .page n => decide (n < 576)
  | .line n => decide (n < 18874368)
  | .message n => decide (n < 8)
  | .word n => decide (n < 2)
  | .unit n => decide (n < 840)
  | .func n => decide (n < 2)
  | .vector fn n => decide (n < if fn = 0 then 2048 else 256)
  | .stream n => decide (n < 256)
  | .low n => decide (n % 8 = 0)
  | .high n => decide (n % 8 = 4)

/-- The operands of a command that name something. -/
def Instr.operands : Instr → List Operand
  | .registerWrite _ _ _ _ _ => []
  | .rcRead _ _ _ _ => []
  | .badAccess _ _ _ _ _ => []
  | .lowHalfRead _ _ offset => [.low offset]
  | .lowHalfWrite _ _ offset _ => [.low offset]
  | .highHalfWrite _ _ offset _ => [.high offset]
  | .tickBoundary => []
  | .garMaxInstrTimeWrite p _ => [.core p]
  | .radioWindowStart p => [.core p]
  | .engineYield p engine _ => [.core p, .engine engine]
  | .yieldOverrun p => [.core p]
  | .radioWindowEnd p => [.core p]
  | .cutLoad _ => []
  | .cutCancel => []
  | .cutCheckEnd => []
  | .descriptorSubmit portal slot desc _ => [.portal portal, .window slot, .bytes 64 desc]
  | .submissionWindowBadWrite portal => [.portal portal]
  | .commandFetch p slot => [.core p, .slot slot]
  | .signalArrive _ => []
  | .waitTimeout p slot engine => [.core p, .slot slot, .engine engine]
  | .commandComplete p slot engine => [.core p, .slot slot, .engine engine]
  | .creditMirrorWrite portal => [.portal portal]
  | .slcMsgWrite s m word _ => [.slice s, .message m, .word word]
  | .syncObjWrite n _ _ => [.object n]
  | .syncCtlWrite _ => []
  | .nop p slot => [.core p, .slot slot]
  | .signal p slot => [.core p, .slot slot]
  | .wait p slot => [.core p, .slot slot]
  | .yieldPoint p slot => [.core p, .slot slot]
  | .handBack p slot => [.core p, .slot slot]
  | .barrier p slot => [.core p, .slot slot]
  | .digestMark p slot => [.core p, .slot slot]
  | .stepTrigger p slot => [.core p, .slot slot]
  | .timestamp p slot => [.core p, .slot slot]
  | .interrupt p slot => [.core p, .slot slot]
  | .hostWrite p slot => [.core p, .slot slot]
  | .gmm p slot => [.core p, .slot slot]
  | .gdrain p slot => [.core p, .slot slot]
  | .gpreload p slot => [.core p, .slot slot]
  | .gdcfg p slot => [.core p, .slot slot]
  | .gmode p slot => [.core p, .slot slot]
  | .gmmLastWavefront p half => [.core p, .half half]
  | .drainStart p half => [.core p, .half half]
  | .drainEnd p half => [.core p, .half half]
  | .preloadEnd p half => [.core p, .half half]
  | .garnetFault p half _ => [.core p, .half half]
  | .ocopy p slot => [.core p, .slot slot]
  | .ogather p slot => [.core p, .slot slot]
  | .oscatter p slot => [.core p, .slot slot]
  | .oscatterAdd p slot => [.core p, .slot slot]
  | .ofill p slot => [.core p, .slot slot]
  | .oparityEnc p slot => [.core p, .slot slot]
  | .oparityRebuild p slot => [.core p, .slot slot]
  | .odigest p slot => [.core p, .slot slot]
  | .opalTransactionDone p slot => [.core p, .slot slot]
  | .orderedAddArrive _ => []
  | .orderedAddRetry _ => []
  | .orderedAddTimeout _ => []
  | .vaultLineRead _ _ => []
  | .vaultLineWrite _ _ _ _ => []
  | .vaultScrub p line _ => [.core p, .line line]
  | .rowCopyEnd p => [.core p]
  | .bankCopyEnd p => [.core p]
  | .spmScrub _ _ => []
  | .granuleClaimDeferred p slot engine => [.core p, .slot slot, .engine engine]
  | .remoteSpmRequest p slot _ => [.core p, .slot slot]
  | .granuleZeroEnd p g => [.core p, .granule g]
  | .clmGranuleZeroEnd k g => [.cluster k, .clmGranule g]
  | .coreVaultPageWrite p page _ => [.core p, .page page]
  | .pageZeroEnd s => [.slice s]
  | .ctxEvict p slot => [.core p, .slot slot]
  | .evictEnd p => [.core p]
  | .restoreEnd p => [.core p]
  | .seqStart s winSlot cmd _ => [.slice s, .seqSlot winSlot, .bytes 128 cmd]
  | .seqExtend s winSlot cmd _ => [.slice s, .seqSlot winSlot, .bytes 128 cmd]
  | .seqCancel s winSlot cmd _ => [.slice s, .seqSlot winSlot, .bytes 128 cmd]
  | .seqParams s winSlot cmd _ => [.slice s, .seqSlot winSlot, .bytes 128 cmd]
  | .seqWindowBadWrite s => [.slice s]
  | .ackRecordWrite s => [.slice s]
  | .stepBind s _ _ => [.slice s]
  | .stepBuild s => [.slice s]
  | .stepComplete s => [.slice s]
  | .outputCoalesceTimeout s => [.slice s]
  | .fixedBatchStart s => [.slice s]
  | .allBlocked p => [.core p]
  | .contextIdleRelease p slot => [.core p, .slot slot]
  | .lampCtxCfgWrite d _ => [.die d]
  | .bload p move => [.core p, .slot move.slot]
  | .bstore p move => [.core p, .slot move.slot]
  | .brun p slot => [.core p, .slot slot]
  | .bsets p slot => [.core p, .slot slot]
  | .bpclr p slot => [.core p, .slot slot]
  | .btrim p slot => [.core p, .slot slot]
  | .bundle p bank _ _ => [.core p, .bank bank]
  | .cellStart cell _ _ => [.cell cell]
  | .cellStop cell _ _ => [.cell cell]
  | .cellReconfig cell _ _ => [.cell cell]
  | .cellFrameAction cell => [.cell cell]
  | .cluLantCtlWrite k _ => [.cluster k]
  | .lanternFault k => [.cluster k]
  | .planRead cell => [.cell cell]
  | .prachOccasion cell frame _ occ => [.cell cell, .frame frame, .occasion occ]
  | .noisePeriodEnd cell _ => [.cell cell]
  | .uplinkResult cell entry => [.cell cell, .frame entry.frame]
  | .jobRingProdWrite k j _ => [.cluster k, .ring j]
  | .ldpcDecode k e j => [.cluster k, .jasper e, .ring j]
  | .ldpcEncode k e j => [.cluster k, .jasper e, .ring j]
  | .polarDecode k e j => [.cluster k, .jasper e, .ring j]
  | .polarEncode k e j => [.cluster k, .jasper e, .ring j]
  | .turboDecode k e j => [.cluster k, .jasper e, .ring j]
  | .turboEncode k e j => [.cluster k, .jasper e, .ring j]
  | .tbccDecode k e j => [.cluster k, .jasper e, .ring j]
  | .tbccEncode k e j => [.cluster k, .jasper e, .ring j]
  | .codeBlockEnd k e => [.cluster k, .jasper e]
  | .jasperFault k e => [.cluster k, .jasper e]
  | .frameReceive i _ _ => [.iface i]
  | .fifoDropRest f => [.fifo f]
  | .pop f _ => [.fifo f]
  | .hubPacketMove f _ => [.fifo f]
  | .egressPacketRead f _ => [.fifo f]
  | .frameSelect i => [.iface i]
  | .shaperRefill => []
  | .fhShaperWrite fn node _ => [.func fn, .node node]
  | .gateCommit i => [.iface i]
  | .gateCancel i => [.iface i]
  | .gateListStart i => [.iface i]
  | .gateEntryAdvance i => [.iface i]
  | .histogramSample => []
  | .histogramClear queue => [.leaf queue]
  | .hostTxPost i _ => [.iface i]
  | .serdesFail u => [.unit u]
  | .timeNowLowRead _ _ => []
  | .timeNowHighRead _ _ => []
  | .timeIncrementWrite _ => []
  | .timeAdjAdd => []
  | .timeAdjSubtract => []
  | .timeAdjSet => []
  | .pllLock => []
  | .pllLockLoss => []
  | .ppsOutPulse => []
  | .ppsInEdge => []
  | .quiesce s => [.slice s]
  | .resume s => [.slice s]
  | .reset s => [.slice s]
  | .freeze s => [.slice s]
  | .save s _ => [.slice s]
  | .restore s => [.slice s]
  | .logStart s => [.slice s]
  | .logStop s => [.slice s]
  | .logFlush s => [.slice s]
  | .quiesceComplete s => [.slice s]
  | .resetEnd s => [.slice s]
  | .freezeComplete s => [.slice s]
  | .sliceCommandEnd s => [.slice s]
  | .pageRequestResponse s _ _ => [.slice s]
  | .atsInvalidation s _ _ => [.slice s]
  | .creditLimitWrite s _ => [.slice s]
  | .tdispLockInterface s stream => [.slice s, .stream stream]
  | .tdispStartInterface s => [.slice s]
  | .tdispStopInterface s => [.slice s]
  | .ideIntegrityFailure stream => [.stream stream]
  | .pf0Flr => []
  | .pf1Flr => []
  | .busMasterEnable fn => [.func fn]
  | .heldRequestTimeout => []
  | .ndClear s => [.slice s]
  | .groupBarrierAdd c member n _ => [.port c, .member member, .object n]
  | .groupReleaseReceive c n _ _ _ _ => [.port c, .object n]
  | .groupBarrierRelease n => [.object n]
  | .heartbeatReceive c _ => [.port c]
  | .helloReceive c member => [.port c, .member member]
  | .timeMessageReceive c _ _ _ _ => [.port c]
  | .flitCrcFail c => [.port c]
  | .clinkLinkDown c => [.port c]
  | .clinkLinkUp c => [.port c]
  | .xqProducerAdvance c q => [.port c, .queue q]
  | .transferWrite c q => [.port c, .queue q]
  | .transferLand c _ => [.port c]
  | .transferAck c q _ _ => [.port c, .queue q]
  | .mirrorReceive c _ => [.port c]
  | .mirrorDump c _ => [.port c]
  | .handover c => [.port c]
  | .healthPoll _ => []
  | .softRetirement u => [.unit u]
  | .vaultCopyEnd p => [.core p]
  | .vigilTest _ => []
  | .vigilRequest _ => []
  | .vigilCancel => []
  | .vigilStale u => [.unit u]
  | .startupVigilPass _ => []
  | .monitorSample _ _ _ => []
  | .powerSample _ => []
  | .pwrbrkAssert => []
  | .pwrbrkRelease => []
  | .powerLimitSet _ => []
  | .railUndervoltage _ => []
  | .vddAuxOn _ _ _ => []
  | .hotReset => []
  | .hostReadError _ _ _ => []
  | .deviceReset => []
  | .devReset _ => []
  | .romInitDone => []
  | .bootGo _ => []
  | .verifyEnd => []
  | .svnCommit => []
  | .enrol => []
  | .enrolEnd => []
  | .spdmMessage _ _ => []
  | .measurements _ _ => []
  | .ideKmKey stream _ => [.stream stream]
  | .mctpMessage _ => []
  | .jtagInstructionLoad _ => []
  | .msixUnmask fn vector => [.func fn, .vector fn vector]
  | .pllRelock => []
  | .fhLinkDown i => [.iface i]
  | .fhLinkUp i => [.iface i]
  | .railRestore => []
  | .vddAuxOff => []
  | .perstNDeassert => []
  | .thermtripRelease => []
  | .powerStateChange fn _ => [.func fn]
  | .pcieLinkUp => []
  | .translationCompletion s _ _ => [.slice s]
  | .mirrorAck c => [.port c]
  | .handoverReceive c _ _ => [.port c]
  | .handoverReplyReceive c cell _ => [.port c, .cell cell]

/-- A command is well formed when there is everything that it names. -/
def Instr.wf (i : Instr) : Bool := i.operands.all Operand.ok

end Sys2Proof
end

