-- ==== Sys2Proof/Safety.lean ====
section
/-!
DEFINITION. The words in which statements are made: the canonical form of the memories and of the register
file, what a command leaves unchanged, and what counts as a safe run.
-/
namespace Sys2Proof.Machine

/-- On-package memory in canonical form: addresses strictly rising, and no byte listed as zero, which is what an
unlisted address reads as after the zeroing of R432. -/
def Memory.wf (m : SMap Byte) : Bool := mapWf (fun _ => 0) m

/-- Poison tags in canonical form. -/
def Tags.wf (m : SMap Bool) : Bool := mapWf (fun _ => false) m

/-- The register file in canonical form: no register without a listed instance, and no instance listed with
its reset value. -/
def Regs.wf (m : SMap (SMap RegVal)) : Prop :=
  mapWf (fun _ => []) m = true ∧ ∀ r : Reg, mapWf r.resetVal (look [] m r.code) = true

/-- The invariant of every step: the memories, their tags, host memory and the register file are in canonical
form, so that equal contents are equal data. -/
def State.canonical (s : State) : Prop :=
  Memory.wf s.mem = true ∧ Tags.wf s.poison = true ∧ Memory.wf s.host.mem = true ∧ Tags.wf s.host.poison = true
    ∧ Regs.wf s.regs

/-- Every register but those listed reads in `t` as in `s`. -/
def regsKept (s t : State) (changed : List Reg) : Prop := ∀ r i, r ∉ changed → t.reg r i = s.reg r i

/-- Every instance of a register but one, and every register but that one, read in `t` as in `s`. -/
def regKept (s t : State) (r : Reg) (i : Nat) : Prop := ∀ q j, q ≠ r ∨ j ≠ i → t.reg q j = s.reg q j

/-- Fields that share no bit of one register. -/
def Fld.apart (f g : Fld) : Bool := f.reg ≠ g.reg || g.lo + g.width ≤ f.lo || f.lo + f.width ≤ g.lo

/-- No field of the register file but one, of one instance, differs. -/
def fldKept (s t : State) (f : Fld) (i : Nat) : Prop :=
  regKept s t f.reg i ∧ ∀ g : Fld, f.apart g = true → t.fld g i = s.fld g i

/-- Every byte of on-package memory and every poison tag is in `t` as in `s`. -/
def memKept (s t : State) : Prop := (∀ a, t.byte a = s.byte a) ∧ ∀ a, t.poisoned a = s.poisoned a

/-- Nothing but the register file differs. -/
def onlyRegs (s t : State) : Prop := t = { s with regs := t.regs }

/-- An event counter, which saturates (R6), has gone up by one. -/
def countedUp (s t : State) (f : Fld) (i : Nat) : Prop := t.fld f i = min (s.fld f i + 1) (2 ^ f.width - 1)

/-- A counter that wraps has gone up by one. -/
def wrappedUp (s t : State) (f : Fld) (i : Nat) : Prop := t.fld f i = (s.fld f i + 1) % 2 ^ f.width

/-- The bytes of a range are zero in `t`, without poison tag, and every byte and line outside it is as in `s`. -/
def zeroed (s t : State) (a n : Nat) : Prop :=
  (∀ k, t.byte k = if a ≤ k ∧ k < a + n then 0 else s.byte k)
    ∧ ∀ k, t.tagged k = if a ≤ k ∧ k < a + n then false else s.tagged k

/-! ### Accesses to register space -/

/-- The BARs that hold register space (R455, R457). -/
def registerBar : Bar → Bool
  | .pf0Bar0 => true
  | .pf0Bar2 => true
  | .pf0Bar2Ide _ => true
  | .pf0Bar4 => false
  | .pf1Bar0 => true
  | .pf0Bar4Size => false
  | .hostMemory _ => false
  | .lantern _ => false
  | .lanternMemory _ => false

/-- The registers of which a write does more than R5 says of its fields, or something else: the commands, the
registers that a rule of their chapter guards, and those whose halves act at once. -/
def commandRegs : List Reg :=
  [.DEV_RESET, .CUT_LOAD_ADDR, .CUT_CTL, .ONYX_BOOT_CTL, .ONYX_SVN, .ONYX_ENROL_CTL, .TIME_INCREMENT,
   .TIME_ADJ_CTL, .TIME_PPS_CTL, .FH_SHAPER, .FH_HIST_SEL, .FH_GATE_CTL, .FH_GATE_LIST, .FH_HOST_PTR,
   .CLINK_TWIN_CTL, .CLINK_MIRROR_DUMP, .LAMP_CTX_CFG, .SLC_CFG, .SLC_CMD, .SLC_MSG, .SLC_ND_CLR,
   .HLTH_VIGIL_REQ, .SYNC_CTL, .SYNC_OBJ, .GAR_ISSUE_CTL, .GAR_MAX_INSTR_TIME, .CORE_CTX_CMD,
   .CORE_VAULT_PAGE, .CLU_CELL_CMD, .CLU_LANT_CTL, .PORTAL_STEP_BIND, .PORTAL_CREDIT_MIRROR,
   .PORTAL_ERR_RING, .PORTAL_ERR_PTR, .PORTAL_OUT_RING, .PORTAL_OUT_PTR, .PORTAL_OUT_COAL,
   .FIFO_CFG, .FIFO_STATUS, .FIFO_CMD]

/-- Whether bit `n` of a register belongs to a field of an access type. -/
def Reg.bitIs (r : Reg) (a : Access) (n : Nat) : Bool :=
  r.fields.any fun f => f.access = a && decide (f.lo ≤ n) && decide (n < f.lo + f.width)

/-- DEV_BAD_ACCESS has counted an access to an offset of a BAR (R7), and no other register differs. -/
def counted (s t : State) (b : Bar) (off : Nat) : Prop :=
  t.fld F.DEV_BAD_ACCESS_count 0 = min (s.fld F.DEV_BAD_ACCESS_count 0 + 1) (2 ^ F.DEV_BAD_ACCESS_count.width - 1)
    ∧ t.fld F.DEV_BAD_ACCESS_last_offset 0 = off % 2 ^ F.DEV_BAD_ACCESS_last_offset.width
    ∧ t.fld F.DEV_BAD_ACCESS_last_bar 0 = barCode b
    ∧ regKept s t .DEV_BAD_ACCESS 0

/-! ### Commands of contexts -/

/-- Command `seq` of a slot has ended its work in `t`, with its error code set if `err` is not 0; every other
command of the slot, its lists and every other slot are in `t` as in `s`. -/
def cmdEnded (s t : State) (p slot seq err : Nat) : Prop :=
  (∃ x, s.ctx p slot = some x ∧
    t.ctx p slot = some { x with queue := x.queue.map fun c => if c.seq = seq then
        { c with phase := .worked, err := if err ≠ 0 ∧ c.err = 0 then err else c.err } else c })
  ∧ ∀ q sl, q ≠ p ∨ sl ≠ slot → t.ctx q sl = s.ctx q sl

/-- Nothing of a core but its contexts differs. -/
def onlyContexts (s t : State) : Prop := ∀ p, t.core p = { s.core p with ctx := (t.core p).ctx }

/-- Whether an address lies in the save area of a slot (R202). -/
def State.inSaveArea (s : State) (a : Nat) : Prop :=
  ∃ n slot k, (slot < 8 ∨ ∃ p, (s.ctx p slot).isSome = true) ∧ k < 0x1000000 ∧ a = vaultAddr n (saveArea slot) + k

/-- The granules that spans need are free or the context's own (R194); the radio context claims none. -/
def claimsFree (s : State) (p slot n : Nat) (x : Ctx) (sps : List Span) : Prop :=
  slot ≠ 0 → s.claimable p slot x.owner (claimSets n (spanPlan sps).bufs).1 (claimSets n (spanPlan sps).bufs).2 = true

/-- A Garnet command issues: its core serves a logical core, its list is known, nothing holds it (R120), and it stands
before issue, or it may start, no command stands before issue, GAR_ISSUE_CTL does not hold rental issue, its checks
pass and its granules can be claimed. -/
def garnetReady (s : State) (p slot op : Nat) (x : Ctx) (c : QCmd) (n : Nat) (l : CList) (hold : Bool)
    (check : Except Fail Unit) (sps : List Span) : Prop :=
  s.logicalOf p = some n ∧ x.listOf c = some l ∧ hold = false
    ∧ (s.issuable p slot op = some (x, c)
      ∨ s.startOp p slot 0 op = some (x, c) ∧ x.issuing = none ∧ c.plan = none
        ∧ (slot ≠ 0 → s.fld F.GAR_ISSUE_CTL_rental_hold p ≠ 1) ∧ check = .ok () ∧ claimsFree s p slot n x sps)

/-- The spans of a GMM with those of the drain that it captures. -/
def State.gmmAllSpans (s : State) (x : Ctx) (c : QCmd) (l : CList) : List Span :=
  s.gmmSpans l c ++ (match x.gmmDrain c with
    | some v => s.drainSpans c l (DrainCfg.ofBits v (c.pay 114 14)) (colsOf (c.pay 75 2))
    | none => [])

/-- Command `seq` of a slot has started in `t` and its work has not ended. -/
def cmdStarted (t : State) (p slot seq : Nat) : Prop :=
  ∃ y, t.ctx p slot = some y ∧ ∀ d, y.cmd seq = some d → d.phase = .started

/-- An Opal command stands ready: it may start, it decodes to a plan whose checks pass, no earlier command of its queue
conflicts and no write of another context to what it reads is on its way (R28), no memory that it names is held, its
granules can be claimed, and none of its host reads waits, unless it is a no-op. -/
def opalReady (s : State) (p slot op : Nat) (x : Ctx) (c : QCmd) (n : Nat) (l : CList) (d : OpalPlan)
    (plan : Nat → Ctx → QCmd → CList → Except Fail OpalPlan) : Prop :=
  s.startOp p slot 2 op = some (x, c) ∧ s.logicalOf p = some n ∧ x.listOf c = some l ∧ c.fault = none ∧ c.reserved = 0
    ∧ plan n x c l = .ok d ∧ s.planCheck c d = .ok () ∧ x.opalConflict c.seq d.reads d.writes = false ∧ d.waits s = false
    ∧ (slot ≠ 0 → s.claimable p slot x.owner (d.claims n).1 (d.claims n).2 = true)
    ∧ s.readsClear p slot d.reads = true ∧ (d.noop = true ∨ s.hostWait x.owner c d.reads = .ready false)

/-- What the landing of a mover's writes leaves at a byte of on-package memory. -/
def Mover.leaves (m : Mover) (k : Nat) (b : Byte) : Byte :=
  match look none m.ov k with
  | some v => BitVec.ofNat 8 v
  | none => b

/-- The registers in which the start of an Opal command shows. -/
def opalRegs : List Reg :=
  [.CORE_SPM_OWNER, .CLU_CLM_GRANULE, .OPAL_EVENTS, .CORE_ND_COUNT, .SLC_ND_TOTAL, .CORE_VAULT_ECC]

/-- What the write transactions of a command leave at a byte when they land in their order: the last value that they
bring to it. -/
def finalByte (ts : List (List LineOut)) (k : Nat) : Option Nat :=
  ((ts.flatten.flatMap (·.bytes)).reverse.find? fun e => e.1 = k).map (·.2)

/-- The elements, as offset in the line and value, that they add to a line. -/
def addedTo (ts : List (List LineOut)) (line : Nat) : List (Nat × Nat) :=
  ts.flatten.flatMap fun o => if o.line = line then (match o.add with | some a => a.elems | none => []) else []

/-- An Opal command has started, with the bytes that the mover `m` holds in its write transactions, each in its line,
and no others, unless a written tensor has no footprint (R158) or nothing is to be written (R176): no byte of memory has
changed yet.  Where it writes in order (R171, R174, R175) a byte may stand in several of them.  Bytes that an
aliasing command in default mode wrote twice have free values (R174).  It is flagged if it read poison, and ends in
ERR_OOB with the entry `oob` where its index was out of bounds (R169). -/
def opalMoved (s t : State) (p slot : Nat) (x : Ctx) (c : QCmd) (d : OpalPlan) (m : Mover) (oob : Option Nat) : Prop :=
  (∃ y e, t.ctx p slot = some y ∧ y.cmd c.seq = some e ∧ e.phase ≠ .queued
    ∧ (e.phase = .worked → e.todo = [] ∧ e.toIssue = 0 ∧ e.inFlight = 0)
    ∧ (d.noop = true → e.todo = [] ∧ e.fault = none)
    ∧ (d.noop = false → (m.bad = true → e.err = ePoison) ∧ (e.fault = oob.map fun i => (eOob, i))
      ∧ (∀ k, s.steady x.owner = true ∨ d.overlap = true ∨ d.twice = false → finalByte e.todo k = look none m.ov k)
      ∧ ∀ tr ∈ e.todo, ∀ o ∈ tr, o.add = none ∧ ∀ b ∈ o.bytes, b.1 / 64 = o.line))
  ∧ memKept s t ∧ t.signals = s.signals ∧ t.adds = s.adds ∧ regsKept s t opalRegs
  ∧ ∀ q sl, q ≠ p ∨ sl ≠ slot → t.ctx q sl = s.ctx q sl

/-- An OSCATTER_ADD on the package has started: its write transactions hold the adds that `r` has made, each for the
home of its line, with an ordinal and a number of contributions (R173), and bytes only where an aliasing one in
default mode leaves them unspecified (R174).  The ordered adds among those issued are on their way; no byte of memory
has changed. -/
def opalAdds (s t : State) (p slot : Nat) (x : Ctx) (c : QCmd) (d : OpalPlan) (fmt : Nat) (r : Adder)
    (ordinal contribs : Nat) (oob : Option Nat) : Prop :=
  (∃ y e, t.ctx p slot = some y ∧ y.cmd c.seq = some e ∧ e.phase ≠ .queued
    ∧ (d.noop = true → e.todo = [] ∧ e.fault = none)
    ∧ (d.noop = false → (r.m.bad = true → e.err = ePoison) ∧ (e.fault = oob.map fun i => (eOob, i))
      ∧ (∀ line, addedTo e.todo line
          = (r.adds.reverse.filter fun q => q.2.1 / 64 = line).map fun q => (q.2.1 % 64, q.2.2.1))
      ∧ (∀ tr ∈ e.todo, ∀ o ∈ tr, ∀ a, o.add = some a → a.line = o.line ∧ a.ordinal = ordinal ∧ a.contribs = contribs
          ∧ a.fmt = fmt ∧ a.owner = x.owner ∧ a.seq = c.seq)
      ∧ (contribs ≠ 1 → (e.todo.flatten.map (·.line)).Nodup)
      ∧ (s.steady x.owner = true ∨ d.overlap = true ∨ d.twice = false → ∀ tr ∈ e.todo, ∀ o ∈ tr, o.bytes = []))
    ∧ t.adds = s.adds ++ (e.issued.zip e.stamps).flatMap fun f =>
        (f.1.filterMap LineOut.ordered).map fun a => { a with core := p, slot := slot, stamp := f.2 })
  ∧ memKept s t ∧ t.signals = s.signals ∧ regsKept s t opalRegs
  ∧ ∀ q sl, q ≠ p ∨ sl ≠ slot → t.ctx q sl = s.ctx q sl

/-- The command of an ordered add does not fail when its last add ends: it has no index (R159, R173). -/
def State.faultless (s : State) (a : OrdAdd) : Prop :=
  ∀ x c, s.ctx a.core a.slot = some x → x.cmd a.seq = some c → c.fault = none

/-! ### Lamplighter -/

/-- The command that a write to the sequence window is, by its op (R213, R214). -/
def seqCommand (sl slot : Nat) (cmd : Bytes) (via : Option Nat) : Instr :=
  match leAt cmd 0 1 with
  | 2 => .seqExtend sl slot cmd via
  | 3 => .seqCancel sl slot cmd via
  | 4 => .seqParams sl slot cmd via
  | _ => .seqStart sl slot cmd via

/-- Every member list of a template that has commands stands in a context of its core, or among the descriptors held
there, as one of step `number` of a slice (R219). -/
def membersSubmitted (u : State) (sl : Nat) (m : Template) (number : Nat) : Prop :=
  ∀ i p, i < m.members → u.physOf (u.memberDesc m.table i).core = some p → (u.memberDesc m.table i).cmds ≠ 0 →
    (∃ k x l, u.ctx p k = some x ∧ x.owner = sl ∧ l ∈ x.lists ∧ l.desc = u.memberDesc m.table i ∧ l.step = some number)
      ∨ ∃ h ∈ (u.core p).held, h.portal = sl ∧ h.desc = u.memberDesc m.table i ∧ h.step = some number

/-- A host write of a requester lands at once: it is not fenced, PF0 or PF1 may issue requests, none of its requests
is held, and it needs no translation (R349, R357, R368). -/
def landsAtOnce (s : State) (who : Nat) : Prop :=
  (who < 256 → (s.slice who).fenced = false ∧ s.fld F.SLC_CFG_ats_en who = 0) ∧ s.canIssue (fnOf who) = true
    ∧ ∀ h ∈ s.host.held, h.who ≠ who

/-! ### Beryl -/

/-- Command `seq` of a slot has ended its work in `t`. -/
def cmdWorked (t : State) (p slot seq : Nat) : Prop :=
  ∃ y, t.ctx p slot = some y ∧ ∀ d, y.cmd seq = some d → d.phase = .worked

/-- A Beryl command stands ready: it may start, its core serves a logical core and its list is known. -/
def berylReady (s : State) (p slot op : Nat) (x : Ctx) (c : QCmd) (n : Nat) (l : CList) : Prop :=
  s.startOp p slot 1 op = some (x, c) ∧ s.logicalOf p = some n ∧ x.listOf c = some l

/-- A byte of the Beryl memories of a core as it reads, under memory * 2^20 + byte. -/
def State.berylByte (s : State) (p key : Nat) : Byte := if s.berylBlank p key then 0 else look 0 (s.beryl p).mem key

/-- Beryl bank 0 of a core may issue the bundle `w`, whose fetch is permitted. -/
def bundleReady (s : State) (p w : Nat) : Prop :=
  s.bankIssues p 0 = true ∧ s.fetchable p 0 ((s.berylBank p 0).get kPC) = true
    ∧ w = leNat (s.berylBytes p (2 * 2 ^ 20 + 16 * (s.berylBank p 0).get kPC) 16)

/-- Bank 0 of a core has run a bundle: its registers hold what `f` says, and nothing but its memories and its
banks differs. -/
def bundleRan (s t : State) (p : Nat) (f : Nat → Nat) : Prop :=
  (∀ k, (t.berylBank p 0).get k = f k) ∧ (t.berylBank p 0).running = true ∧ t.berylBank p 1 = s.berylBank p 1
    ∧ (∀ q, q ≠ p → t.core q = s.core q) ∧ (∀ q sl, t.ctx q sl = s.ctx q sl) ∧ t.mem = s.mem ∧ t.regs = s.regs

/-! ### Cells and Jasper -/

/-- The command of R271 under its op code. -/
def cellCommand (op cell : Nat) (next : Bool) (atFrame : Nat) : Instr :=
  match op with
  | 1 => .cellStart cell next atFrame
  | 2 => .cellStop cell next atFrame
  | _ => .cellReconfig cell next atFrame

/-- The Jasper command of R291 under its op code. -/
def jasperCommand (op k e j : Nat) : Instr :=
  match op with
  | 1 => .ldpcDecode k e j
  | 2 => .ldpcEncode k e j
  | 3 => .polarDecode k e j
  | 4 => .polarEncode k e j
  | 5 => .turboDecode k e j
  | 6 => .turboEncode k e j
  | 7 => .tbccDecode k e j
  | _ => .tbccEncode k e j

/-- The device address of the next record of a cell's report ring, when that lies on the package (R286). -/
def State.reportAddr (s : State) (c : Nat) : Nat :=
  cfgReport (s.cell c).config / 64 * 64
    + s.fld F.CLU_CELL_RING_PTR_head c % cfgRingLen (s.cell c).config * 64

/-- The codec has no job of a cell: no engine of its cluster runs one and its rings are empty. -/
def State.codecFree (s : State) (c : Nat) : Prop :=
  (∀ e < 3, ∀ t, look none (s.jsp (s.cellCluster c)).running e = some t → jobCell t.job ≠ c)
    ∧ ∀ j < 8, s.jobsAhead (s.cellCluster c) j = 0

/-- The phase bit of that record: 1 in the first lap of the ring (R286). -/
def State.reportPhase (s : State) (c : Nat) : Nat :=
  (s.fld F.CLU_CELL_RING_PTR_head c / cfgRingLen (s.cell c).config + 1) % 2

/-- A report record has been written in the ring of cell `c` on the package, and no other byte. -/
def reportWritten (s t : State) (c : Nat) (record : Bytes) : Prop :=
  t.bytesAt (s.reportAddr c) 64 = record
    ∧ (∀ a, a < s.reportAddr c ∨ s.reportAddr c + 64 ≤ a → t.byte a = s.byte a)
    ∧ t.fld F.CLU_CELL_RING_PTR_head c = (s.fld F.CLU_CELL_RING_PTR_head c + 1) % 2 ^ F.CLU_CELL_RING_PTR_head.width

/-- The report ring of cell `c` lies on the package and has room (R286, R482). -/
def reportRoom (s : State) (c : Nat) : Prop :=
  cfgReport (s.cell c).config % 2 = 1
    ∧ ringRoom (s.fld F.CLU_CELL_RING_PTR_head c) (s.fld F.CLU_CELL_RING_PTR_tail c)
        (cfgRingLen (s.cell c).config) = true

/-! ### Slices -/

/-- A slice command has been answered with a result at once: last_result and the bit of SLC_DONE show it, and
nothing else of the registers differs but what the slice event does (R356). -/
def sliceAnswered (s t : State) (sl r : Nat) : Prop :=
  t.fld F.SLC_CMD_last_result sl = r ∧ t.fld F.SLC_CMD_busy sl = s.fld F.SLC_CMD_busy sl
    ∧ (∀ k, (t.fld F.SLC_DONE_done 0).testBit k = ((s.fld F.SLC_DONE_done 0).testBit k || decide (k = sl)))
    ∧ regsKept s t [.SLC_CMD, .SLC_DONE] ∧ (∀ k, k ≠ sl → t.reg .SLC_CMD k = s.reg .SLC_CMD k)
    ∧ t = { s with regs := t.regs, host := t.host }

/-- The command in progress of a slice has ended with a result (R356). -/
def sliceEnded (s t : State) (sl r : Nat) : Prop :=
  t.fld F.SLC_CMD_last_result sl = r ∧ t.fld F.SLC_CMD_busy sl = 0
    ∧ (∀ k, (t.fld F.SLC_DONE_done 0).testBit k = ((s.fld F.SLC_DONE_done 0).testBit k || decide (k = sl)))
    ∧ t.slice sl = { s.slice sl with command := none } ∧ (∀ k, k ≠ sl → t.slice k = s.slice k)
    ∧ regsKept s t [.SLC_CMD, .SLC_DONE] ∧ t = { s with regs := t.regs, host := t.host, slices := t.slices }

/-- A command is in progress at a slice that will end with a result, or is a FREEZE (16) or a RESET (17). -/
def sliceBusy (t : State) (sl v : Nat) : Prop :=
  t.fld F.SLC_CMD_busy sl = 1 ∧ (t.slice sl).command = some v

/-! ### Citia Link -/

/-- What a port does with a flit before it is looked at: nothing arrives on a link that is down or has another role,
and a flit of a fenced member is dropped and counted (R406, R407). -/
def flitFiltered (s : State) (cmd : Instr) (c role member : Nat) : Prop :=
  (2 ≤ c ∨ s.role c ≠ role ∨ s.portUp c = false → exec cmd s = .next s)
    ∧ (c < 2 → s.role c = role → s.portUp c = true → s.allowed c member = false →
      ∃ t, exec cmd s = .next t ∧ onlyRegs s t ∧ countedUp s t F.CLINK_PORT_STATUS_fenced_drop c
        ∧ fldKept s t F.CLINK_PORT_STATUS_fenced_drop c)

/-- A flit from a member reaches a port of a role (R403, R407). -/
def flitArrives (s : State) (c role member : Nat) : Prop :=
  c < 2 ∧ s.role c = role ∧ s.portUp c = true ∧ s.allowed c member = true

/-- A BARRIER on object `n` waits at this device for a release (R421). -/
def groupWaiting (s : State) (w : GroupWait) (n : Nat) : Prop :=
  w ∈ s.clink.waits ∧ w.n = n ∧ ∃ x c, s.ctx w.core w.slot = some x ∧ x.cmd w.seq = some c ∧ c.phase = .started

/-- Record `n` of a transfer queue has ended with an outcome and a code: both stand in the record, the outcome is
counted, and the signal of the transfer leaves, or its object is broken (R411 to R413). -/
def transferEnded (s t : State) (c q n : Nat) (b : Bytes) (outcome code : Nat) : Prop :=
  t.bytesAt (s.xqRecord (c * 16 + q) n + 0x30) 2 = leBytes 1 outcome ++ leBytes 1 code
    ∧ (∀ a, a < s.xqRecord (c * 16 + q) n + 0x30 ∨ s.xqRecord (c * 16 + q) n + 0x32 ≤ a → t.byte a = s.byte a)
    ∧ (∀ a, t.poisoned a = s.poisoned a)
    ∧ countedUp s t (if outcome = 0 then F.CLINK_PORT_CNT_xfer_done else if outcome = 2 then
        F.CLINK_PORT_CNT_xfer_aborted else F.CLINK_PORT_CNT_xfer_error) c
    ∧ (leAt b 0x1C 2 / 2 ^ 15 % 2 = 0 → t.signals = s.signals ∧ regsKept s t [.CLINK_PORT_CNT])
    ∧ (leAt b 0x1C 2 / 2 ^ 15 % 2 = 1 →
      s.permitted (leAt b 0x1C 2 % 2 ^ 15) (s.xqOwner (c * 16 + q)) = true →
      (outcome = 0 → regsKept s t [.CLINK_PORT_CNT] ∧ t.signals = s.signals
        ++ [⟨leAt b 0x1C 2 % 2 ^ 15, false, leAt b 0x20 4, 200000 + (c * 16 + q), s.xqOwner (c * 16 + q)⟩])
      ∧ (outcome ≠ 0 → t.signals = s.signals ∧ t.fld F.SYNC_OBJ_broken (leAt b 0x1C 2 % 2 ^ 15) = 1
        ∧ regsKept s t [.CLINK_PORT_CNT, .SYNC_OBJ]))
    ∧ t = { s with mem := t.mem, poison := t.poison, regs := t.regs, signals := t.signals, clink := t.clink }

/-- A command waits at a cell for an instant (R271). -/
def cellWaits (t : State) (cell op at' : Nat) (config : Bytes) : Prop :=
  (t.cell cell).waiting = some { op := op, at' := at', config := config }

/-! ### Health, start-up and reset -/

/-- The device has been reset: everything but the fuses is at its reset value, and the memories are zero without
poison (R432). -/
def resetTo (s t : State) : Prop :=
  (∀ r i, r ≠ .ONYX_SVN → r ≠ .ONYX_KEY_SLOT → t.reg r i = r.resetVal i)
    ∧ t.fld F.ONYX_SVN_counter 0 = s.fld F.ONYX_SVN_counter 0
    ∧ (s.boot.enrol = none → ∀ k, k < 4 → t.reg .ONYX_KEY_SLOT k = s.reg .ONYX_KEY_SLOT k)
    ∧ (∀ a, t.byte a = 0 ∧ t.poisoned a = false) ∧ (∀ p, t.core p = Core.init) ∧ t.signals = [] ∧ t.slices = []
    ∧ t.lamp = [] ∧ t.seqs = [] ∧ t.jasper = [] ∧ t.cells = [] ∧ t.cut = State.reset.cut ∧ t.time = State.reset.time
    ∧ t.health = State.reset.health ∧ t.fh = State.reset.fh ∧ t.clink = State.reset.clink
    ∧ t.host.mem = s.host.mem ∧ t.pending = s.pending

/-- A unit has retired hard (R388): its state, the mark of hard evidence and the health event show it. -/
def retiredHard (t : State) (u : Nat) : Prop :=
  t.fld F.HLTH_UNIT_state u = 3 ∧ t.fld F.HLTH_UNIT_hard u = 1 ∧ t.fld F.HLTH_EVENT_retired 0 = 1

/-- A unit's event counter has gone up and its score down (R387). -/
def scored (s t : State) (f : Fld) (u n : Nat) : Prop :=
  countedUp s t f u ∧ t.fld F.HLTH_UNIT_score u = s.fld F.HLTH_UNIT_score u - n

/-- boot_state becomes `v` (R442). -/
def booted (s t : State) (v : Nat) : Prop :=
  t.fld F.DEV_STATUS_boot_state 0 = v ∧ t.mem = s.mem ∧ t.poison = s.poison ∧ t.cores = s.cores ∧ t.time = s.time

/-- The cut registers show a rejection or a drop (R68). -/
def cutRejected (t : State) (code sec idx : Nat) : Prop :=
  t.fld F.CUT_STATUS_last_result 0 = code ∧ t.fld F.CUT_STATUS_last_section 0 = sec
    ∧ t.fld F.CUT_STATUS_last_entry 0 = idx ∧ t.fld F.CUT_EVENT_rejected 0 = 1

/-- The active cut, its generation and its chain digest are in `t` as in `s` (R68). -/
def cutKept (s t : State) : Prop :=
  t.cut.active = s.cut.active ∧ t.fld F.CUT_GEN_generation 0 = s.fld F.CUT_GEN_generation 0
    ∧ t.fld F.CUT_CHAIN_DIGEST_digest 0 = s.fld F.CUT_CHAIN_DIGEST_digest 0

/-- The state in which the boundary of tick `n` looks at the staged image, where no spare is installed at it: the tick
is numbered, the ticks that an adjustment skipped are counted, and what waited to land has been tried again (R38). -/
def State.atBoundary (s : State) (n : Nat) : State :=
  let s := if s.time.skip.isSome then s.count F.TIME_STATUS_ticks_skipped 0 (n - s.nextTick) else s
  { s.setFld F.TIME_TICK_NUMBER_tick_number 0 n with
    time := { s.time with lastTick := some n, skip := none } }.serveLandings

/-- A safe run: every step of the next `n` answers a next state. -/
def State.safeFor (s : State) : Nat → Prop
  | 0 => True
  | n + 1 => ∃ t, step s = .next t ∧ t.safeFor n

end Sys2Proof.Machine
end

