-- ==== Sys2Proof/Certificates/Slice0/Obligations.lean ====
section
/-!
DEFINITION. The statements about the model that the provers are asked to prove, family by family.
-/
open Sys2Proof Sys2Proof.Machine

/-! ### The machine as a whole -/

/-- A step takes the command at the front of the queue and runs it with the queue's rest; with no command
waiting one time-clock cycle passes (the model's choice, log entry 1). -/
def Obligations.StepRunsTheFrontCommand : Prop :=
  (∀ (c : Instr) (rest : List Instr) (s : State),
    step { s with pending := c :: rest } = exec c { s with pending := rest })
  ∧ ∀ s : State, step { s with pending := [] } = .next { s with pending := [] }.cycle

/-- Every step keeps the canonical form of the memories, their tags and the register file. -/
def Obligations.StepKeepsCanonicalForm : Prop :=
  ∀ s t : State, s.canonical → step s = .next t → t.canonical

/-- Every command completes: for every state and all operands, in every form, running it answers a next state, and
never a fault or a refusal, which the rules give to no command; and it leaves the queue of the commands behind it,
which is the sender's, as it is.  That says, by families: registers: registerWrite, rcRead, badAccess, lowHalfRead,
lowHalfWrite, highHalfWrite; the tick and the lease: tickBoundary, garMaxInstrTimeWrite, radioWindowStart,
engineYield, yieldOverrun, radioWindowEnd, handBack; cut images: cutLoad, cutCancel, cutCheckEnd; lists and queues:
descriptorSubmit, submissionWindowBadWrite, commandFetch, signalArrive, waitTimeout, commandComplete,
creditMirrorWrite, slcMsgWrite, syncObjWrite, syncCtlWrite, nop, signal, wait, yieldPoint, barrier, digestMark,
timestamp, interrupt, hostWrite; Garnet: gmm, gdrain, gpreload, gdcfg, gmode, gmmLastWavefront, drainStart, drainEnd,
preloadEnd, garnetFault; Opal: ocopy, ogather, oscatter, oscatterAdd, ofill, oparityEnc, oparityRebuild, odigest,
opalTransactionDone, orderedAddArrive, orderedAddRetry, orderedAddTimeout; vaults and scratchpads: vaultLineRead,
vaultLineWrite, vaultScrub, rowCopyEnd, bankCopyEnd, spmScrub, granuleClaimDeferred, remoteSpmRequest, granuleZeroEnd,
clmGranuleZeroEnd, coreVaultPageWrite, pageZeroEnd, ctxEvict, evictEnd, restoreEnd; Lamplighter: stepTrigger,
seqStart, seqExtend, seqCancel, seqParams, seqWindowBadWrite, ackRecordWrite, stepBind, stepBuild, stepComplete,
outputCoalesceTimeout, fixedBatchStart, allBlocked, contextIdleRelease, lampCtxCfgWrite; Beryl: bload, bstore, brun,
bsets, bpclr, btrim, bundle; the radio pipeline: cellStart, cellStop, cellReconfig, cellFrameAction, cluLantCtlWrite,
lanternFault, planRead, prachOccasion, noisePeriodEnd, uplinkResult; Jasper: jobRingProdWrite, ldpcDecode, ldpcEncode,
polarDecode, polarEncode, turboDecode, turboEncode, tbccDecode, tbccEncode, codeBlockEnd, jasperFault; fronthaul:
frameReceive, fifoDropRest, pop, hubPacketMove, egressPacketRead, frameSelect, shaperRefill, fhShaperWrite,
gateCommit, gateCancel, gateListStart, gateEntryAdvance, histogramSample, histogramClear, hostTxPost, serdesFail,
fhLinkDown, fhLinkUp; time: timeNowLowRead, timeNowHighRead, timeIncrementWrite, timeAdjAdd, timeAdjSubtract,
timeAdjSet, pllLockLoss, ppsOutPulse, ppsInEdge, pllRelock; slices: quiesce, resume, reset, freeze, save, restore,
logStart, logStop, logFlush, quiesceComplete, resetEnd, freezeComplete, sliceCommandEnd, pageRequestResponse,
atsInvalidation, creditLimitWrite, tdispLockInterface, tdispStartInterface, tdispStopInterface, ideIntegrityFailure,
pf0Flr, pf1Flr, busMasterEnable, heldRequestTimeout, translationCompletion; reproducibility: ndClear,
groupBarrierRelease; errors and health: healthPoll, softRetirement, vaultCopyEnd, vigilTest, vigilRequest,
vigilCancel, vigilStale, startupVigilPass, monitorSample; Citia Link: groupBarrierAdd, groupReleaseReceive,
heartbeatReceive, helloReceive, timeMessageReceive, flitCrcFail, clinkLinkDown, clinkLinkUp, xqProducerAdvance,
transferWrite, transferLand, transferAck, mirrorReceive, mirrorDump, handover, mirrorAck, handoverReceive,
handoverReplyReceive; host, boot and security: pllLock, hotReset, hostReadError, deviceReset, devReset, romInitDone,
bootGo, verifyEnd, svnCommit, enrol, enrolEnd, spdmMessage, measurements, ideKmKey, mctpMessage, jtagInstructionLoad,
msixUnmask, perstNDeassert, powerStateChange, pcieLinkUp; power and heat: powerSample, pwrbrkAssert, pwrbrkRelease,
powerLimitSet, railUndervoltage, vddAuxOn, railRestore, vddAuxOff, thermtripRelease. -/
def Obligations.CommandsLeaveTheQueue : Prop :=
  ∀ (c : Instr) (s : State), ∃ t, exec c s = .next t ∧ t.pending = s.pending

/-- What follows a change at queues and objects stays within its bounds: it evaluates waits, tears down failing
contexts, admits held descriptors and chooses contexts, and touches no other part of the machine; of the
synchronisation objects it sets broken alone, memory changes only in the save areas (R125, R261, R381), and the ordered
adds on their way stay, though those of a torn-down context belong to no command any more (R101). -/
def Obligations.SettlingKeepsTheRest : Prop :=
  ∀ s : State, ∃ t : State, t = s.settle
    ∧ t.time = s.time ∧ t.cut = s.cut ∧ t.pins = s.pins ∧ t.cells = s.cells ∧ t.jasper = s.jasper ∧ t.fh = s.fh
    ∧ t.power = s.power ∧ t.boot = s.boot ∧ t.health = s.health ∧ t.pending = s.pending
    ∧ t.lastRead = s.lastRead ∧ t.lastPoison = s.lastPoison ∧ t.freeCtr = s.freeCtr ∧ t.seqs = s.seqs
    ∧ (t.adds.map fun a => { a with slot := 0 }) = (s.adds.map fun a => { a with slot := 0 })
    ∧ (t.refused.map fun a => { a with slot := 0 }) = (s.refused.map fun a => { a with slot := 0 })
    ∧ t.corrected = s.corrected
    ∧ t.clink = { s.clink with waits := t.clink.waits }
    ∧ (∀ a, ¬ s.inSaveArea a → t.byte a = s.byte a ∧ t.poisoned a = s.poisoned a)
    ∧ (∀ n, t.fld F.SYNC_OBJ_value n = s.fld F.SYNC_OBJ_value n ∧ t.fld F.SYNC_OBJ_ops n = s.fld F.SYNC_OBJ_ops n
        ∧ t.fld F.SYNC_OBJ_owner n = s.fld F.SYNC_OBJ_owner n
        ∧ (s.fld F.SYNC_OBJ_broken n = 1 → t.fld F.SYNC_OBJ_broken n = 1))
    ∧ regsKept s t [.SYNC_OBJ, .CORE_CTX_CMD, .CORE_SPM_OWNER, .CLU_CLM_GRANULE, .CORE_SCHED, .CORE_LEASE_STATUS,
        .CORE_DIGEST_PTR, .CORE_ND_COUNT, .OPAL_EVENTS, .CORE_VAULT_ECC, .PORTAL_ERR_PTR, .PORTAL_STATUS, .PORTAL_CREDITS, .SLC_MSG, .SLC_LOG_STATUS]

/-- The state after reset is in canonical form.
R432, R442: after device reset every register holds its reset value, and the values that the rules give: boot_state
ROM_INIT, not ready, no cut applied, a tick period of 125 us (R56), every score at 255 (R387); the memories are zero
without poison, and no context, signal or command waits.
Choices of the model in it: log entries 3 to 5, 7. -/
def Obligations.ResetLeaves : Prop :=
  (State.reset.canonical)
  ∧ ((∀ r i, State.reset.reg r i = r.resetVal i)
    ∧ State.reset.fld F.DEV_STATUS_boot_state 0 = 0 ∧ State.reset.fld F.DEV_STATUS_ready 0 = 0
    ∧ State.reset.fld F.DEV_STATUS_stepping 0 = 1 ∧ State.reset.fld F.CUT_STATUS_state 0 = 0
    ∧ State.reset.fld F.CUT_STATUS_active_valid 0 = 0 ∧ State.reset.fld F.CUT_GEN_generation 0 = 0
    ∧ tickPeriod (State.reset.fld F.TIME_TICK_STATUS_period_code 0) = 125000
    ∧ (∀ u, u < 840 → State.reset.fld F.HLTH_UNIT_score u = 255)
    ∧ (∀ k j, k < 32 → j < 8 → State.reset.slotMap k j = j)
    ∧ (∀ n, n < 256 → State.reset.physOf n = some (9 * (n / 8) + n % 8))
    ∧ State.reset.time.running = false ∧ State.reset.total = 0
    ∧ (∀ a, State.reset.byte a = 0 ∧ State.reset.poisoned a = false)
    ∧ (∀ p sl, State.reset.ctx p sl = none) ∧ State.reset.signals = [] ∧ State.reset.pending = [])

/-! ### Register space (chapters 0 and 20) -/

/-- R5: a whole write of a register that only stores changes a bit of the word written if its field is RW, to
the bit written, or W1C and written 1, to 0; no other bit, register or part of the state changes. -/
def Obligations.PlainWriteActsByAccessType : Prop :=
  ∀ (s : State) (req : Nat) (b : Bar) (off size v : Nat) (q : Place) (i byte : Nat),
    registerBar b = true → s.target b off = .reg q i byte → q.view = .own → q.reg ∉ commandRegs →
    (size = 8 ∧ off % 8 = 0 ∧ byte % 8 = 0 ∧ q.reg.width ≠ 32
      ∨ size = 4 ∧ off % 4 = 0 ∧ byte = 0 ∧ q.reg.width = 32) →
    ∃ t, exec (.registerWrite req b off size v) s = .next t ∧ t = { s with regs := t.regs }
      ∧ regKept s t q.reg i
      ∧ ∀ n, n < 512 → (t.reg q.reg i).getLsbD n =
          (let here := decide (8 * byte ≤ n) && decide (n < 8 * byte + 64)
           let bit := v.testBit (n - 8 * byte)
           if here && q.reg.bitIs .w1c n && bit then false
           else if here && q.reg.bitIs .rw n then bit
           else (s.reg q.reg i).getLsbD n)

/-- R5: a whole read of a register answers its value and changes nothing else.
R9: a read of the low half latches the high half, which the requester's next read of the high half returns,
whatever the register holds by then.
Choices of the model in it: log entry 15. -/
def Obligations.ReadsAnswerTheRegister : Prop :=
  (∀ (s : State) (req : Nat) (b : Bar) (off size : Nat) (q : Place) (i byte : Nat),
      registerBar b = true → s.target b off = .reg q i byte → q.reg ≠ .TIME_NOW → q.reg ≠ .TIME_PPS_IN →
      (size = 8 ∧ off % 8 = 0 ∧ byte % 8 = 0 ∧ q.reg.width ≠ 32
        ∨ size = 4 ∧ off % 4 = 0 ∧ byte = 0 ∧ q.reg.width = 32) →
      exec (.rcRead req b off size) s
        = .next { s with lastRead := s.viewAt q i / 2 ^ (8 * byte) % 2 ^ (8 * size), lastPoison := false })
  ∧ ((∀ (s : State) (req : Nat) (b : Bar) (off : Nat) (q : Place) (i byte : Nat), registerBar b = true →
      s.target b off = .reg q i byte → off % 8 = 0 → byte % 8 = 0 → q.reg.width ≠ 32 → q.reg ≠ .TIME_NOW →
      q.reg ≠ .TIME_PPS_IN →
      ∃ t, exec (.lowHalfRead req b off) s = .next t
        ∧ t.lastRead = s.viewAt q i / 2 ^ (8 * byte) % 2 ^ 32
        ∧ t.latchOf req b (off + 4) = some ⟨req, b, off + 4, s.viewAt q i / 2 ^ (8 * byte + 32) % 2 ^ 32⟩
        ∧ t.regs = s.regs ∧ memKept s t)
    ∧ ∀ (s : State) (req : Nat) (b : Bar) (off : Nat) (q : Place) (i byte : Nat) (h : HalfWord),
      registerBar b = true → s.target b off = .reg q i byte → off % 8 = 4 → byte % 8 = 4 → q.reg.width ≠ 32 →
      s.latchOf req b off = some h →
      ∃ t, exec (.rcRead req b off 4) s = .next t ∧ t.lastRead = h.value ∧ t.latchOf req b off = none
        ∧ t.regs = s.regs ∧ memKept s t)

/-- R7, R8, R458: an access to a reserved address, one of another size or alignment, and a write to a mirror that
PF1 may not write complete with zero read and nothing written, and are counted.
Choices of the model in it: log entries 17 to 19. -/
def Obligations.BadAccessesAreCounted : Prop :=
  (∀ (s : State) (req : Nat) (b : Bar) (off size v : Nat), registerBar b = true → s.target b off = .reserved →
    aligned off size = true → (size = 8 → s.target b (off + 4) = .reserved) →
    (∃ t, exec (.registerWrite req b off size v) s = .next t ∧ onlyRegs s t ∧ counted s t b off)
    ∧ ∃ t, exec (.rcRead req b off size) s = .next t ∧ counted s t b off
        ∧ t = { s with regs := t.regs, lastRead := 0, lastPoison := false })
  ∧ (∀ (s : State) (req : Nat) (b : Bar) (off size v : Nat) (q : Place) (i byte : Nat), registerBar b = true →
    s.target b off = .reg q i byte → aligned off size = false →
    (∃ t, exec (.registerWrite req b off size v) s = .next t ∧ onlyRegs s t ∧ counted s t b off)
    ∧ ∃ t, exec (.rcRead req b off size) s = .next t ∧ counted s t b off
        ∧ t = { s with regs := t.regs, lastRead := 0, lastPoison := false })
  ∧ (∀ (s : State) (req : Nat) (b : Bar) (off size : Nat) (write : Bool), s.isBad b off size = true →
    ∃ t, exec (.badAccess req b off size write) s = .next t ∧ counted s t b off
      ∧ t = { s with regs := t.regs, lastRead := if write then s.lastRead else 0,
                     lastPoison := if write then s.lastPoison else false })
  ∧ ∀ (s : State) (req : Nat) (b : Bar) (off size v : Nat) (q : Place) (i byte : Nat), registerBar b = true →
    s.target b off = .reg q i byte → q.view = .mirror ∨ q.view = .leaseMirror → aligned off size = true →
    (size = 8 → q.reg.width ≠ 32) →
    ∃ t, exec (.registerWrite req b off size v) s = .next t ∧ onlyRegs s t ∧ counted s t b off

/-- R9: a write of the low half is held, and with the write of the high half that follows it acts as one write of
the whole word; a write of the high half alone keeps the low half, and where no bit of the high half can be written
it changes nothing.
Choices of the model in it: log entry 13. -/
def Obligations.WriteHalvesActTogether : Prop :=
  ∀ (s : State) (req : Nat) (b : Bar) (off lo hi : Nat) (q : Place) (i byte : Nat), registerBar b = true →
    s.target b off = .reg q i byte → s.target b (off + 4) = .reg q i (byte + 4) → off % 8 = 0 → byte % 8 = 0 →
    q.reg.width ≠ 32 → q.reg ≠ .SYNC_OBJ → q.readOnly = false → s.heldLow req b off = none →
    lo < 2 ^ 32 → hi < 2 ^ 32 →
    (∃ t u, exec (.lowHalfWrite req b off lo) s = .next t
      ∧ t = { s with host := { s.host with lowHeld := s.host.lowHeld ++ [⟨req, b, off, lo⟩] } }
      ∧ exec (.registerWrite req b off 8 (lo + hi * 2 ^ 32)) s = .next u
      ∧ exec (.highHalfWrite req b (off + 4) hi) t = .next u)
    ∧ (q.reg.highWritable (byte / 8) = true →
      ∃ u : State, exec (.registerWrite req b off 8 (s.lowKept q i (byte / 8) + hi * 2 ^ 32)) s = .next u
        ∧ exec (.highHalfWrite req b (off + 4) hi) s = .next u)
    ∧ (q.reg.highWritable (byte / 8) = false → exec (.highHalfWrite req b (off + 4) hi) s = .next s)

/-! ### Time, ticks and leases (chapters 2 and 14) -/

/-- R333: a read of the low word of TIME_NOW or TIME_PPS_IN takes a snapshot for its requester, which that
requester's next read of the high word returns and uses up; without one the current seconds are returned. -/
def Obligations.TimeSnapshots : Prop :=
  (∀ (s : State) (req : Nat), ∃ t, exec (.timeNowLowRead req false) s = .next t
    ∧ t.lastRead = s.time.frac % 2 ^ 32 + s.time.ns * 2 ^ 32
    ∧ look none t.time.nowSnap req = some s.time.sec
    ∧ (∀ r, r ≠ req → look none t.time.nowSnap r = look none s.time.nowSnap r)
    ∧ t = { s with time := { s.time with nowSnap := t.time.nowSnap }, lastRead := t.lastRead, lastPoison := false })
  ∧ (∀ (s : State) (req : Nat), ∃ t, exec (.timeNowHighRead req false) s = .next t
    ∧ t.lastRead = (look none s.time.nowSnap req).getD s.time.sec
    ∧ look none t.time.nowSnap req = none
    ∧ (∀ r, r ≠ req → look none t.time.nowSnap r = look none s.time.nowSnap r)
    ∧ t = { s with time := { s.time with nowSnap := t.time.nowSnap }, lastRead := t.lastRead, lastPoison := false })
  ∧ (∀ (s : State) (req : Nat), ∃ t, exec (.timeNowLowRead req true) s = .next t
    ∧ t.lastRead = s.fld F.TIME_PPS_IN_ns 0 + s.fld F.TIME_PPS_IN_edges 0 * 2 ^ 32
    ∧ look none t.time.ppsSnap req = some (s.fld F.TIME_PPS_IN_seconds 0)
    ∧ (∀ r, r ≠ req → look none t.time.ppsSnap r = look none s.time.ppsSnap r)
    ∧ t = { s with time := { s.time with ppsSnap := t.time.ppsSnap }, lastRead := t.lastRead, lastPoison := false })
  ∧ ∀ (s : State) (req : Nat), ∃ t, exec (.timeNowHighRead req true) s = .next t
    ∧ t.lastRead = (look none s.time.ppsSnap req).getD (s.fld F.TIME_PPS_IN_seconds 0)
    ∧ look none t.time.ppsSnap req = none
    ∧ (∀ r, r ≠ req → look none t.time.ppsSnap r = look none s.time.ppsSnap r)
    ∧ t = { s with time := { s.time with ppsSnap := t.time.ppsSnap }, lastRead := t.lastRead, lastPoison := false }

/-- R334: a write to incr is clamped to 1.0 ns within 1,000 ppm, sets inc_clamped when it was outside, and is the
increment that the next cycle adds.
R335: an adjustment first counts its cycle, then adds or subtracts the value or replaces the time by it, the
fraction becoming zero; a refused one sets adj_refused and changes nothing else.
R36, R332: the time-clock PLL locks and device time starts; its loss of lock is reported and the clock runs
on, and it leaves holdover when it locks again.
R343, R344: PPS_OUT rises in the first cycle of a second for width_us of device time and falls in the cycle
that reaches its end; a second that an adjustment passes has no pulse, one at whose start it lands has; an edge of
PPS_IN captures the time to within 2 ns.
R346: RCLK_OUT carries the clock of the interface that rclk_if names, and is held low while that is absent or down.
Choices of the model in it: log entries 94 to 96, 182. -/
def Obligations.TimeIsKept : Prop :=
  (∀ (s : State) (value : Nat), ∃ t, exec (.timeIncrementWrite value) s = .next t
      ∧ t.incr = max 0x00FFBE76C9 (min 0x0100418937 (value % 2 ^ 40))
      ∧ t.fld F.TIME_STATUS_inc_clamped 0
          = (if value % 2 ^ 40 < 0x00FFBE76C9 ∨ 0x0100418937 < value % 2 ^ 40 then 1
             else s.fld F.TIME_STATUS_inc_clamped 0)
      ∧ fldKept s t F.TIME_STATUS_inc_clamped 0
      ∧ t = { s with regs := t.regs, time := { s.time with pendIncr := t.time.pendIncr } }
      ∧ (s.time.running = true → t.cycle.time.fixed = s.time.fixed + t.incr ∧ t.cycle.fld F.TIME_INCREMENT_incr 0 = t.incr))
  ∧ (∀ (s : State) (c : Instr) (op : Nat),
      (c, op) ∈ [(Instr.timeAdjAdd, 0), (.timeAdjSubtract, 1), (.timeAdjSet, 2)] →
      let was := s.cycle.total
      let v := s.fld F.TIME_ADJ_VALUE_seconds 0 * 1000000000 + s.fld F.TIME_ADJ_VALUE_ns 0
      let new := if op = 0 then was + v else if op = 1 then was - v else v
      let refused := 1000000000 ≤ s.fld F.TIME_ADJ_VALUE_ns 0 ∨ (op = 1 ∧ was < v) ∨ 8796093022208000000 ≤ new ∧ op ≠ 1
      (refused → ∃ t, exec c s = .next t ∧ onlyRegs s t ∧ t.fld F.TIME_STATUS_adj_refused 0 = 1
        ∧ fldKept s t F.TIME_STATUS_adj_refused 0)
      ∧ (¬ refused → s.time.running = true → ∃ t, exec c s = .next t
        ∧ t.total = new ∧ t.time.frac = 0 ∧ t.time.ns < 1000000000
        ∧ t.time.second = decide (new % 1000000000 = 0)
        ∧ t.time.ppsOut = (s.cycle.time.ppsOut && decide (new < s.time.ppsFall))))
  ∧ ((∀ s : State, s.pins.perst = true → s.time.running = false → s.power.tripped = false → s.power.down = [] →
      ∃ t, exec .pllLock s = .next t ∧ t.fld F.TIME_STATUS_ref_lock 0 = 1 ∧ fldKept s t F.TIME_STATUS_ref_lock 0
        ∧ t = { s with regs := t.regs, time := { s.time with running := true, lastTick := none } }
        ∧ t.tickDue = some 0)
    ∧ (∀ s : State, s.time.running = true → s.fld F.TIME_STATUS_ref_lock 0 = 1 →
      ∃ t, exec .pllLockLoss s = .next t ∧ t.fld F.TIME_STATUS_ref_lock 0 = 0 ∧ fldKept s t F.TIME_STATUS_ref_lock 0
        ∧ t = { s with regs := t.regs, host := t.host }
        ∧ t.host = ((s.setFld F.TIME_STATUS_ref_lock 0 0).message 0 4).host)
    ∧ ∀ s : State, s.time.running = true → s.fld F.TIME_STATUS_ref_lock 0 = 0 →
      ∃ t, exec .pllRelock s = .next t ∧ onlyRegs s t ∧ t.fld F.TIME_STATUS_ref_lock 0 = 1
        ∧ fldKept s t F.TIME_STATUS_ref_lock 0)
  ∧ ((∀ s : State, s.time.running = true → s.fld F.TIME_PPS_CTL_out_en 0 = 1 → s.time.second = true →
      s.time.ppsOut = false → ∃ t, exec .ppsOutPulse s = .next t ∧ t.time.ppsOut = true
        ∧ t.time.ppsFall = s.time.sec * 1000000000 + s.fld F.TIME_PPS_CTL_width_us 0 * 1000
        ∧ t = { s with time := { s.time with ppsOut := true, second := false, ppsFall := t.time.ppsFall } })
    ∧ (∀ s : State, s.time.second = false ∨ s.fld F.TIME_PPS_CTL_out_en 0 = 0 → exec .ppsOutPulse s = .next s)
    ∧ (∀ s : State, s.time.running = true → s.cycle.time.ppsOut
          = (s.time.ppsOut && decide (s.cycle.total < s.time.ppsFall))
        ∧ s.cycle.time.second = decide (s.cycle.time.sec ≠ s.time.sec))
    ∧ (∀ s : State, s.fld F.TIME_PPS_CTL_in_en 0 = 1 → ∃ t e, exec .ppsInEdge s = .next t ∧ e ≤ 4
        ∧ t.fld F.TIME_PPS_IN_ns 0 = (s.total + e - 2) % 1000000000
        ∧ t.fld F.TIME_PPS_IN_seconds 0 = (s.total + e - 2) / 1000000000 % 2 ^ 48
        ∧ t.fld F.TIME_PPS_IN_edges 0 = (s.fld F.TIME_PPS_IN_edges 0 + 1) % 2 ^ 32
        ∧ regKept s t .TIME_PPS_IN 0 ∧ t = { s with regs := t.regs, freeCtr := t.freeCtr })
    ∧ ∀ s : State, s.fld F.TIME_PPS_CTL_in_en 0 = 0 → exec .ppsInEdge s = .next s)
  ∧ ∀ s : State, s.rclkOut = if s.fld F.TIME_SYNCE_CTL_rclk_en 0 = 1
      ∧ s.fld F.FH_IF_STATUS_link_up (s.fld F.TIME_SYNCE_CTL_rclk_if 0) = 1
    then some (s.fld F.TIME_SYNCE_CTL_rclk_if 0) else none

/-- R36, R37, R38: the boundary that is due is delivered, in order, none twice.
R338: boundaries that an adjustment passed are delivered as one, the last, from the cycle after it, and the others are
counted in ticks_skipped.
R47: a write of limit_cycles waits for the boundary; a write of 0 is ignored.
Choices of the model in it: log entry 97. -/
def Obligations.TickBoundaries : Prop :=
  ((∀ (s : State) (n : Nat), s.tickDue = some n → n < 2 ^ 48 →
      ∃ t, exec .tickBoundary s = .next t ∧ t.tickNo = n ∧ t.time.lastTick = some n
        ∧ t.total = s.total ∧ t.time.clk = s.time.clk ∧ t.time.skip = none
        ∧ t.fld F.TIME_STATUS_ticks_skipped 0
          = (if s.time.skip.isSome then min (s.fld F.TIME_STATUS_ticks_skipped 0 + (n - s.nextTick)) (2 ^ 32 - 1)
             else s.fld F.TIME_STATUS_ticks_skipped 0))
    ∧ (∀ (s : State) (k : Nat), s.time.running = true → s.time.skip = some k →
      s.tickDue = if k < s.time.clk then some (s.tickAt s.total) else none)
    ∧ (∀ (s : State) (n : Nat), s.time.running = true → s.time.skip = none → s.time.lastTick = some n →
      (s.tickDue = some (n + 1) ∧ n < s.tickAt s.total) ∨ (s.tickDue = none ∧ s.tickAt s.total ≤ n))
    ∧ ∀ s : State, s.tickDue = none → exec .tickBoundary s = .next s)
  ∧ (∀ (s : State) (p value : Nat),
      (value % 2 ^ 16 = 0 → exec (.garMaxInstrTimeWrite p value) s = .next s)
      ∧ (value % 2 ^ 16 ≠ 0 → ∃ t, exec (.garMaxInstrTimeWrite p value) s = .next t
        ∧ (t.core p).pendLimit = some (value % 2 ^ 16) ∧ t.regs = s.regs
        ∧ (t.core p) = { s.core p with pendLimit := some (value % 2 ^ 16) } ∧ (∀ q, q ≠ p → t.core q = s.core q)
        ∧ t = { s with cores := t.cores }
        ∧ (t.applyLimit p).fld F.GAR_MAX_INSTR_TIME_limit_cycles p = value % 2 ^ 16))

/-- R41, R45: with a radio context in slot 0 a window that is due begins, and unless a lease runs on a radio
lease begins and every engine is asked to yield.
R42, R44: a window that ends closes its lease; radio work still pending is counted as a spill and told to the
radio stack by vector 5 of PF1.
R46: an engine with no rental work in progress yields by cycle 1,740, and with the last of the four the lease
is radio; an engine that still has some, or that has yielded, does not.
Choices of the model in it: log entries 41 to 43. -/
def Obligations.RadioWindows : Prop :=
  (∀ (s : State) (p : Nat), s.time.running = true → s.windowDue p = true →
      ∃ u : State, exec (.radioWindowStart p) s = .next u.settle
        ∧ (u.core p).windowOpen = true ∧ (u.core p).lastWindow = some s.tickNo
        ∧ (if s.fld F.CORE_LEASE_STATUS_phase p = 0
           then u.fld F.CORE_LEASE_STATUS_phase p = 1 ∧ (u.core p).yielded = 0
           else u.regs = s.regs ∧ (u.core p).yielded = (s.core p).yielded)
        ∧ regKept s u .CORE_LEASE_STATUS p ∧ (∀ q, q ≠ p → u.core q = s.core q)
        ∧ (∀ q sl, u.ctx q sl = s.ctx q sl)
        ∧ u = { s with regs := u.regs, cores := u.cores })
  ∧ (∀ (s : State) (p : Nat), (s.core p).windowOpen = true → s.windowTo p < s.period →
      s.tickInstant s.tickNo + s.windowTo p ≤ s.total →
      ∃ u : State, exec (.radioWindowEnd p) s = .next u.settle
        ∧ (u.core p).windowOpen = false
        ∧ u.fld F.CORE_LEASE_STATUS_phase p = 0
        ∧ (s.fld F.CORE_LEASE_STATUS_phase p ≠ 0 → (u.core p).yielded = 0)
        ∧ (if s.fld F.CORE_LEASE_STATUS_phase p ≠ 0 ∧ s.radioPending p = true
           then u.fld F.CORE_RADIO_SPILL_count p = min (s.fld F.CORE_RADIO_SPILL_count p + 1) (2 ^ 32 - 1)
            ∧ u.host = ((s.count F.CORE_RADIO_SPILL_count p 1).message 1 5).host
           else u.fld F.CORE_RADIO_SPILL_count p = s.fld F.CORE_RADIO_SPILL_count p ∧ u.host = s.host)
        ∧ (∀ r i, r ≠ .CORE_LEASE_STATUS → r ≠ .CORE_RADIO_SPILL → u.reg r i = s.reg r i)
        ∧ (∀ q, q ≠ p → u.core q = s.core q ∧ u.reg .CORE_LEASE_STATUS q = s.reg .CORE_LEASE_STATUS q)
        ∧ (∀ q sl, u.ctx q sl = s.ctx q sl)
        ∧ u = { s with regs := u.regs, cores := u.cores, host := u.host })
  ∧ (∀ (s : State) (p e cycle : Nat),
      (s.fld F.CORE_LEASE_STATUS_phase p = 1 → e < 4 → bitOf (s.core p).yielded e = false → cycle ≤ 1740 →
        s.canYield p e = true →
        ∃ u : State, exec (.engineYield p e cycle) s = .next u.settle
          ∧ (u.core p).yielded = (s.core p).yielded ||| 2 ^ e
          ∧ (if (u.core p).yielded = 15
             then u.fld F.CORE_LEASE_STATUS_phase p = 2 ∧ u.fld F.CORE_LEASE_STATUS_last_yield_cycles p = cycle
             else u.regs = s.regs)
          ∧ regKept s u .CORE_LEASE_STATUS p ∧ (∀ q, q ≠ p → u.core q = s.core q)
          ∧ (∀ q sl, u.ctx q sl = s.ctx q sl) ∧ u = { s with regs := u.regs, cores := u.cores })
      ∧ ((s.canYield p e = false ∨ bitOf (s.core p).yielded e = true ∨ 1740 < cycle) →
        exec (.engineYield p e cycle) s = .next s))

/-! ### Synchronisation, descriptors and portals (chapter 4) -/

/-- R79: a wait is satisfied when the signed 32-bit difference of value and target is not negative, so that
counters may wrap.
R83, R103: operations reach an object one at a time, those of one queue in order; each sets the value or adds
to it modulo 2^32 and is counted.
R83, R85: a manager write that covers bits [31:0] is one operation; a write of bits [63:32] gives the owner
and clears broken without being one, and comes before the value when one write holds both; the word at offset 8
is read-only. -/
def Obligations.SignalsAndObjects : Prop :=
  (∀ value target : Nat, reached value target = true ↔ 0 ≤ (BitVec.ofNat 32 value - BitVec.ofNat 32 target).toInt)
  ∧ (∀ (s : State) (idx : Nat) (g : Signal), s.signals[idx]? = some g →
      ((∃ h ∈ s.signals.take idx, h.src = g.src ∧ h.obj = g.obj) → exec (.signalArrive idx) s = .next s)
      ∧ ((¬ ∃ h ∈ s.signals.take idx, h.src = g.src ∧ h.obj = g.obj) →
        ∃ u : State, exec (.signalArrive idx) s = .next u.settle
          ∧ u.fld F.SYNC_OBJ_value g.obj
              = (if g.set then g.value else s.fld F.SYNC_OBJ_value g.obj + g.value) % 2 ^ 32
          ∧ u.fld F.SYNC_OBJ_ops g.obj = (s.fld F.SYNC_OBJ_ops g.obj + 1) % 2 ^ 32
          ∧ u.fld F.SYNC_OBJ_owner g.obj = s.fld F.SYNC_OBJ_owner g.obj
          ∧ u.fld F.SYNC_OBJ_broken g.obj = s.fld F.SYNC_OBJ_broken g.obj
          ∧ regKept s u .SYNC_OBJ g.obj
          ∧ u = { s with regs := u.regs, signals := s.signals.eraseIdx idx }))
  ∧ (∀ (s : State) (n v : Nat), n < 32768 →
      (∃ u : State, exec (.syncObjWrite n .low32 v) s = .next u.settle ∧ onlyRegs s u
        ∧ u.fld F.SYNC_OBJ_value n = v % 2 ^ 32
        ∧ u.fld F.SYNC_OBJ_ops n = (s.fld F.SYNC_OBJ_ops n + 1) % 2 ^ 32
        ∧ u.fld F.SYNC_OBJ_owner n = s.fld F.SYNC_OBJ_owner n
        ∧ u.fld F.SYNC_OBJ_broken n = s.fld F.SYNC_OBJ_broken n ∧ regKept s u .SYNC_OBJ n)
      ∧ (s.tdiLocked (s.fld F.SYNC_OBJ_owner n) = false →
        ∃ u : State, exec (.syncObjWrite n .high32 v) s = .next u.settle ∧ onlyRegs s u
          ∧ u.fld F.SYNC_OBJ_owner n = v % 2 ^ 9
          ∧ u.fld F.SYNC_OBJ_broken n = (if v.testBit 9 then 0 else s.fld F.SYNC_OBJ_broken n)
          ∧ u.fld F.SYNC_OBJ_value n = s.fld F.SYNC_OBJ_value n
          ∧ u.fld F.SYNC_OBJ_ops n = s.fld F.SYNC_OBJ_ops n ∧ regKept s u .SYNC_OBJ n)
      ∧ (s.tdiLocked (s.fld F.SYNC_OBJ_owner n) = false →
        ∃ u w : State, exec (.syncObjWrite n .word64 v) s = .next w.settle ∧ onlyRegs s u
          ∧ u.fld F.SYNC_OBJ_owner n = v / 2 ^ 32 % 2 ^ 9
          ∧ u.fld F.SYNC_OBJ_broken n = (if v.testBit 41 then 0 else s.fld F.SYNC_OBJ_broken n)
          ∧ regKept s u .SYNC_OBJ n
          ∧ w.fld F.SYNC_OBJ_value n = v % 2 ^ 32
          ∧ w.fld F.SYNC_OBJ_ops n = (u.settle.fld F.SYNC_OBJ_ops n + 1) % 2 ^ 32
          ∧ w = { u.settle with regs := w.regs } ∧ regKept u.settle w .SYNC_OBJ n)
      ∧ (s.tdiLocked (s.fld F.SYNC_OBJ_owner n) = true →
        ∃ t, exec (.syncObjWrite n .high32 v) s = .next t ∧ onlyRegs s t
          ∧ t.fld F.SYNC_OBJ_owner n = s.fld F.SYNC_OBJ_owner n
          ∧ t.fld F.SYNC_OBJ_value n = s.fld F.SYNC_OBJ_value n ∧ t.fld F.SYNC_OBJ_ops n = s.fld F.SYNC_OBJ_ops n)
      ∧ exec (.syncObjWrite n .word8 v) s = .next s)

/-- R84: a wait held longer than the limit fails with ERR_TIMEOUT, without executing or signalling, and breaks the
objects that its command would have signalled; until then it is held.
R84: a write of the wait limit takes effect, and pending waits are measured against it. -/
def Obligations.WaitsTimeOut : Prop :=
  (∀ (s : State) (p slot e : Nat) (x : Ctx) (c : QCmd) (obj since : Nat), s.ctx p slot = some x →
      x.waiting e = some (c, obj, since) →
      (s.overdue since = true → ∃ u : State, exec (.waitTimeout p slot e) s = .next u.settle
        ∧ u.ctx p slot = some { x with queue := x.queue.map fun d => if d.seq = c.seq then
            { d with phase := .worked, err := eTimeout, detail := obj, noSignal := true } else d }
        ∧ (∀ n ∈ c.signals, s.permitted n x.owner = true → u.fld F.SYNC_OBJ_broken n = 1)
        ∧ (∀ f i, f.reg ≠ .SYNC_OBJ ∨ F.SYNC_OBJ_broken.apart f = true → u.fld f i = s.fld f i)
        ∧ (∀ q sl, q ≠ p ∨ sl ≠ slot → u.ctx q sl = s.ctx q sl)
        ∧ u = { s with regs := u.regs, cores := u.cores, clink := { s.clink with
            waits := s.clink.waits.filter fun w => !(w.core = p ∧ w.slot = slot ∧ w.seq = c.seq) } })
      ∧ (s.overdue since = false → exec (.waitTimeout p slot e) s = .next s.settle)
      ∧ (s.overdue since = true ↔ s.fld F.SYNC_CTL_wait_limit_ms 0 ≠ 0
          ∧ since + s.fld F.SYNC_CTL_wait_limit_ms 0 * 1000000 < s.time.clk))
  ∧ (∀ (s : State) (value : Nat), ∃ t, exec (.syncCtlWrite value) s = .next t
      ∧ t.fld F.SYNC_CTL_wait_limit_ms 0 = value % 2 ^ 16)

/-- R96: a submission that arrives without a credit and any other write to the submission window are discarded and
counted, with no error record and no teardown; reads of the window return zero. -/
def Obligations.SubmissionsTurnedAway : Prop :=
  (∀ (s : State) (portal slot : Nat) (desc : Bytes) (via : Option Nat), portal ≤ 256 →
    (portal = 256 → s.pf1Ready = true) → (portal ≠ 256 → s.fld F.SLC_STATE_state portal ≠ 0) →
    (s.viaOk portal via = true → slot < 64 → desc.length = 64 → s.available portal = 0 →
      ∃ t, exec (.descriptorSubmit portal slot desc via) s = .next t ∧ onlyRegs s t
        ∧ countedUp s t F.PORTAL_STATUS_dropped_no_credit portal
        ∧ fldKept s t F.PORTAL_STATUS_dropped_no_credit portal)
    ∧ (slot ≥ 64 ∨ desc.length ≠ 64 → ∃ t, exec (.descriptorSubmit portal slot desc via) s = .next t
      ∧ onlyRegs s t ∧ countedUp s t F.PORTAL_STATUS_bad_write portal ∧ fldKept s t F.PORTAL_STATUS_bad_write portal)
    ∧ ∃ t, exec (.submissionWindowBadWrite portal) s = .next t ∧ onlyRegs s t
      ∧ countedUp s t F.PORTAL_STATUS_bad_write portal ∧ fldKept s t F.PORTAL_STATUS_bad_write portal)
  ∧ ∀ (s : State) (req : Nat) (b : Bar) (off size portal byte : Nat), registerBar b = true →
    s.target b off = .submission portal byte →
    exec (.rcRead req b off size) s = .next { s with lastRead := 0, lastPoison := false }

/-- R75, R76, R92, R95: a submission that passes every check is accepted and its list appended to its context, to a new
one in the lowest free slot, or held: where no slot is free, behind a descriptor held before it, and while its core
awaits a spare (R22).
R92: a descriptor that fails a check is accepted and discarded: its credit is returned and its list starts
nothing.
Choices of the model in it: log entries 27 and 28. -/
def Obligations.DescriptorsArrive : Prop :=
  (∀ (s : State) (portal slot : Nat) (desc : Bytes) (via : Option Nat) (d : Desc) (p : Nat), portal ≤ 256 →
      (portal = 256 → s.pf1Ready = true) → (portal ≠ 256 → s.fld F.SLC_STATE_state portal ≠ 0) →
      s.viaOk portal via = true → slot < 64 → desc.length = 64 → d = Desc.ofBytes desc →
      (s.available portal ≠ 0 → s.descCheck portal d = none → s.physOf d.core = some p → 0 < d.cmds →
        ∃ u : State, exec (.descriptorSubmit portal slot desc via) s = .next u.settle
          ∧ u.fld F.PORTAL_STATUS_accepted portal = (s.fld F.PORTAL_STATUS_accepted portal + 1) % 2 ^ 32
          ∧ u.mem = s.mem ∧ u.poison = s.poison
          ∧ (∀ sl x, s.coreDown p = false → s.behindHeld p portal = false → s.slotOf p portal = some sl →
              s.ctx p sl = some x → (∀ l ∈ x.lists.head?, l.done < l.desc.cmds) →
              u.ctx p sl = some (x.addList portal d none)
              ∧ fldKept s u F.PORTAL_STATUS_accepted portal ∧ u = { s with regs := u.regs, cores := u.cores })
          ∧ (∀ sl, s.coreDown p = false → s.behindHeld p portal = false → s.slotOf p portal = none →
              s.freeSlot p portal = some sl →
              u.ctx p sl = some ((Ctx.init portal s.time.clk s.total).addList portal d none)
              ∧ u.reg .CORE_ND_COUNT (p * 4 + sl) = setBits (s.reg .CORE_ND_COUNT (p * 4 + sl))
                  F.CORE_ND_COUNT_count.lo F.CORE_ND_COUNT_count.width 0)
          ∧ (s.coreDown p = true ∨ s.behindHeld p portal = true
                ∨ s.slotOf p portal = none ∧ s.freeSlot p portal = none →
              (u.core p).held = (s.core p).held ++ [⟨portal, d, none⟩]
              ∧ ∀ q sl, u.ctx q sl = s.ctx q sl)))
  ∧ (∀ (s : State) (portal slot : Nat) (desc : Bytes) (via : Option Nat) (code : Nat), portal ≤ 256 →
      (portal = 256 → s.pf1Ready = true) → (portal ≠ 256 → s.fld F.SLC_STATE_state portal ≠ 0) →
      s.viaOk portal via = true → slot < 64 → desc.length = 64 → s.available portal ≠ 0 →
      s.descCheck portal (Desc.ofBytes desc) = some code →
      ∃ u : State, exec (.descriptorSubmit portal slot desc via) s = .next u.settle
        ∧ u.fld F.PORTAL_STATUS_accepted portal = (s.fld F.PORTAL_STATUS_accepted portal + 1) % 2 ^ 32
        ∧ u.fld F.PORTAL_CREDITS_returned portal = (s.fld F.PORTAL_CREDITS_returned portal + 1) % 2 ^ 32
        ∧ u.cores = s.cores ∧ u.mem = s.mem ∧ u.poison = s.poison ∧ u.signals = s.signals)

/-- R76: the next command of a list is fetched into the queue of its engine, in list order.
R77, R80: the oldest command of a queue completes once its work has ended and its host writes and adds are
done; it leaves its queue and its signals leave.
R54: a WAIT or a BARRIER whose wait was satisfied stays while the Control engine does not serve its context.
Choices of the model in it: log entry 148. -/
def Obligations.CommandsAreFetchedAndComplete : Prop :=
  (∀ (s : State) (p slot : Nat) (x : Ctx) (l : CList) (c : QCmd), s.ctx p slot = some x → x.evicted = false →
      x.frozen = false → x.lists = [l] → l.fetched + 1 = l.desc.cmds → s.fetchWaits x.owner l = false →
      (s.fetchBytes x.owner l).2 = false → s.fetchLost l = false →
      c = QCmd.fresh x.nextSeq (BitVec.ofNat 256 (leNat (s.fetchBytes x.owner l).1)) l.no l.fetched →
      (x.queueOf c.engine).length < 64 →
      ∃ u : State, exec (.commandFetch p slot) s = .next (u.afterRelease p)
        ∧ u.ctx p slot = some { x with queue := x.queue ++ [c], nextSeq := x.nextSeq + 1,
                                       lists := [{ l with fetched := l.fetched + 1 }] }
        ∧ (∀ q sl, q ≠ p ∨ sl ≠ slot → u.ctx q sl = s.ctx q sl) ∧ u = { s with cores := u.cores })
  ∧ (∀ (s : State) (p slot e : Nat) (x : Ctx) (c : QCmd) (rest : List QCmd), s.ctx p slot = some x →
      x.queueOf e = c :: rest →
      (c.phase = .worked → s.unfinished p slot c.seq = false → c.err = 0 → c.digests = [] →
        (e ≠ 3 ∨ c.opcode ≠ 6) →
        (c.isWait = true ∨ c.isBarrier = true →
          c.noSignal = true ∨ s.engineServes p slot 3 = true ∧ x.evicted = false) →
        ∃ u : State, exec (.commandComplete p slot e) s = .next u.settle
          ∧ (∀ y, u.ctx p slot = some y → y.queue = x.queue.filter (fun d => d.seq ≠ c.seq))
          ∧ u.mem = s.mem ∧ u.poison = s.poison
          ∧ ∃ more : List Signal, u.signals = s.signals
              ++ (if c.noSignal then []
                  else (if c.sigEn then [(⟨c.signalId, c.sigSet, c.signalValue, srcOf p slot e, x.owner⟩ : Signal)] else [])
                    ++ (if c.isSignal then
                        ([0, 1].filter fun k => (c.entry k).enable).map fun k =>
                          ⟨(c.entry k).id, (c.entry k).set, (c.entry k).value, srcOf p slot e, x.owner⟩
                      else []))
              ++ more)
      ∧ (c.phase ≠ .worked ∨ s.unfinished p slot c.seq = true
          ∨ ((c.isWait = true ∨ c.isBarrier = true) ∧ c.noSignal = false ∧ s.engineServes p slot 3 = false) →
        exec (.commandComplete p slot e) s = .next s))

/-- R97: when its window closes the credit mirror is written with the credits of that instant.
R98: the manager writes the address, the data and the mask of a message; one raised while masked is pending
and is sent once when the mask clears; a TDISP-locked slice keeps its store (R365).
Choices of the model in it: log entry 38. -/
def Obligations.PortalMessages : Prop :=
  (∀ (s : State) (portal since : Nat), portal < 256 → (s.slice portal).mirrorAt = some since →
      (s.time.clk < since → exec (.creditMirrorWrite portal) s = .next s)
      ∧ (since ≤ s.time.clk → s.fld F.PORTAL_CREDIT_MIRROR_enable portal = 1 → (s.slice portal).rise = false →
        (s.slice portal).fenced = false → s.canIssue 0 = true → (∀ h ∈ s.host.held, h.who ≠ portal) →
        s.fld F.SLC_CFG_ats_en portal = 0 →
        ∃ t, exec (.creditMirrorWrite portal) s = .next t
          ∧ t.hostBytes (s.pasidOf portal) (s.fld F.PORTAL_CREDIT_MIRROR_addr portal * 8) 8
              = leBytes 8 (s.portalCredits portal)
          ∧ (t.slice portal).mirrorAt = none ∧ t.mem = s.mem ∧ t.poison = s.poison ∧ t.cores = s.cores))
  ∧ (∀ (s : State) (sl m word v : Nat), sl < 256 → m < 8 → word < 2 →
      (s.tdiLocked sl = true → ∃ t, exec (.slcMsgWrite sl m word v) s = .next t ∧ onlyRegs s t
        ∧ regKept s t .DEV_BAD_ACCESS 0)
      ∧ (s.tdiLocked sl = false → word = 0 → ∃ t, exec (.slcMsgWrite sl m word v) s = .next t ∧ onlyRegs s t
        ∧ t.fld F.SLC_MSG_addr (sl * 8 + m) = v % 2 ^ 64 ∧ fldKept s t F.SLC_MSG_addr (sl * 8 + m))
      ∧ (s.tdiLocked sl = false → word = 1 → ∃ t, exec (.slcMsgWrite sl m word v) s = .next t
        ∧ t.fld F.SLC_MSG_data (sl * 8 + m) = v % 2 ^ 32
        ∧ t.fld F.SLC_MSG_mask (sl * 8 + m) = v / 2 ^ 32 % 2
        ∧ t.fld F.SLC_MSG_addr (sl * 8 + m) = s.fld F.SLC_MSG_addr (sl * 8 + m)
        ∧ t.fld F.SLC_MSG_pending (sl * 8 + m)
            = (if v / 2 ^ 32 % 2 = 0 then 0 else s.fld F.SLC_MSG_pending (sl * 8 + m))
        ∧ t.mem = s.mem ∧ t.cores = s.cores
        ∧ (v / 2 ^ 32 % 2 = 0 → s.fld F.SLC_MSG_pending (sl * 8 + m) = 1 → (s.slice sl).fenced = false →
            s.canIssue 0 = true → (∀ h ∈ s.host.held, h.who ≠ sl) →
            t.host.sent = s.host.sent ++ [.write (s.reqAttr sl none) (s.fld F.SLC_MSG_addr (sl * 8 + m))
              (leBytes 4 (v % 2 ^ 32)) false])))

/-- R86: NOP, SIGNAL and DIGEST_MARK end as they start, changing nothing but their own command; WAIT starts and
stays until its conditions have latched.
R86, R198: TIMESTAMP writes seconds and nanoseconds as 16 bytes, and no other byte, and a rental one claims the granules
of a cluster memory that it names; it waits while requests to its line are held (R22, R189). -/
def Obligations.ControlCommands : Prop :=
  (∀ (s : State) (p slot : Nat) (x : Ctx) (c : QCmd),
      (s.startOp p slot 3 0 = some (x, c) → c.pay 0 128 = 0 →
        ∃ u : State, exec (.nop p slot) s = .next u.settle ∧ cmdEnded s u p slot c.seq 0
          ∧ u = { s with cores := u.cores } ∧ onlyContexts s u)
      ∧ (s.startOp p slot 3 1 = some (x, c) → c.pay 17 15 = 0 → c.pay 81 15 = 0 →
        (∀ k, k < 2 → (c.entry k).enable = true → s.permitted (c.entry k).id x.owner = true) →
        ∃ u : State, exec (.signal p slot) s = .next u.settle ∧ cmdEnded s u p slot c.seq 0
          ∧ u = { s with cores := u.cores } ∧ onlyContexts s u)
      ∧ (s.startOp p slot 3 6 = some (x, c) → c.pay 32 96 = 0 →
        ∃ u : State, exec (.digestMark p slot) s = .next u.settle ∧ cmdEnded s u p slot c.seq 0
          ∧ u = { s with cores := u.cores } ∧ onlyContexts s u)
      ∧ (s.startOp p slot 3 2 = some (x, c) → c.pay 16 16 = 0 → c.pay 80 16 = 0 →
        (∀ k, k < 2 → (c.entry k).enable = true → s.permitted (c.entry k).id x.owner = true) →
        ∃ u : State, exec (.wait p slot) s = .next u.settle
          ∧ u.ctx p slot = some { x with queue := x.queue.map fun d => if d.seq = c.seq then
              { d with phase := .started } else d }
          ∧ (∀ q sl, q ≠ p ∨ sl ≠ slot → u.ctx q sl = s.ctx q sl)
          ∧ u = { s with cores := u.cores } ∧ onlyContexts s u))
  ∧ (∀ (s : State) (p slot : Nat) (x : Ctx) (c : QCmd), s.startOp p slot 3 8 = some (x, c) → c.pay 44 84 = 0 →
      s.rangeHeld (c.pay 0 44) 16 = false → s.addressCheck x.owner ((s.logicalOf p).getD 0) (c.pay 0 44) 16 16 true = .ok () →
      s.claimable p slot x.owner [] (if slot = 0 then [] else clmNamed (c.pay 0 44) 16) = true →
      ∃ u : State, exec (.timestamp p slot) s = .next u.settle ∧ cmdEnded s u p slot c.seq 0
        ∧ u.bytesAt (c.pay 0 44) 16 = leBytes 8 (s.time.sec % 2 ^ 48) ++ leBytes 8 s.time.ns
        ∧ (∀ a, a < c.pay 0 44 ∨ c.pay 0 44 + 16 ≤ a → u.byte a = s.byte a)
        ∧ (∀ a, u.poisoned a = s.poisoned a)
        ∧ (slot ≠ 0 → ∀ g ∈ clmNamed (c.pay 0 44) 16, u.fld F.CLU_CLM_GRANULE_owner g = x.owner % 2 ^ 9)
        ∧ regsKept s u [.CORE_SPM_OWNER, .CLU_CLM_GRANULE]
        ∧ u = { s with mem := u.mem, poison := u.poison, cores := u.cores, regs := u.regs } ∧ onlyContexts s u)
  ∧ (∀ (s : State) (p slot : Nat) (x : Ctx) (c : QCmd), s.startOp p slot 3 8 = some (x, c) → c.pay 44 84 = 0 →
      s.addressCheck x.owner ((s.logicalOf p).getD 0) (c.pay 0 44) 16 16 true = .ok () →
      s.rangeHeld (c.pay 0 44) 16 = true → exec (.timestamp p slot) s = .next s.settle)

/-- R87: a YIELD_POINT gives up the core to another runnable rental context, and with tick_align holds its own
until the next boundary; in all other cases it has no effect.
R50: a HAND_BACK that takes effect ends the radio lease and sets handed_back, and outside a lease has no
further effect; in a rental context it fails with ERR_PERM.
R86: INTERRUPT sends portal message [2:0] of its slice, or for the radio context vector [7:0] of PF1.
R86, R368: HOST_WRITE writes its eight bytes to host memory with the slice's PASID, and without one for the
radio context; while the function may not issue requests the write is held.
Choices of the model in it: log entry 40. -/
def Obligations.ControlOfTheCore : Prop :=
  (∀ (s : State) (p slot : Nat) (x : Ctx) (c : QCmd), s.startOp p slot 3 3 = some (x, c) → slot ≠ 0 →
      c.pay 1 127 = 0 →
      ∃ u : State, exec (.yieldPoint p slot) s = .next u.settle
        ∧ ((s.best p slot = none ∨ ∀ q ∈ (s.core p).port, q.slot ≠ slot) → ∃ y, u.ctx p slot = some y
            ∧ y.queue = x.queue.map (fun d => if d.seq = c.seq then { d with phase := .worked } else d)
            ∧ y.tickHold = (if c.pay 0 1 = 1 then some s.tickNo else x.tickHold))
        ∧ (∀ sl, s.best p slot = some sl →
            u.fld F.CORE_LEASE_STATUS_rental_slot p = sl ∨ (u.core p).nextSlot = some sl)
        ∧ (s.best p slot = none → u.regs = s.regs ∧ u = { s with cores := u.cores } ∧ onlyContexts s u)
        ∧ (c.pay 0 1 = 0 → s.best p slot = none → cmdEnded s u p slot c.seq 0))
  ∧ ((∀ (s : State) (p : Nat) (x : Ctx) (c : QCmd), s.handBackDue p 0 = some (x, c) → c.pay 0 128 = 0 →
      ∃ u : State, exec (.handBack p 0) s = .next u.settle ∧ cmdEnded s u p 0 c.seq 0
        ∧ (s.fld F.CORE_LEASE_STATUS_phase p = 0 → u.regs = s.regs)
        ∧ (s.fld F.CORE_LEASE_STATUS_phase p ≠ 0 → u.fld F.CORE_LEASE_STATUS_phase p = 0
            ∧ u.fld F.CORE_LEASE_STATUS_handed_back p = 1 ∧ (u.core p).yielded = 0
            ∧ u.fld F.CORE_LEASE_STATUS_rental_slot p = s.fld F.CORE_LEASE_STATUS_rental_slot p)
        ∧ regKept s u .CORE_LEASE_STATUS p ∧ (∀ q, q ≠ p → u.core q = s.core q)
        ∧ u = { s with regs := u.regs, cores := u.cores })
    ∧ (∀ (s : State) (p slot : Nat) (x : Ctx) (c : QCmd), slot ≠ 0 → s.startOp p slot 3 4 = some (x, c) →
      exec (.handBack p slot) s = .next ((s.failCmd p slot c (ePerm, 0)).afterRelease p)))
  ∧ (∀ (s : State) (p slot : Nat) (x : Ctx) (c : QCmd), s.startOp p slot 3 9 = some (x, c) →
      (slot = 0 → c.pay 8 125 = 0 → ∃ u : State, exec (.interrupt p slot) s = .next u.settle
        ∧ cmdEnded s u p slot c.seq 0 ∧ u.host = (s.message 1 (c.pay 0 8)).host ∧ u.regs = s.regs
        ∧ u.mem = s.mem ∧ onlyContexts s u)
      ∧ (slot ≠ 0 → c.pay 3 125 = 0 → x.owner < 256 → ∃ u : State, exec (.interrupt p slot) s = .next u.settle
        ∧ cmdEnded s u p slot c.seq 0 ∧ u.mem = s.mem ∧ onlyContexts s u
        ∧ (s.fld F.SLC_MSG_mask (x.owner * 8 + c.pay 0 3) = 1 → (s.slice x.owner).fenced = false →
            u.fld F.SLC_MSG_pending (x.owner * 8 + c.pay 0 3) = 1 ∧ u.host = s.host)
        ∧ (s.fld F.SLC_MSG_mask (x.owner * 8 + c.pay 0 3) = 0 → (s.slice x.owner).fenced = false →
            s.canIssue 0 = true → (∀ h ∈ s.host.held, h.who ≠ x.owner) →
            u.host.sent = s.host.sent ++ [.write (s.reqAttr x.owner none) (s.fld F.SLC_MSG_addr (x.owner * 8 + c.pay 0 3))
              (leBytes 4 (s.fld F.SLC_MSG_data (x.owner * 8 + c.pay 0 3))) false])))
  ∧ (∀ (s : State) (p slot : Nat) (x : Ctx) (c : QCmd), s.startOp p slot 3 10 = some (x, c) → c.pay 0 64 % 8 = 0 →
      (x.owner < 256 → (s.slice x.owner).fenced = false) → x.owner ≤ 256 →
      ∃ u : State, exec (.hostWrite p slot) s = .next u.settle ∧ cmdEnded s u p slot c.seq 0
        ∧ u.mem = s.mem ∧ u.poison = s.poison ∧ onlyContexts s u
        ∧ (s.canIssue (fnOf x.owner) = true → (∀ h ∈ s.host.held, h.who ≠ x.owner) →
            (x.owner < 256 → s.fld F.SLC_CFG_ats_en x.owner = 0) →
            u.hostBytes (s.pasidOf x.owner) (c.pay 0 64) 8 = leBytes 8 (c.pay 64 64)
            ∧ (∀ k, k < hostKey (s.pasidOf x.owner) (c.pay 0 64) ∨ hostKey (s.pasidOf x.owner) (c.pay 0 64) + 8 ≤ k →
                look 0 u.host.mem k = look 0 s.host.mem k)
            ∧ u.host.held = s.host.held)
        ∧ (s.canIssue (fnOf x.owner) = false → u.host.mem = s.host.mem
            ∧ u.host.held = s.host.held ++ [⟨x.owner, .write (s.pasidOf x.owner) (c.pay 0 64)
                (leBytes 8 (c.pay 64 64)) false, s.time.clk, some (p, slot, c.seq), true, none⟩]))

/-- R100: a rental command that fails a check ends its context, whose slot is free; a radio command is skipped,
flagged with its code, and does not signal. -/
def Obligations.FailedChecks : Prop :=
  ∀ (s : State) (p slot : Nat) (x : Ctx) (c : QCmd) (code detail : Nat), s.ctx p slot = some x →
    (slot ≠ 0 → code ≠ ePoison →
      (s.failCmd p slot c (code, detail)).ctx p slot = none
      ∧ (∀ q sl, q ≠ p ∨ sl ≠ slot → (s.failCmd p slot c (code, detail)).ctx q sl = s.ctx q sl)
      ∧ (s.failCmd p slot c (code, detail)).fld F.CORE_SPM_OWNER_granules (p * 4 + slot) = 0)
    ∧ (slot = 0 ∨ code = ePoison →
      (s.failCmd p slot c (code, detail)).ctx p slot = some { x with queue := x.queue.map fun d =>
        if d.seq = c.seq then { d with phase := .worked, err := code, detail := if code = ePoison then 0 else detail,
                                       noSignal := true } else d }
      ∧ (∀ n ∈ s.breaks c, s.permitted n x.owner = true →
          (s.failCmd p slot c (code, detail)).fld F.SYNC_OBJ_broken n = 1)
      ∧ (s.failCmd p slot c (code, detail)).mem = s.mem)

/-! ### Garnet (chapter 5) -/

/-- R115 to R121, R130, R141: a GMM that nothing holds issues, whether it has been decoded ahead of its issue or starts
and issues at once: each cell of its bank is what its steps make of the operands, from zero or from the bank, its bank
is ACCUM and its wavefronts are in the array, with the drain that it captures and the poison that it brought.
Choices of the model in it: log entries 44, 47 to 49. -/
def Obligations.GmmIssues : Prop :=
  ∀ (s : State) (p slot n : Nat) (x : Ctx) (c : QCmd) (l : CList),
    garnetReady s p slot 1 x c n l ((s.core p).gmmHolds slot (c.pay 74 1) (c.pay 75 2)) (s.gmmCheck p slot n x c l)
      (s.gmmAllSpans x c l) →
    ∃ u : State, exec (.gmm p slot) s = .next u.settle
      ∧ (∀ h ∈ halvesOf (c.pay 75 2),
          ((u.core p).bank (c.pay 74 1) h).state = .accum
          ∧ ((u.core p).bank (c.pay 74 1) h).slot = slot
          ∧ ((u.core p).bank (c.pay 74 1) h).isInt = gmmInt (c.pay 70 4)
          ∧ ((u.core p).bank (c.pay 74 1) h).poison
              = (s.gmmPoison l c || (c.pay 77 1 ≠ 1 && ((s.core p).bank (c.pay 74 1) h).poison))
          ∧ ∀ i j, i < 64 → j < 32 →
              look 0 ((u.core p).bank (c.pay 74 1) h).acc (i * 32 + j)
                = (s.cellResult (s.gmmSrc l c) i (j + (if c.pay 75 2 = 0 then 32 * h else 0))
                    (if c.pay 77 1 = 1 ∨ ((s.core p).bank (c.pay 74 1) h).state = .free then 0
                     else look 0 ((s.core p).bank (c.pay 74 1) h).acc (i * 32 + j))).1)
      ∧ (u.core p).array = (s.core p).array ++ [s.inArray p slot x c l]
      ∧ cmdStarted u p slot c.seq ∧ u.mem = s.mem ∧ u.poison = s.poison ∧ u.signals = s.signals
      ∧ regsKept s u [.CORE_SPM_OWNER, .CLU_CLM_GRANULE, .GAR_FAULT, .GAR_SAT_COUNT, .GAR_STREAM_CYCLES,
          .GAR_BUBBLE_CYCLES]
      ∧ ∀ q, q ≠ p → u.core q = s.core q

/-- R119, R121, R126, R130: the oldest GMM of a half leaves the array: with a drain request it asks for the drain port,
its bank DRAINING if the port is free and PENDING if not; without one it ends, flagged by the poison that it took with
it, and its bank is LOADED, or FREE if its context is gone, unless a later GMM targets it.
R112, R119, R120, R130: a GDRAIN takes the drain port, its bank DRAINING; a GPRELOAD takes it and fills its bank from
the source, which is LOADING, poisoned by a poisoned line of a row that it reads.
Choices of the model in it: log entries 47 and 48. -/
def Obligations.GmmLeavesTheArray : Prop :=
  (∀ (s : State) (p half : Nat) (a : InArray), half < 3 →
      (s.core p).array.find? (fun a => a.half = half) = some a →
      (∀ d, a.drain = some d → ∃ u : State, exec (.gmmLastWavefront p half) s = .next u.settle
        ∧ (u.core p).array = (s.core p).array.filter (fun b => !(b.slot = a.slot && b.seq = a.seq))
        ∧ (u.core p).port = (s.core p).port ++ [⟨a.slot, a.from', a.seq, a.bank, half, false, d, a.base,
            portFree (s.core p).port (s.core p).port.length half⟩]
        ∧ (∀ h ∈ halvesOf half, ((u.core p).bank a.bank h).state
            = if portFree (s.core p).port (s.core p).port.length half then .draining else .pending)
        ∧ (∀ q sl, u.ctx q sl = s.ctx q sl) ∧ u = { s with cores := u.cores })
      ∧ (a.drain = none → ∃ u : State, exec (.gmmLastWavefront p half) s = .next u.settle
        ∧ (u.core p).array = (s.core p).array.filter (fun b => !(b.slot = a.slot && b.seq = a.seq))
        ∧ ((∀ b ∈ (u.core p).array, ¬ (b.bank = a.bank ∧ b.half = half)) →
            ∀ h ∈ halvesOf half, (u.core p).bank a.bank h = ((s.core p).bank a.bank h).left)
        ∧ ((∃ b ∈ (u.core p).array, b.bank = a.bank ∧ b.half = half) →
            ∀ k h, (u.core p).bank k h = (s.core p).bank k h)
        ∧ (∀ x, s.ctx p a.slot = some x → cmdEnded s u p a.slot a.seq (if a.poison then ePoison else 0))
        ∧ u = { s with cores := u.cores }))
  ∧ (∀ b : BankHalf, b.left.state = (if b.slot = 7 then .free else .loaded) ∧ (b.slot ≠ 7 → b.left.acc = b.acc
      ∧ b.left.poison = b.poison ∧ b.left.isInt = b.isInt ∧ b.left.slot = b.slot))
  ∧ (∀ (s : State) (p slot n : Nat) (x : Ctx) (c : QCmd) (l : CList),
      (garnetReady s p slot 2 x c n l ((s.core p).portHolds slot (c.pay 103 1) (c.pay 104 2))
          (s.gdrainCheck p slot n x c l)
          (s.drainSpans c l (DrainCfg.ofBits (c.pay 0 128) 0) (colsOf (c.pay 104 2))) →
        ∃ u : State, exec (.gdrain p slot) s = .next u.settle
          ∧ (u.core p).port = (s.core p).port
              ++ [⟨slot, slot, c.seq, c.pay 103 1, c.pay 104 2, false, c.pay 0 103, s.outBase c l (c.pay 0 12), true⟩]
          ∧ (∀ h ∈ halvesOf (c.pay 104 2), ((u.core p).bank (c.pay 103 1) h).state = .draining
              ∧ ((u.core p).bank (c.pay 103 1) h).slot = slot
              ∧ ((u.core p).bank (c.pay 103 1) h).acc = ((s.core p).bank (c.pay 103 1) h).acc)
          ∧ cmdStarted u p slot c.seq ∧ u.mem = s.mem ∧ u.poison = s.poison
          ∧ regsKept s u [.CORE_SPM_OWNER, .CLU_CLM_GRANULE])
      ∧ (garnetReady s p slot 3 x c n l ((s.core p).portHolds slot (c.pay 45 1) (c.pay 46 2))
          (s.preloadCheck slot n x c l) [s.preSpan l c] →
        ∃ u : State, exec (.gpreload p slot) s = .next u.settle
          ∧ (u.core p).port = (s.core p).port
              ++ [⟨slot, slot, c.seq, c.pay 45 1, c.pay 46 2, true, 0, s.outBase c l (c.pay 0 12), true⟩]
          ∧ (∀ h ∈ halvesOf (c.pay 46 2),
              ((u.core p).bank (c.pay 45 1) h).state = .loading
              ∧ ((u.core p).bank (c.pay 45 1) h).isInt = decide (c.pay 29 3 = 2)
              ∧ ((u.core p).bank (c.pay 45 1) h).poison = s.prePoison (s.outBase c l (c.pay 0 12)) c
              ∧ ∀ i j, i < 64 → j < 32 → look 0 ((u.core p).bank (c.pay 45 1) h).acc (i * 32 + j)
                  = s.preValue (s.outBase c l (c.pay 0 12)) c i (if c.pay 46 2 = 0 then 32 * h + j else j))
          ∧ cmdStarted u p slot c.seq ∧ u.mem = s.mem ∧ u.poison = s.poison
          ∧ regsKept s u [.CORE_SPM_OWNER, .CLU_CLM_GRANULE]))

/-- R119, R120, R122, R130, R150: a PENDING drain starts when its lanes are free; a drain that ends has written its
output at the buffer that its command decoded, and no other byte, leaves its bank FREE and ends its command; a preload
that ends leaves its bank LOADED.
R120, R121, R150: a Garnet command that may start, but that another stands before or something holds, is decoded, and
its entries are kept until it issues.
Choices of the model in it: log entry 48. -/
def Obligations.DrainPortWorks : Prop :=
  (∀ (s : State) (p half : Nat) (r : PortReq) (i : Nat), half < 3 →
    (s.core p).port.zipIdx.find? (fun r => !r.1.started && r.1.half = half) = some (r, i) →
    (portFree (s.core p).port i half = true → ∃ t, exec (.drainStart p half) s = .next t
      ∧ (t.core p).port = (s.core p).port.set i { r with started := true }
      ∧ (∀ h ∈ halvesOf half, ((t.core p).bank r.bank h).state = .draining)
      ∧ (∀ q sl, t.ctx q sl = s.ctx q sl) ∧ t = { s with cores := t.cores })
    ∧ (portFree (s.core p).port i half = false → exec (.drainStart p half) s = .next s))
  ∧ (∀ (s : State) (p half : Nat) (r : PortReq) (o : DrainOut), half < 3 →
    (s.core p).port.find? (fun r => r.started && !r.preload && r.half = half) = some r →
    o = (s.core p).drainOut r.bank half (DrainCfg.ofPort r.payload) →
    ∃ u : State, exec (.drainEnd p half) s = .next u.settle
      ∧ (∀ h ∈ halvesOf half, (u.core p).bank r.bank h = BankHalf.init)
      ∧ (u.core p).port = (s.core p).port.erase r
      ∧ u.mem = (o.pieces.foldl (fun t q => t.writeMem (r.base + q.1) q.2
            ((halvesOf half).any fun h => ((s.core p).bank r.bank h).poison)) s).mem
      ∧ (∀ a, (∀ q ∈ o.pieces, a < r.base + q.1 ∨ r.base + q.1 + q.2.length ≤ a) → u.byte a = s.byte a)
      ∧ (∀ y d, u.ctx p r.slot = some y → y.cmd r.seq = some d → d.phase = .worked)
      ∧ regsKept s u [.GAR_SAT_COUNT] ∧ ∀ q sl, q ≠ p ∨ sl ≠ r.slot → u.ctx q sl = s.ctx q sl)
  ∧ (∀ (s : State) (p half : Nat) (r : PortReq), half < 3 →
    (s.core p).port.find? (fun r => r.preload && r.half = half) = some r →
    ∃ u : State, exec (.preloadEnd p half) s = .next u.settle
      ∧ (u.core p).port = (s.core p).port.erase r
      ∧ (∀ h ∈ halvesOf half, (u.core p).bank r.bank h = ((s.core p).bank r.bank h).left)
      ∧ (∀ y d, u.ctx p r.slot = some y → y.cmd r.seq = some d → d.phase = .worked)
      ∧ u = { s with cores := u.cores })
  ∧ ∀ (s : State) (p slot n : Nat) (x : Ctx) (c : QCmd) (l : CList), s.startOp p slot 0 1 = some (x, c) →
    s.logicalOf p = some n → x.listOf c = some l → (slot ≠ 0 → s.fld F.GAR_ISSUE_CTL_rental_hold p ≠ 1) →
    (∀ q, s.issuable p slot 1 = some q → (s.core p).gmmHolds slot (q.2.pay 74 1) (q.2.pay 75 2) = true) →
    x.issuing ≠ none ∨ (s.core p).gmmHolds slot (c.pay 74 1) (c.pay 75 2) = true →
    s.gmmCheck p slot n x c l = .ok () → claimsFree s p slot n x (s.gmmAllSpans x c l) →
    ∃ u : State, exec (.gmm p slot) s = .next u.settle
      ∧ u.ctx p slot = some { x with queue := x.queue.map fun d => if d.seq = c.seq then
          { c with claim := false, plan := some (spanPlan (s.gmmAllSpans x c l)) } else d }
      ∧ memKept s u ∧ regsKept s u [.CORE_SPM_OWNER, .CLU_CLM_GRANULE] ∧ onlyContexts s u

/-- R111, R113: GDCFG sets the named drain slot; GMODE sets the mode and leaves every bank of the context FREE.
R128, R130: a fault in the array poisons the bank of the GMM it strikes, which completes flagged with those that add to
that bank behind it, and is counted in its half; one of a parity or residue kind lowers the unit's score by 32.
R49: the rental instruction that has not yielded at cycle 1,740 is aborted, with the drains of rental contexts, its
bank LOADED and poisoned, the overrun counted with its slot, and Garnet yields; a preload goes on.
Choices of the model in it: log entries 45 and 153. -/
def Obligations.GarnetConfiguresAndFaults : Prop :=
  (∀ (s : State) (p slot n : Nat) (x : Ctx) (c : QCmd) (l : CList),
      (garnetReady s p slot 4 x c n l false (s.gdcfgCheck slot n x c l)
          (s.drainSpans c l (DrainCfg.ofBits (c.pay 0 128) 0) (if x.halfMode then 32 else 64)) →
        ∃ (u : State) (y : Ctx), exec (.gdcfg p slot) s = .next u.settle ∧ u.ctx p slot = some y
          ∧ look 0 y.drainSlots (c.pay 106 3) = c.pay 0 103 + 2 ^ 127
          ∧ (∀ k, k ≠ c.pay 106 3 → look 0 y.drainSlots k = look 0 x.drainSlots k)
          ∧ (∀ d, y.cmd c.seq = some d → d.phase = .worked) ∧ u.mem = s.mem ∧ u.poison = s.poison
          ∧ regsKept s u [.CORE_SPM_OWNER, .CLU_CLM_GRANULE]
          ∧ ∀ b h, (u.core p).bank b h = (s.core p).bank b h)
      ∧ (s.startOp p slot 0 5 = some (x, c) → s.logicalOf p = some n → x.listOf c = some l →
        (slot ≠ 0 → s.fld F.GAR_ISSUE_CTL_rental_hold p ≠ 1) → (x.queueOf 0).head?.map (·.seq) = some c.seq →
        x.issuing = none → c.pay 1 127 = 0 → s.bankOk n slot (if slot = 0 then 1 else 0) = true →
        ∃ (u : State) (y : Ctx), exec (.gmode p slot) s = .next u.settle ∧ u.ctx p slot = some y
          ∧ y.halfMode = decide (c.pay 0 1 = 1)
          ∧ (∀ e ∈ (u.core p).banks, e.2.slot ≠ slot)
          ∧ (∀ b h, ((s.core p).bank b h).slot ≠ slot → (u.core p).bank b h = (s.core p).bank b h)
          ∧ (∀ d, y.cmd c.seq = some d → d.phase = .worked) ∧ u.mem = s.mem ∧ u.poison = s.poison
          ∧ regsKept s u [.CORE_SPM_OWNER]))
  ∧ (∀ (s : State) (p half : Nat) (kind : GarFault) (a : InArray), half < 3 →
      (s.core p).array.find? (fun a => a.half = half) = some a →
      ∃ t, exec (.garnetFault p half kind) s = .next t
        ∧ (∀ h ∈ halvesOf half, ((t.core p).bank a.bank h).poison = true
            ∧ ((t.core p).bank a.bank h).acc = ((s.core p).bank a.bank h).acc)
        ∧ (∀ l r, (s.core p).array = l ++ a :: r → (∀ b ∈ l, b.half ≠ half) →
            (t.core p).array = l ++ { a with poison := true } :: flagChain a.bank half r)
        ∧ t.fld F.GAR_FAULT_last_half p = half
        ∧ t.fld F.GAR_FAULT_last_slot p = a.from' % 2 ^ F.GAR_FAULT_last_slot.width
        ∧ (kind = .poisonIn → t.fld F.GAR_FAULT_poison_in p
              = min (s.fld F.GAR_FAULT_poison_in p + 1) (2 ^ F.GAR_FAULT_poison_in.width - 1)
            ∧ regKept s t .GAR_FAULT p ∧ t = { s with regs := t.regs, cores := t.cores })
        ∧ (kind ≠ .poisonIn → t.fld F.HLTH_UNIT_score p = s.fld F.HLTH_UNIT_score p - 32
            ∧ (half = 2 → t.fld F.GAR_FAULT_east_faults p
                = min (s.fld F.GAR_FAULT_east_faults p + 1) (2 ^ F.GAR_FAULT_east_faults.width - 1))
            ∧ (half ≠ 2 → t.fld F.GAR_FAULT_west_faults p
                = min (s.fld F.GAR_FAULT_west_faults p + 1) (2 ^ F.GAR_FAULT_west_faults.width - 1)))
        ∧ (∀ q sl, t.ctx q sl = s.ctx q sl) ∧ t.mem = s.mem ∧ t.poison = s.poison)
  ∧ (∀ (bank half k : Nat) (r : List InArray) (b : InArray), r[k]? = some b →
      (flagChain bank half r)[k]? = some { b with poison := b.poison
        || (b.bank = bank && b.half = half && (r.take (k + 1)).all fun d => d.bank ≠ bank || d.half ≠ half || d.adds) })
  ∧ (∀ (s : State) (p slot issuer seq : Nat) (x : Ctx), (s.core p).offender = some (slot, issuer, seq) →
      s.ctx p slot = some x → s.fld F.CORE_LEASE_STATUS_phase p = 1 → bitOf (s.core p).yielded 0 = false →
      slot < 4 → s.cutBits 6 x.owner 80 1 = 0 →
      ∃ u : State, exec (.yieldOverrun p) s = .next (u.afterRelease p)
        ∧ u.fld F.CORE_TICK_OVERRUN_count p = min (s.fld F.CORE_TICK_OVERRUN_count p + 1) (2 ^ 32 - 1)
        ∧ u.fld F.CORE_TICK_OVERRUN_last_slot p = issuer % 2 ^ F.CORE_TICK_OVERRUN_last_slot.width
        ∧ u.fld F.CORE_TICK_OVERRUN_last_torn_down p = 0
        ∧ u.fld F.HLTH_EVENT_overrun 0 = 1
        ∧ (u.core p).array = (s.core p).array.filter (fun a => a.slot = 0)
        ∧ (u.core p).port = (s.core p).port.filter (fun q => q.slot = 0 || q.preload)
        ∧ (∀ a ∈ (s.core p).array, a.slot ≠ 0 → ∀ h ∈ halvesOf a.half, ((s.core p).bank a.bank h).slot ≠ 7 →
            ((u.core p).bank a.bank h).state = .loaded ∧ ((u.core p).bank a.bank h).poison = true)
        ∧ ((∀ r ∈ (s.core p).port, r.slot ≠ 0 → r.preload = true ∨ r.started = false) →
            u.mem = s.mem ∧ u.poison = s.poison)
        ∧ bitOf (u.core p).yielded 0 = true
        ∧ ∃ y, u.ctx p slot = some y ∧ ∀ d, y.cmd seq = some d → (x.cmd seq).isSome →
            d.err = eOverrun ∧ d.noSignal = true ∧ d.phase = .worked)

/-! ### Opal (chapter 6) -/

/-- An element written is read back, whatever else the command has written, and no byte but its own changes.
R163, R164, R165: OCOPY gives each destination element, in element order, the source element at the exchanged
index, converted where the formats differ, in blocks of 32 with their scale where the destination has scales.
Choices of the model in it: log entry 50. -/
def Obligations.CopiesMoveElements : Prop :=
  (∀ (s : State) (pasid : Option Nat) (m : Mover) (t : Tensor) (ix : List Nat) (v : Nat) (bad : Bool),
      v < 2 ^ (4 * elemNibs t.fmt) →
      (s.getElem pasid (s.putElem pasid m t ix v bad) t ix).1 = v
      ∧ ∀ k, k < t.buf.key + (t.pos ix / 2).toNat ∨ t.buf.key + (t.pos ix / 2).toNat + elemBytes t.fmt ≤ k →
          look none (s.putElem pasid m t ix v bad).ov k = look none m.ov k)
  ∧ (∀ (s : State) (p slot n : Nat) (x : Ctx) (c : QCmd) (l : CList) (d : OpalPlan) (src dst : Tensor)
        (rest : List Tensor) (ssc dsc : Option Tensor) (m : Mover),
      opalReady s p slot 1 x c n l d s.copyPlan → d.os.map (·.t) = src :: dst :: rest →
      ssc = (if c.pay 30 12 = 0xFFF then none else rest.head?) →
      dsc = (if c.pay 42 12 = 0xFFF then none else rest.getLast?) →
      m = (match dsc with
        | none => dst.indices.foldl (fun m ix =>
            s.copyElem (s.pasidOf x.owner) m src dst ssc (c.pay 24 3) (c.pay 27 3) ix) moverStart
        | some sc => (dst.indices.filter fun ix => ix.headD 0 % 32 = 0).foldl (fun m ix =>
            s.copyBlock (s.pasidOf x.owner) m src dst ssc sc (c.pay 24 3) (c.pay 27 3) ix) moverStart) →
      ∃ u : State, exec (.ocopy p slot) s = .next u.settle ∧ opalMoved s u p slot x c d m none)

/-- R163, R177, R178: OFILL gives every element of its tensor the pattern; ODIGEST writes the CRC-64 of the
elements in element order, eight bytes, and no other byte.
Choices of the model in it: log entry 50. -/
def Obligations.FillAndDigest : Prop :=
  ∀ (s : State) (p slot n : Nat) (x : Ctx) (c : QCmd) (l : CList) (d : OpalPlan) (t : Tensor) (rest : List Tensor),
    d.os.map (·.t) = t :: rest →
    (opalReady s p slot 5 x c n l d s.fillPlan →
      ∃ u : State, exec (.ofill p slot) s = .next u.settle ∧ opalMoved s u p slot x c d
        (t.indices.foldl (fun m ix => s.putElem (s.pasidOf x.owner) m t ix
          (c.pay 32 32 % 2 ^ (4 * elemNibs t.fmt)) false) moverStart) none)
    ∧ (opalReady s p slot 8 x c n l d s.digestPlan →
      ∃ u : State, exec (.odigest p slot) s = .next u.settle ∧ opalMoved s u p slot x c d
        ((leBytes 8 (crc64 (s.tensorBytes (s.pasidOf x.owner) moverStart t))).zipIdx.foldl (fun m q =>
          s.putByte (s.pasidOf x.owner) m false (c.pay 12 44 + q.2) q.1.toNat 3
            (s.tensorPoison (s.pasidOf x.owner) moverStart t))
          { moverStart with bad := s.tensorPoison (s.pasidOf x.owner) moverStart t }) none)

/-- R168, R169, R171, R179: OGATHER and OSCATTER move the elements that the entries of the index tensor name, up to the
first that is out of bounds, with which the command ends in ERR_OOB and the index tensor's entry as detail.  A scatter
moves them in element order where it runs serially (R174, R175) or in steady mode entry by entry, in default mode in
some order of its entries; an entry that arrives poisoned moves nothing for OSCATTER and a poisoned free value for
OGATHER, and the command is flagged.
Choices of the model in it: log entries 50, 52. -/
def Obligations.GatherAndScatter : Prop :=
  ∀ (s : State) (p slot n : Nat) (x : Ctx) (c : QCmd) (l : CList) (d : OpalPlan) (src dst idx : Tensor)
      (es : List (Int × Bool)), d.os.map (·.t) = [src, dst, idx] → idx.pieces ≠ [] ∨ es = [] →
    es = s.indexEntries (s.pasidOf x.owner) idx →
    (opalReady s p slot 2 x c n l d (s.indexPlan true) →
      ∃ (u : State) (junk : Nat), exec (.ogather p slot) s = .next u.settle ∧ opalMoved s u p slot x c d
        ((dst.indices.filter fun ix => ix.getD (c.pay 36 3) 0 < firstOob (src.extent.getD (c.pay 36 3) 1) es).foldl
          (fun m ix =>
            let e := es.getD (ix.getD (c.pay 36 3) 0) (0, false)
            let v := s.getElem (s.pasidOf x.owner) m src (ix.set (c.pay 36 3) e.1.toNat)
            if e.2 then s.putElem (s.pasidOf x.owner) { m with bad := true } dst ix
              (junk % 2 ^ (4 * elemNibs dst.fmt)) true
            else s.putElem (s.pasidOf x.owner) { m with bad := m.bad || v.2 } dst ix v.1 v.2) moverStart)
        (if firstOob (src.extent.getD (c.pay 36 3) 1) es < es.length then some idx.index else none))
    ∧ (opalReady s p slot 3 x c n l d (s.indexPlan false) →
      ∃ (u : State) (order : List Nat), exec (.oscatter p slot) s = .next u.settle
        ∧ order.Perm (List.range (firstOob (dst.extent.getD (c.pay 36 3) 1) es))
        ∧ (s.steady x.owner = true → order = List.range (firstOob (dst.extent.getD (c.pay 36 3) 1) es))
        ∧ opalMoved s u p slot x c d
          ((scatterOrder src (c.pay 36 3) (firstOob (dst.extent.getD (c.pay 36 3) 1) es)
            (d.overlap || (d.twice && s.steady x.owner)) order).foldl (fun m ix =>
              let e := es.getD (ix.getD (c.pay 36 3) 0) (0, false)
              let v := s.getElem (s.pasidOf x.owner) m src ix
              if e.2 then { m with bad := true }
              else s.putElem (s.pasidOf x.owner) { m with bad := m.bad || v.2 } dst (ix.set (c.pay 36 3) e.1.toNat)
                v.1 v.2) moverStart)
          (if firstOob (dst.extent.getD (c.pay 36 3) 1) es < es.length then some idx.index else none))

/-- R172, R173: OSCATTER_ADD without an index adds each source element to its destination, and with one each element to
that which its entry names.  On the package it sends adds to the homes of their lines, an ordered one in steady mode one
for each line with its ordinal; into host memory it writes the sums.
R28, R173: an add whose turn it is is applied to its line; an early one waits at its home, or is refused by a full
table and leaves its source again; one behind an earlier request of its Opal to the line does not arrive, nor one whose
line is held (R22, R189); one to a core that has been unmapped fails (R23).
R28, R101, R161, R169, R186: a transaction that ends leaves one fewer of its command to end: a read first, then the
first write that may land, whose lines take the bytes that it holds; the last ends the command, and a command that met
an entry out of bounds fails.  A write of a context that has ended lands all the same.
Choices of the model in it: log entries 50, 54, 170. -/
def Obligations.OrderedAdds : Prop :=
  (∀ (s : State) (p slot n : Nat) (x : Ctx) (c : QCmd) (l : CList) (d : OpalPlan) (src dst : Tensor)
        (rest : List Tensor), opalReady s p slot 4 x c n l d s.addPlan → d.os.map (·.t) = src :: dst :: rest →
      (dst.buf.host = false → rest = [] →
        ∃ u : State, exec (.oscatterAdd p slot) s = .next u.settle ∧ opalAdds s u p slot x c d dst.fmt
          (src.indices.foldl (fun r ix => s.addStep (s.pasidOf x.owner) src dst r (ix, ix)) ⟨moverStart, [], []⟩)
          (if s.steady x.owner = true ∧ c.pay 39 4 ≠ 0 then c.pay 43 4 else 0)
          (if s.steady x.owner = true ∧ c.pay 39 4 ≠ 0 then c.pay 39 4 + 1 else 1) none)
      ∧ (dst.buf.host = true → rest = [] →
        ∃ u : State, exec (.oscatterAdd p slot) s = .next u.settle ∧ opalMoved s u p slot x c d
          (src.indices.foldl (fun m ix => s.addOne (s.pasidOf x.owner) m src dst ix ix) moverStart) none)
      ∧ ∀ (idx : Tensor) (more : List Tensor) (es : List (Int × Bool)), rest = idx :: more →
        es = s.indexEntries (s.pasidOf x.owner) idx → idx.pieces ≠ [] ∨ es = [] →
        ∃ (u : State) (order : List Nat), exec (.oscatterAdd p slot) s = .next u.settle
          ∧ order.Perm (List.range (firstOob (dst.extent.getD (c.pay 36 3) 1) es))
          ∧ (dst.buf.host = false → opalAdds s u p slot x c d dst.fmt
            ((scatterOrder src (c.pay 36 3) (firstOob (dst.extent.getD (c.pay 36 3) 1) es)
              (d.overlap || (d.twice && s.steady x.owner)) order).foldl (fun r ix =>
                let e := es.getD (ix.getD (c.pay 36 3) 0) (0, false)
                if e.2 then { r with m := { r.m with bad := true } }
                else s.addStep (s.pasidOf x.owner) src dst r (ix, ix.set (c.pay 36 3) e.1.toNat)) ⟨moverStart, [], []⟩)
            0 1 (if firstOob (dst.extent.getD (c.pay 36 3) 1) es < es.length then some idx.index else none))
          ∧ (dst.buf.host = true → opalMoved s u p slot x c d
            ((scatterOrder src (c.pay 36 3) (firstOob (dst.extent.getD (c.pay 36 3) 1) es)
              (d.overlap || (d.twice && s.steady x.owner)) order).foldl (fun m ix =>
                let e := es.getD (ix.getD (c.pay 36 3) 0) (0, false)
                if e.2 then { m with bad := true }
                else s.addOne (s.pasidOf x.owner) m src dst ix (ix.set (c.pay 36 3) e.1.toNat)) moverStart)
            (if firstOob (dst.extent.getD (c.pay 36 3) 1) es < es.length then some idx.index else none)))
  ∧ ((∀ (s : State) (idx : Nat) (a : OrdAdd), s.adds[idx]? = some a →
      (((s.adds.take idx ++ s.refused).any fun b => b.core = a.core ∧ b.line = a.line) = true
          ∨ s.inOrder a.core a.stamp [a.line] = false ∨ s.rangeHeld (a.line * 64) 64 = true →
        exec (.orderedAddArrive idx) s = .next s)
      ∧ (((s.adds.take idx ++ s.refused).any fun b => b.core = a.core ∧ b.line = a.line) = false →
        s.inOrder a.core a.stamp [a.line] = true → s.rangeHeld (a.line * 64) 64 = false →
        (s.rangeLost (a.line * 64) 64 = true → exec (.orderedAddArrive idx) s
          = .next ((({ s with adds := s.adds.eraseIdx idx } : State).failAdd a (ePerm, 0)).afterRelease a.core))
        ∧ (s.rangeLost (a.line * 64) 64 = false → (∀ l ∈ s.ordered, l.line ≠ a.line) → s.faultless a →
          ∃ u : State, exec (.orderedAddArrive idx) s = .next u.settle ∧ u.adds = s.adds.eraseIdx idx
            ∧ (a.ordinal = 0 → u.mem = (s.applyAdd a).mem ∧ u.poison = (s.applyAdd a).poison
                ∧ u.ordered = if a.contribs ≤ 1 then s.ordered else s.ordered ++ [⟨a.line, 1, [], s.time.clk, none⟩])
            ∧ (a.ordinal ≠ 0 → s.orderedWait (s.homeOf a.line) < 1024 → u.mem = s.mem ∧ u.poison = s.poison
                ∧ u.ordered = s.ordered ++ [⟨a.line, 0, [a], s.time.clk, none⟩])
            ∧ (a.ordinal ≠ 0 → 1024 ≤ s.orderedWait (s.homeOf a.line) → u.mem = s.mem ∧ u.poison = s.poison
                ∧ u.ordered = s.ordered ∧ u.refused = s.refused ++ [a]))))
    ∧ (∀ (s : State) (idx : Nat) (a : OrdAdd), s.refused[idx]? = some a →
      exec (.orderedAddRetry idx) s = .next { s with refused := s.refused.eraseIdx idx, adds := a :: s.adds })
    ∧ (∀ (s : State) (line : Nat) (l : OrdLine), s.ordered.find? (fun l => l.line = line) = some l →
      s.fld F.SYNC_CTL_wait_limit_ms 0 ≠ 0 → l.waiting ≠ [] → l.late = none →
      l.since + s.fld F.SYNC_CTL_wait_limit_ms 0 * 1000000 ≤ s.time.clk → (∀ a ∈ l.waiting, s.faultless a) →
      ∃ u : State, exec (.orderedAddTimeout line) s = .next u.settle
        ∧ u.poisoned (line * 64) = true
        ∧ u.mem = ((l.waiting.mergeSort fun a b => a.ordinal ≤ b.ordinal).foldl State.applyAdd s).mem
        ∧ (∀ q ∈ u.ordered, q.line = line → q.waiting = []) ∧ u.adds = s.adds ∧ u.signals = s.signals)
    ∧ ∀ (s : State) (a : OrdAdd) (off v : Nat), a.elems = [(off, v)] →
      leNat ((s.applyAdd a).bytesAt (a.line * 64 + off) (elemBytes a.fmt))
          = addElem a.fmt (leNat (s.bytesAt (a.line * 64 + off) (elemBytes a.fmt))) v % 256 ^ elemBytes a.fmt
      ∧ ∀ k, k < a.line * 64 + off ∨ a.line * 64 + off + elemBytes a.fmt ≤ k →
          (s.applyAdd a).byte k = s.byte k)
  ∧ (∀ (s : State) (p slot i : Nat) (f : Flight),
      (s.core p).loose.findIdx? (fun f => f.slot = slot && s.landable p 7 f.seq f.stamp f.lines) = some i →
      (s.core p).loose[i]? = some f →
      ∃ u : State, exec (.opalTransactionDone p slot) s = .next (u.afterRelease p)
        ∧ (u.core p).loose = (s.core p).loose.eraseIdx i ∧ (∀ q sl, q ≠ p ∨ sl ≠ 7 → u.ctx q sl = s.ctx q sl)
        ∧ (s.transLost f.lines = false → u.mem = (s.land p 7 f.seq f.owner f.lines).mem
            ∧ u.poison = (s.land p 7 f.seq f.owner f.lines).poison)
        ∧ (s.transLost f.lines = true → u = { s with cores := u.cores }))
  ∧ (∀ (s : State) (p slot : Nat) (x : Ctx) (c : QCmd),
      (s.core p).loose.findIdx? (fun f => f.slot = slot && s.landable p 7 f.seq f.stamp f.lines) = none →
      s.ctx p slot = some x → x.moving = some c → 0 < c.inFlight → x.cmd c.seq = some c → c.fault = none →
      (0 < c.readsLeft → ∃ (u : State) (y : Ctx) (d : QCmd), exec (.opalTransactionDone p slot) s
          = .next (u.afterRelease p) ∧ u.ctx p slot = some y ∧ y.cmd c.seq = some d
        ∧ d.toIssue + d.inFlight + 1 = c.toIssue + c.inFlight ∧ d.readsLeft + 1 = c.readsLeft ∧ d.todo = c.todo
        ∧ (d.phase = .worked → d.toIssue = 0 ∧ d.inFlight = 0)
        ∧ (∀ q sl, q ≠ p ∨ sl ≠ slot → u.ctx q sl = s.ctx q sl) ∧ u = { s with cores := u.cores, adds := u.adds })
      ∧ (∀ i tr, c.readsLeft = 0 →
          (c.issued.zip c.stamps).findIdx? (fun t => s.landable p slot c.seq t.2 t.1) = some i → c.todo[i]? = some tr →
          s.transLost tr = false → (∀ o ∈ tr, o.line * 64 < 2 ^ 70) →
        ∃ (u : State) (y : Ctx) (d : QCmd), exec (.opalTransactionDone p slot) s = .next (u.afterRelease p)
          ∧ u.ctx p slot = some y ∧ y.cmd c.seq = some d
          ∧ d.toIssue + d.inFlight + 1 = c.toIssue + c.inFlight ∧ d.todo = c.todo.eraseIdx i
          ∧ (d.phase = .worked → d.toIssue = 0 ∧ d.inFlight = 0)
          ∧ u.mem = (s.land p slot c.seq x.owner tr).mem ∧ u.poison = (s.land p slot c.seq x.owner tr).poison
          ∧ regsKept s u [.OPAL_EVENTS] ∧ ∀ q sl, q ≠ p ∨ sl ≠ slot → u.ctx q sl = s.ctx q sl)
      ∧ (c.readsLeft = 0 →
          (c.issued.zip c.stamps).findIdx? (fun t => s.landable p slot c.seq t.2 t.1) = none →
        ∃ u : State, exec (.opalTransactionDone p slot) s = .next (u.afterRelease p) ∧ memKept s u
          ∧ ∀ y d, u.ctx p slot = some y → y.cmd c.seq = some d → d.todo = c.todo))
  ∧ ∀ (s : State) (p slot seq owner : Nat) (o : LineOut), o.line * 64 < 2 ^ 70 →
      (o.add = none → (o.bytes.map (·.1)).Nodup →
        (∀ e ∈ o.bytes, (s.landLine p slot seq owner o).byte e.1 = BitVec.ofNat 8 e.2)
        ∧ (∀ a, (∀ e ∈ o.bytes, e.1 ≠ a) → (s.landLine p slot seq owner o).byte a = s.byte a)
        ∧ ∀ a, (s.landLine p slot seq owner o).tagged a = if a / 64 = o.line then
            (o.bytes.any fun e => bitOf e.2 8) || (o.bytes.length ≠ 64 && s.tagged a)
          else s.tagged a)
      ∧ ∀ a, o.add = some a → o.ordered = none → o.bytes = [] →
        s.landLine p slot seq owner o = s.applyAdd { a with core := p, slot := slot }

/-- R176: from any code word of k data bytes with P and Q, at most two lost bytes are rebuilt. -/
def Obligations.ParityRebuildsTwoLostBytes : Prop :=
  ∀ (k : Nat) (ds w lost : List Nat), 1 ≤ k → k ≤ 14 → ds.length = k → (∀ v ∈ ds, v < 256) →
    w.length = k + 2 →
    (lost = [] ∨ (∃ a, a < k + 2 ∧ lost = [a]) ∨ ∃ a b, a < b ∧ b < k + 2 ∧ lost = [a, b]) →
    (∀ i, i < k + 2 → i ∉ lost → w.getD i 0 = (ds ++ [parityP ds, parityQ ds]).getD i 0) →
    parityRebuild k w lost = ds ++ [parityP ds, parityQ ds]

/-- R174, R176: OPARITY_ENC writes the P and Q shards of its data shards, and OPARITY_REBUILD the lost shards, in
element order, from the shards as they were.
Choices of the model in it: log entry 50. -/
def Obligations.ParityCommands : Prop :=
  ∀ (s : State) (p slot n : Nat) (x : Ctx) (c : QCmd) (l : CList) (d : OpalPlan) (t : Tensor) (rest : List Tensor)
      (enc : Bool), d.os.map (·.t) = t :: rest →
    opalReady s p slot (if enc then 6 else 7) x c n l d (s.parityPlan enc) →
    ∃ u : State, exec (if enc then .oparityEnc p slot else .oparityRebuild p slot) s = .next u.settle
      ∧ opalMoved s u p slot x c d
        ((c.lostShards enc).foldl (fun m i => (List.range (t.extent.headD 0)).foldl (fun m j =>
          let w := s.shardBytes (s.pasidOf x.owner) t (c.pay 12 4) (c.lostShards enc) j
          s.putElem (s.pasidOf x.owner) { m with bad := m.bad || w.any (·.2) } t [j, i, 0, 0, 0]
            ((parityRebuild (c.pay 12 4) (w.map (·.1)) (c.lostShards enc)).getD i 0) (w.any (·.2))) m) moverStart)
        none

/-! ### Memory and contexts (chapters 7 and 8) -/

/-- R185, R186: a read of a vault line delivers its bytes with its tag; an uncorrectable line is poisoned, and each
finding is counted.
R186: a write within a vault line stores its bytes and no other; a write with poison and a merge with an
uncorrectable line poison the line, a write of the whole line without poison clears its tag, and a partial one
leaves it.
R22, R189: a request to a core that awaits its spare, or to a bank whose row is being copied, is held.
R23: a read of a core that is not mapped delivers nothing, and a write to it is lost.
Choices of the model in it: log entry 169. -/
def Obligations.VaultLines : Prop :=
  (∀ (s : State) (addr n off p : Nat) (found : LineCheck), locate addr = .vault n off → s.physOf n = some p →
      s.vaultWaits p off = false →
      ∃ t, exec (.vaultLineRead addr found) s = .next t
        ∧ t.lastRead = leNat (s.bytesAt (addr / 64 * 64) 64)
        ∧ t.lastPoison = (s.poisoned addr || found = .uncorrectable)
        ∧ t.mem = s.mem
        ∧ (∀ a, t.poisoned a = (s.poisoned a || (found = .uncorrectable && a / 64 = addr / 64)))
        ∧ (found = .correctable → countedUp s t F.CORE_VAULT_ECC_corrected p
            ∧ t.fld F.CORE_VAULT_ECC_uncorrected p = s.fld F.CORE_VAULT_ECC_uncorrected p)
        ∧ (found = .uncorrectable → countedUp s t F.CORE_VAULT_ECC_uncorrected p
            ∧ t.fld F.CORE_VAULT_ECC_corrected p = s.fld F.CORE_VAULT_ECC_corrected p)
        ∧ (t.lastPoison = true → countedUp s t F.CORE_VAULT_ECC_poison_reads p)
        ∧ (found = .clean → s.poisoned addr = false → t.regs = s.regs)
        ∧ ∀ q sl, t.ctx q sl = s.ctx q sl)
  ∧ (∀ (s : State) (addr n off p : Nat) (data : Bytes) (poison : Bool) (found : LineCheck),
      locate addr = .vault n off → s.physOf n = some p → data ≠ [] → addr % 64 + data.length ≤ 64 →
      s.vaultWaits p off = false →
      ∃ t, exec (.vaultLineWrite addr data poison found) s = .next t
        ∧ t.bytesAt addr data.length = data
        ∧ (∀ a, a < addr ∨ addr + data.length ≤ a → t.byte a = s.byte a)
        ∧ (∀ a, t.poisoned a = if a / 64 = addr / 64 then
              poison || (if data.length = 64 then false else s.poisoned addr || found = .uncorrectable)
            else s.poisoned a)
        ∧ ∀ q sl, t.ctx q sl = s.ctx q sl)
  ∧ (∀ (s : State) (addr n off p : Nat) (data : Bytes) (poison : Bool) (found : LineCheck),
      locate addr = .vault n off → s.physOf n = some p → s.vaultWaits p off = true →
      exec (.vaultLineRead addr found) s = .next (s.holdMem p (.read addr found))
      ∧ (data ≠ [] → addr % 64 + data.length ≤ 64 →
        exec (.vaultLineWrite addr data poison found) s = .next (s.holdMem p (.write addr data poison found))))
  ∧ ∀ (s : State) (addr n off : Nat) (data : Bytes) (poison : Bool) (found : LineCheck),
      locate addr = .vault n off → s.physOf n = none →
      exec (.vaultLineRead addr found) s = .next { s with lastRead := 0, lastPoison := true }
      ∧ exec (.vaultLineWrite addr data poison found) s = .next s

/-- R187, R193, R197: scrubbing reads a line, counts what it finds, poisons an uncorrectable line and counts its
passes; it changes no byte.
R188, R190: the copy of a row ends with the row redirected to a spare row of its bank, and that of a bank with
the bank redirected to the spare bank of its pseudo-channel; both are counted, no byte changes, and the requests to
the bank that were held are served (R189).
Choices of the model in it: log entry 56. -/
def Obligations.ScrubbingAndSparing : Prop :=
  ((∀ (s : State) (p line : Nat) (found : LineCheck), p < 288 → line < 18874368 →
      ∃ t, exec (.vaultScrub p line found) s = .next t ∧ t.mem = s.mem
        ∧ (found = .correctable → countedUp s t F.CORE_VAULT_ECC_corrected p)
        ∧ (found = .uncorrectable → countedUp s t F.CORE_VAULT_ECC_uncorrected p
            ∧ ∀ n, s.logicalOf p = some n → t.poisoned (vaultAddr n (line * 64)) = true)
        ∧ (if line = 18874367 then countedUp s t F.CORE_VAULT_SPARE_scrub_passes p
           else t.fld F.CORE_VAULT_SPARE_scrub_passes p = s.fld F.CORE_VAULT_SPARE_scrub_passes p)
        ∧ (found = .clean → line ≠ 18874367 → t = s))
    ∧ (∀ (s : State) (addr n off p : Nat), locate addr = .spm n off → s.physOf n = some p →
      (∃ t, exec (.spmScrub addr .correctable) s = .next t ∧ countedUp s t F.CORE_SPM_ECC_corrected p ∧ memKept s t)
      ∧ ∃ t, exec (.spmScrub addr .uncorrectable) s = .next t ∧ countedUp s t F.CORE_SPM_ECC_uncorrected p
        ∧ t.mem = s.mem ∧ ∀ a, t.poisoned a = (s.poisoned a || a / 64 = addr / 64))
    ∧ (∀ (s : State) (addr k off : Nat), locate addr = .clm k off →
      (∃ t, exec (.spmScrub addr .correctable) s = .next t ∧ countedUp s t F.CLU_CLM_ECC_corrected k ∧ memKept s t)
      ∧ ∃ t, exec (.spmScrub addr .uncorrectable) s = .next t ∧ countedUp s t F.CLU_CLM_ECC_uncorrected k
        ∧ t.mem = s.mem ∧ ∀ a, t.poisoned a = (s.poisoned a || a / 64 = addr / 64))
    ∧ ∀ (s : State) (addr : Nat), exec (.spmScrub addr .clean) s = .next s)
  ∧ (∀ (s : State) (p : Nat) (c : SpareCopy) (rest : List SpareCopy),
      ((s.core p).spares.rowCopies = c :: rest → ∃ t u : State, exec (.rowCopyEnd p) s = .next t
        ∧ t = u.serveReady p
        ∧ (u.core p).spares.rowCopies = rest
        ∧ look false (u.core p).spares.redirected (rowKey c.bank c.row) = true
        ∧ look 0 (u.core p).spares.rowsUsed c.bank = look 0 (s.core p).spares.rowsUsed c.bank + 1
        ∧ countedUp s u F.CORE_VAULT_SPARE_rows_remapped p ∧ fldKept s u F.CORE_VAULT_SPARE_rows_remapped p
        ∧ u = { s with regs := u.regs, cores := u.cores } ∧ (∀ q sl, u.ctx q sl = s.ctx q sl)
        ∧ ((∀ r ∈ (s.core p).memHeld, u.memWaits r = true) →
            ∃ w : State, t = w.serveLandings ∧ memKept s w ∧ w.regs = u.regs ∧ (w.core p).spares = (u.core p).spares)
        ∧ (t.core p).memHeld = (s.core p).memHeld.filter u.memWaits)
      ∧ ((s.core p).spares.bankCopies = c :: rest → c.bank < 128 → ∃ t u : State, exec (.bankCopyEnd p) s = .next t
        ∧ t = u.serveReady p
        ∧ (u.core p).spares.bankCopies = rest
        ∧ look 0 (u.core p).spares.spareBank (c.bank / 16) = c.bank + 1
        ∧ look 0 (u.core p).spares.rowsUsed c.bank = 0
        ∧ (u.fld F.CORE_VAULT_SPARE_banks_remapped p).testBit (c.bank / 16) = true
        ∧ u.fld F.CORE_VAULT_SPARE_bank_copy p = (if rest = [] then 0 else 1)
        ∧ regKept s u .CORE_VAULT_SPARE p
        ∧ u = { s with regs := u.regs, cores := u.cores } ∧ (∀ q sl, u.ctx q sl = s.ctx q sl)
        ∧ ((∀ r ∈ (s.core p).memHeld, u.memWaits r = true) →
            ∃ w : State, t = w.serveLandings ∧ memKept s w ∧ w.regs = u.regs ∧ (w.core p).spares = (u.core p).spares)
        ∧ (t.core p).memHeld = (s.core p).memHeld.filter u.memWaits))

/-- R196, R198: a released granule becomes free once it is zero and without poison, after the last drain and write of
the context that held it (R101, R126); no other byte changes.
R194, R198: a command held by a claim takes all its granules in one cycle once every one is free or its own,
and until then none.
R195: a request to another core's scratchpad is permitted where the granule is reached, and otherwise ends its
command with ERR_PERM; it is held while that core awaits its spare (R22).
Choices of the model in it: log entry 149. -/
def Obligations.GranulesAndRemoteRequests : Prop :=
  ((∀ (s : State) (p g n : Nat), g < 64 → bitOf (s.core p).zeroing g = true → s.logicalOf p = some n →
      (s.core p).lastDrains = false → s.looseMeets (granuleAddr n g) 0x10000 = false →
      ∃ u : State, exec (.granuleZeroEnd p g) s = .next u.settle
        ∧ zeroed s u (spmAddr n (g * 0x10000)) 0x10000
        ∧ (∀ h, bitOf (u.core p).zeroing h = (bitOf (s.core p).zeroing h && h ≠ g))
        ∧ (∀ q sl, u.ctx q sl = s.ctx q sl) ∧ u = { s with mem := u.mem, poison := u.poison, cores := u.cores })
    ∧ (∀ (s : State) (p g n : Nat), s.logicalOf p = some n →
      (s.core p).lastDrains = true ∨ s.looseMeets (granuleAddr n g) 0x10000 = true →
      exec (.granuleZeroEnd p g) s = .next s)
    ∧ (∀ (s : State) (k g : Nat), s.looseMeets (clmAddr k (g * 0x10000)) 0x10000 = true →
      exec (.clmGranuleZeroEnd k g) s = .next s)
    ∧ ∀ (s : State) (k g : Nat), k < 32 → g < 128 → s.fld F.CLU_CLM_GRANULE_zeroing (k * 128 + g) ≠ 0 →
      s.looseMeets (clmAddr k (g * 0x10000)) 0x10000 = false →
      ∃ u : State, exec (.clmGranuleZeroEnd k g) s = .next u.settle
        ∧ zeroed s u (clmAddr k (g * 0x10000)) 0x10000
        ∧ u.fld F.CLU_CLM_GRANULE_zeroing (k * 128 + g) = 0
        ∧ fldKept s u F.CLU_CLM_GRANULE_zeroing (k * 128 + g)
        ∧ u = { s with mem := u.mem, poison := u.poison, regs := u.regs })
  ∧ (∀ (s : State) (p slot e : Nat) (x : Ctx) (c : QCmd), s.ctx p slot = some x → x.head e = some c →
      c.claim = true → slot < 4 →
      (s.claimable p slot x.owner c.needs c.needsClm = true → (∀ g ∈ c.needs, g < 64) →
        ∃ u : State, exec (.granuleClaimDeferred p slot e) s = .next u.settle
          ∧ (∀ g, bitOf (u.fld F.CORE_SPM_OWNER_granules (p * 4 + slot)) g
              = (bitOf (s.fld F.CORE_SPM_OWNER_granules (p * 4 + slot)) g || c.needs.contains g))
          ∧ (x.owner < 512 → ∀ i ∈ c.needsClm, u.fld F.CLU_CLM_GRANULE_owner i = x.owner)
          ∧ (∀ i, i ∉ c.needsClm → u.fld F.CLU_CLM_GRANULE_owner i = s.fld F.CLU_CLM_GRANULE_owner i)
          ∧ (∀ r i, r ≠ .CLU_CLM_GRANULE → (r ≠ .CORE_SPM_OWNER ∨ i ≠ p * 4 + slot) → u.reg r i = s.reg r i)
          ∧ u.ctx p slot = some { x with queue := x.queue.map fun d => if d.seq = c.seq then
              { d with claim := false, needs := [], needsClm := [] } else d }
          ∧ (∀ q sl, q ≠ p ∨ sl ≠ slot → u.ctx q sl = s.ctx q sl) ∧ u = { s with regs := u.regs, cores := u.cores })
      ∧ (s.claimable p slot x.owner c.needs c.needsClm = false →
        exec (.granuleClaimDeferred p slot e) s = .next s))
  ∧ (∀ (s : State) (p slot addr m off n : Nat) (x : Ctx) (c : QCmd) (rest : List QCmd), locate addr = .spm m off →
      s.ctx p slot = some x → s.logicalOf p = some n →
      (∀ q, s.physOf m = some q → s.coreDown q = true →
        exec (.remoteSpmRequest p slot addr) s = .next (s.holdMem q (.remote p slot addr)))
      ∧ ((∀ q, s.physOf m = some q → s.coreDown q = false) →
      ((m = n ∨ s.mayReach x.owner n addr 1 false = true) → exec (.remoteSpmRequest p slot addr) s = .next s)
      ∧ (m ≠ n → s.mayReach x.owner n addr 1 false = false → x.queueOf 2 = c :: rest → c.phase = .started →
        exec (.remoteSpmRequest p slot addr) s = .next ((s.failCmd p slot c (ePerm, 0)).afterRelease p))))

/-- R200, R365, R481: the manager writes the owner and the access bits of a page; that of the page being zeroed
waits; a TDISP-locked slice keeps its pages. A page whose zeroing ends is zero and released or kept, and then a
deferred write applies.
Choices of the model in it: log entry 57. -/
def Obligations.VaultPages : Prop :=
  (∀ (s : State) (p page v : Nat), p < 288 → page < 576 →
    (s.tdiLocked (s.fld F.CORE_VAULT_PAGE_owner (p * 576 + page)) = true →
      ∃ t, exec (.coreVaultPageWrite p page v) s = .next t ∧ onlyRegs s t ∧ regKept s t .DEV_BAD_ACCESS 0)
    ∧ (s.tdiLocked (s.fld F.CORE_VAULT_PAGE_owner (p * 576 + page)) = false →
      s.zeroingPage (p * 576 + page) = none →
      ∃ t, exec (.coreVaultPageWrite p page v) s = .next t ∧ onlyRegs s t
        ∧ t.fld F.CORE_VAULT_PAGE_owner (p * 576 + page) = v % 2 ^ 9
        ∧ t.fld F.CORE_VAULT_PAGE_others_rd (p * 576 + page) = v / 2 ^ 9 % 2
        ∧ t.fld F.CORE_VAULT_PAGE_others_wr (p * 576 + page) = v / 2 ^ 10 % 2
        ∧ regKept s t .CORE_VAULT_PAGE (p * 576 + page))
    ∧ ∀ sl, s.tdiLocked (s.fld F.CORE_VAULT_PAGE_owner (p * 576 + page)) = false →
      s.zeroingPage (p * 576 + page) = some sl →
      ∃ t, exec (.coreVaultPageWrite p page v) s = .next t ∧ t.regs = s.regs
        ∧ t.slice sl = { s.slice sl with deferred := some v } ∧ (∀ k, k ≠ sl → t.slice k = s.slice k)
        ∧ t = { s with slices := t.slices })
  ∧ ∀ (s : State) (sl i n : Nat) (rest : List Nat), (s.slice sl).zeroPages = i :: rest →
    s.logicalOf (i / 576) = some n →
    ∃ t, exec (.pageZeroEnd sl) s = .next t
      ∧ zeroed s t (vaultAddr n (i % 576 * 0x200000)) 0x200000
      ∧ ((s.slice sl).deferred = none → t.fld F.CORE_VAULT_PAGE_owner i
          = if (s.slice sl).release then 0x1FF else s.fld F.CORE_VAULT_PAGE_owner i)
      ∧ (∀ v, (s.slice sl).deferred = some v → t.fld F.CORE_VAULT_PAGE_owner i = v % 2 ^ 9)
      ∧ regKept s t .CORE_VAULT_PAGE i ∧ (t.slice sl).deferred = none
      ∧ (t.slice sl).zeroPages <:+ rest ∧ (∀ k, k ≠ sl → t.slice k = s.slice k)

/-- R203, R205: an eviction starts for a rental slot that holds a context not evicted, when none is under way.
R203, R204: an eviction copies every granule of the context, tags included, to its image in the save area and
gives the granules to zeroing, and where the context runs Beryl's registers and valid bits stand in the area as R262
lays them out; a restore copies the granules back, and the context comes back as its record, unchanged, holds it.
Choices of the model in it: log entries 11, 58. -/
def Obligations.EvictionAndRestore : Prop :=
  (∀ (s : State) (p slot : Nat),
      (s.fld F.CORE_CTX_CMD_busy p = 1 → ∃ u : State, exec (.ctxEvict p slot) s = .next u.settle ∧ onlyRegs s u
        ∧ u.fld F.CORE_CTX_CMD_last_result p = 2 ∧ fldKept s u F.CORE_CTX_CMD_last_result p)
      ∧ (s.fld F.CORE_CTX_CMD_busy p = 0 → s.evictable p slot = false →
        ∃ u : State, exec (.ctxEvict p slot) s = .next u.settle ∧ onlyRegs s u
          ∧ u.fld F.CORE_CTX_CMD_last_result p = 1 ∧ fldKept s u F.CORE_CTX_CMD_last_result p)
      ∧ (s.fld F.CORE_CTX_CMD_busy p = 0 → s.evictable p slot = true →
        ∃ u : State, exec (.ctxEvict p slot) s = .next u.settle
          ∧ u.fld F.CORE_CTX_CMD_busy p = 1 ∧ fldKept s u F.CORE_CTX_CMD_busy p
          ∧ u.core p = { s.core p with evict := some ⟨slot, false⟩ } ∧ (∀ q, q ≠ p → u.core q = s.core q)
          ∧ u = { s with regs := u.regs, cores := u.cores }))
  ∧ (∀ (s : State) (p slot n : Nat) (x : Ctx), p < 288 → 1 ≤ slot → slot < 4 → s.logicalOf p = some n →
      s.ctx p slot = some x →
      ((s.core p).evict = some ⟨slot, false⟩ → s.spillReady p slot n = true →
        ∃ (u : State) (y : Ctx), exec (.evictEnd p) s = .next (u.retireEvict p).settle
          ∧ (∀ g i, g < 64 → i < 0x10000 → bitOf (s.fld F.CORE_SPM_OWNER_granules (p * 4 + slot)) g = true →
              u.byte (imageAddr n slot g + i) = s.byte (granuleAddr n g + i)
              ∧ u.poisoned (imageAddr n slot g + i) = s.poisoned (granuleAddr n g + i))
          ∧ (∀ a, a < vaultAddr n (saveArea slot) ∨ vaultAddr n (saveArea slot) + 0x480000 ≤ a → u.byte a = s.byte a)
          ∧ u.ctx p slot = some y ∧ y.evicted = true
          ∧ ((∀ r ∈ (s.core p).port, r.slot ≠ slot) → y.queue = x.queue)
          ∧ (s.fld F.CORE_LEASE_STATUS_rental_slot p = slot →
              u.bytesAt (vaultAddr n (saveArea slot) + 0x66000) 16 = leBytes 16 (s.beryl p).valid
              ∧ ∀ i, i < 64 → u.bytesAt (vaultAddr n (saveArea slot) + 0x14000 + 64 * i) 64
                  = leBytes 64 ((s.beryl p).bank1.get i))
          ∧ y.savedGranules = s.fld F.CORE_SPM_OWNER_granules (p * 4 + slot)
          ∧ (u.core p).zeroing = (s.core p).zeroing ||| s.fld F.CORE_SPM_OWNER_granules (p * 4 + slot)
          ∧ u.fld F.CORE_CTX_CMD_busy p = 0 ∧ u.fld F.CORE_CTX_CMD_last_result p = 0)
      ∧ ((s.core p).evict = some ⟨slot, true⟩ → s.fld F.CORE_LEASE_STATUS_phase p = 0 →
        (∀ r ∈ s.spillRanges p slot n, s.rangeHeld r.1 r.2 = false) →
        s.bytesAt (vaultAddr n (saveArea slot)) 0x4000 = x.record →
        s.anyPoison (vaultAddr n (saveArea slot)) 0x4000 = false →
        ∃ (u : State) (y : Ctx), exec (.restoreEnd p) s = .next u.settle
          ∧ (∀ g i, g < 64 → i < 0x10000 → bitOf (s.fld F.CORE_SPM_OWNER_granules (p * 4 + slot)) g = true →
              u.byte (granuleAddr n g + i) = s.byte (imageAddr n slot g + i)
              ∧ u.poisoned (granuleAddr n g + i) = s.poisoned (imageAddr n slot g + i))
          ∧ (∀ a, a < spmAddr n 0 ∨ spmAddr n 0x400000 ≤ a → u.byte a = s.byte a)
          ∧ u.ctx p slot = some y ∧ y.evicted = false ∧ y.queue = x.queue
          ∧ u.fld F.CORE_CTX_CMD_busy p = 0 ∧ u.fld F.CORE_CTX_CMD_last_result p = 0))

/-! ### Lamplighter (chapter 9) -/

/-- R213, R214, R216, R228: a write to the sequence window without a credit is dropped and counted, and one that is no
command is counted; any other takes a credit and is processed in order, with the status of its first failing
check; with status 0 it does what its op says.
R228 to R230: the oldest ACK record is written at the head of the output ring with its phase bit when the ring has
room, and its credit returns; message 3 ends a count of records whose time is over.
Choices of the model in it: log entries 59, 63. -/
def Obligations.SequencesAndTheirRecords : Prop :=
  (∀ (s : State) (sl slot : Nat) (cmd : Bytes) (via : Option Nat) (c : SeqCmd), sl < 256 →
      s.fld F.SLC_STATE_state sl ≠ 0 → s.viaOk sl via = true → c = SeqCmd.ofBytes cmd →
      (16 ≤ slot ∨ cmd.length ≠ 128 → ∃ t, exec (seqCommand sl slot cmd via) s = .next t ∧ onlyRegs s t
        ∧ countedUp s t F.PORTAL_SEQ_CREDITS_seq_bad_write sl ∧ fldKept s t F.PORTAL_SEQ_CREDITS_seq_bad_write sl)
      ∧ (∃ t, exec (.seqWindowBadWrite sl) s = .next t ∧ onlyRegs s t
        ∧ countedUp s t F.PORTAL_SEQ_CREDITS_seq_bad_write sl ∧ fldKept s t F.PORTAL_SEQ_CREDITS_seq_bad_write sl)
      ∧ (slot < 16 → cmd.length = 128 →
        (s.seqOpen sl = false ∨ s.fld F.PORTAL_SEQ_CREDITS_seq_available sl = 0 →
          ∃ t, exec (seqCommand sl slot cmd via) s = .next t ∧ onlyRegs s t
            ∧ countedUp s t F.PORTAL_SEQ_CREDITS_seq_dropped sl ∧ fldKept s t F.PORTAL_SEQ_CREDITS_seq_dropped sl)
        ∧ (s.seqOpen sl = true → 0 < s.fld F.PORTAL_SEQ_CREDITS_seq_available sl →
          ∃ t, exec (seqCommand sl slot cmd via) s = .next t
            ∧ t.fld F.PORTAL_SEQ_CREDITS_seq_available sl + 1 = s.fld F.PORTAL_SEQ_CREDITS_seq_available sl
            ∧ (t.lampSlice sl).acks = (s.lampSlice sl).acks ++ [⟨c.op, s.seqStatus sl c, c.seqId⟩]
            ∧ t.mem = s.mem ∧ t.poison = s.poison ∧ t.cores = s.cores
            ∧ (s.seqStatus sl c ≠ 0 → t = { s with regs := t.regs, lamp := t.lamp }
                ∧ fldKept s t F.PORTAL_SEQ_CREDITS_seq_available sl)
            ∧ (s.seqStatus sl c = 0 → c.op = 1 → ∀ k, s.freeSeq (s.lampDie sl) = some k →
                look none t.seqs k = some (c.start sl (s.lampSlice sl).nextOrder)
                ∧ ∀ j, j ≠ k → look none t.seqs j = look none s.seqs j)
            ∧ (s.seqStatus sl c = 0 → c.op ≠ 1 → ∀ k q, s.findSeq sl c.seqId = some (k, q) →
                (c.op = 2 → look none t.seqs k = some { q with
                    state := 1, tokAddr := c.tokAddr, tree := [],
                    promptLeft := c.tokCount + (if q.pending.isSome then 1 else 0),
                    order := (s.lampSlice sl).nextOrder })
                ∧ (c.op = 3 → q.state ≠ 4 → q.inStep = true →
                    look none t.seqs k = some { q with state := 4, cancelPending := true })
                ∧ (c.op = 3 → q.state = 4 → t.seqs = s.seqs)
                ∧ (c.op = 3 → q.state ≠ 4 → q.inStep = false → (s.lampSlice q.slice).out = [] →
                    s.outRoom q.slice = true → look none t.seqs k = none
                      ∧ t.fld F.PORTAL_OUT_PTR_head q.slice = (s.fld F.PORTAL_OUT_PTR_head q.slice + 1) % 2 ^ 32)
                ∧ (c.op = 4 → (bitOf c.flags 3 = false ∨ q.inStep = true) →
                    look none t.seqs k = some (c.params q))
                ∧ (c.op = 2 ∨ c.op = 4 ∧ bitOf c.flags 3 = false → ∀ j, j ≠ k →
                    look none t.seqs j = look none s.seqs j)))))
  ∧ (∀ (s : State) (sl : Nat), sl < 256 →
      (∀ (a : Ack) (rest : List Ack), (s.lampSlice sl).out = [] → (s.lampSlice sl).acks = a :: rest →
        (s.outRoom sl = false → exec (.ackRecordWrite sl) s = .next s)
        ∧ (s.outRoom sl = true → ∃ t, exec (.ackRecordWrite sl) s = .next t
          ∧ (t.lampSlice sl).acks = rest
          ∧ t.fld F.PORTAL_SEQ_CREDITS_seq_available sl
              = (s.fld F.PORTAL_SEQ_CREDITS_seq_available sl + 1) % 2 ^ F.PORTAL_SEQ_CREDITS_seq_available.width
          ∧ t.fld F.PORTAL_OUT_PTR_head sl = (s.fld F.PORTAL_OUT_PTR_head sl + 1) % 2 ^ 32
          ∧ t.mem = s.mem ∧ t.poison = s.poison ∧ t.cores = s.cores ∧ t.seqs = s.seqs
          ∧ (landsAtOnce s sl → s.fld F.PORTAL_OUT_COAL_coal_records sl = 0 →
              t.hostBytes (s.pasidOf sl) (s.fld F.PORTAL_OUT_RING_base_4k sl * 4096
                  + s.fld F.PORTAL_OUT_PTR_head sl % s.outEntries sl * 64) 64
                = leBytes 1 2 ++ leBytes 1 (if s.fld F.PORTAL_OUT_PTR_head sl / s.outEntries sl % 2 = 0 then 1 else 0)
                  ++ leBytes 1 a.op ++ leBytes 1 a.status ++ leBytes 4 a.seqId ++ leBytes 56 0)))
      ∧ ((∀ since, (s.lampSlice sl).firstAt = some since → s.fld F.PORTAL_OUT_COAL_coal_us sl ≠ 0 →
          since + s.fld F.PORTAL_OUT_COAL_coal_us sl * 1000 ≤ s.time.clk →
          ∃ t, exec (.outputCoalesceTimeout sl) s = .next t
            ∧ t.lampSlice sl = { s.lampSlice sl with unsignalled := 0, firstAt := none }
            ∧ t.mem = s.mem ∧ t.cores = s.cores ∧ t.seqs = s.seqs
            ∧ ((s.slice sl).fenced = false → s.fld F.SLC_MSG_mask (sl * 8 + 3) = 1 →
                t.fld F.SLC_MSG_pending (sl * 8 + 3) = 1))
        ∧ ((s.lampSlice sl).firstAt = none → exec (.outputCoalesceTimeout sl) s = .next s)))

/-- R217 to R220, R229, R231, R232: a write of the binding is checked and reported; a build with rows to run writes the
step buffer, puts its sequences in the step, reserves the room of its output and submits the member lists, each to a
context of its core or, where it must wait, among the descriptors held there; a fixed batch is queued by STEP_TRIGGER
and starts when a step may, submitting the member lists likewise.  Neither starts while requests to the table or the
buffer are held (R22). -/
def Obligations.StepsStart : Prop :=
  ∀ (s : State) (sl : Nat), sl < 256 →
    (∀ v via, s.fld F.SLC_STATE_state sl ≠ 0 → s.viaOk sl via = true →
      ∃ t, exec (.stepBind sl v via) s = .next t ∧ onlyRegs s t
        ∧ t.fld F.PORTAL_STEP_BIND_table sl = v / 64 % 2 ^ 38
        ∧ t.fld F.PORTAL_SEQ_STATUS_bind_result sl
            = (if v / 64 % 2 ^ 38 = 0 then 0 else (s.bindCheck sl (v / 64 % 2 ^ 38 * 64)).getD 0) % 2 ^ 8
        ∧ ∀ r i, (r ≠ .PORTAL_STEP_BIND ∧ r ≠ .PORTAL_SEQ_STATUS) ∨ i ≠ sl → t.reg r i = s.reg r i)
    ∧ (s.mayStep sl = false ∨ s.bindHeld sl = true → exec (.stepBuild sl) s = .next s)
    ∧ (∀ (m : Template) (g : State × Build), s.mayStep sl = true → s.bindHeld sl = false → s.cutBits 6 sl 81 1 = 0 →
      ((s.reportBind sl).unstall sl).binding sl = some m → g = ((s.reportBind sl).unstall sl).gather sl m →
      (g.2.rows = 0 → exec (.stepBuild sl) s = .next g.1)
      ∧ (g.2.rows ≠ 0 →
        ∃ (u : State) (run : StepRun), exec (.stepBuild sl) s = .next u.settle
        ∧ (u.lampSlice sl).step = some run ∧ run.number = (g.1.lampSlice sl).nextStep + 1
        ∧ run.entries = g.2.entries ∧ run.fixed = false ∧ run.reserved = g.2.reserved
        ∧ u.mem = (g.1.writeStep m run.number g.2).mem ∧ membersSubmitted u sl m run.number
        ∧ u.bytesAt m.stepBuf 24 = leBytes 8 run.number ++ leBytes 4 g.2.rows ++ leBytes 4 g.2.entries.length
            ++ leBytes 8 g.1.tickNo
        ∧ (∀ a, a < m.stepBuf → u.byte a = g.1.byte a)
        ∧ (∀ e ∈ g.2.entries, ∀ q, look none g.1.seqs e.index = some q →
            ∃ r, look none u.seqs e.index = some r ∧ r.inStep = true ∧ r.lastStep = run.number)))
    ∧ (∀ (m : Template) (b : Nat × Bool × Nat) (rest : List (Nat × Bool × Nat)),
      (s.lampSlice sl).batches = b :: rest → s.binding sl = some m →
      (s.mayStep sl = false ∨ s.bindHeld sl = true → exec (.fixedBatchStart sl) s = .next s)
      ∧ (s.mayStep sl = true → s.bindHeld sl = false → ∃ (u : State) (run : StepRun), exec (.fixedBatchStart sl) s = .next u.settle
        ∧ (u.lampSlice sl).step = some run ∧ run.number = (s.lampSlice sl).nextStep + 1
        ∧ run.fixed = true ∧ run.entries = [] ∧ membersSubmitted u sl m run.number ∧ (run.doneId, run.doneEn, run.doneValue) = b
        ∧ (u.lampSlice sl).batches = rest ∧ u.mem = s.mem ∧ u.poison = s.poison ∧ u.seqs = s.seqs))
    ∧ ∀ (p slot : Nat) (x : Ctx) (c : QCmd), s.startOp p slot 3 7 = some (x, c) → x.owner = sl →
      s.cutBits 6 sl 81 1 = 1 → s.partitionOf sl = some (c.pay 0 8) → (s.binding sl).isSome = true →
      (c.pay 23 1 = 1 → s.permitted (c.pay 8 15) sl = true) → c.pay 56 72 = 0 →
      (s.lampSlice sl).batches.length < 4 →
      ∃ u : State, exec (.stepTrigger p slot) s = .next u.settle ∧ cmdEnded s u p slot c.seq 0
        ∧ u.lampSlice sl = { s.lampSlice sl with
            batches := (s.lampSlice sl).batches ++ [(c.pay 8 15, decide (c.pay 23 1 = 1), c.pay 24 32)] }
        ∧ (∀ k, k ≠ sl → u.lampSlice k = s.lampSlice k)
        ∧ u = { s with lamp := u.lamp, cores := u.cores } ∧ onlyContexts s u

/-- R223, R225, R226, R232: when every member list of a step has completed it ends and is counted; the sequences of
a failed step end, a chunk that is not the last advances its sequence, and the tokens that the walk accepts are
committed; a fixed batch adds its done value or breaks its object.  A step of a FROZEN slice does not end (R361), nor
one whose buffer is held (R22). -/
def Obligations.StepsComplete : Prop :=
  ∀ (s : State) (sl : Nat) (t : StepRun), (s.lampSlice sl).step = some t →
    (t.waiting ≠ [] ∨ s.fld F.SLC_STATE_state sl = 5 ∨ s.rangeHeld t.stepBuf (0x40 + 592 * t.rowsMax) = true →
      exec (.stepComplete sl) s = .next s)
    ∧ (t.waiting = [] → s.fld F.SLC_STATE_state sl ≠ 5 → s.rangeHeld t.stepBuf (0x40 + 592 * t.rowsMax) = false → ∃ u : State, exec (.stepComplete sl) s = .next u.settle
      ∧ (u.lampSlice sl).step = none
      ∧ u.fld F.LAMP_STATUS_steps_in_flight (s.lampDie sl) = s.fld F.LAMP_STATUS_steps_in_flight (s.lampDie sl) - 1
      ∧ wrappedUp s u F.LAMP_STATUS_steps (s.lampDie sl)
      ∧ u.mem = s.mem ∧ u.poison = s.poison ∧ u.cores = s.cores
      ∧ (t.fixed = true → ((s.lampSlice sl).out = [] → u.seqs = s.seqs ∧ u.host = s.host)
        ∧ (t.doneEn = false → u.signals = s.signals)
        ∧ (t.doneEn = true → t.failure = 0 →
            u.signals = s.signals ++ [⟨t.doneId, false, t.doneValue, 2 ^ 20 + sl, sl⟩])
        ∧ (t.doneEn = true → t.failure ≠ 0 → u.signals = s.signals
            ∧ (s.permitted t.doneId sl = true → u.fld F.SYNC_OBJ_broken t.doneId = 1)))
      ∧ (t.fixed = false → u.signals = s.signals
        ∧ ∀ e q, t.entries = [e] → look none s.seqs e.index = some q → q.state ≠ 4 → q.slice = sl →
          (∀ o ∈ (s.lampSlice sl).out, o.frees ≠ some e.index) →
          (t.failure ≠ 0 → look none u.seqs e.index = none
            ∨ ∃ r, look none u.seqs e.index = some r ∧ r.state = 4 ∧ r.inStep = false)
          ∧ (t.failure = 0 → s.stepPoison t = false → e.kind ≠ 2 → e.rows < q.promptLeft →
            q.n + e.rows + 1 < q.maxLen →
            look none u.seqs e.index = some { q with
              n := q.n + e.rows, promptLeft := q.promptLeft - e.rows, tokAddr := q.tokAddr + q.fetchLen e.rows,
              pending := none, inStep := false, commitBase := q.n, commitMask := 0 })
          ∧ (t.failure = 0 → s.stepPoison t = false → e.kind = 2 → q.n + 1 < q.maxLen →
            (q.cut q.n (s.walk t e.firstRow q.rowsTree 64 0)).2 = 0 →
            ∃ r, look none u.seqs e.index = some r ∧ r.state = 2 ∧ r.inStep = false
              ∧ r.n = q.n + (q.cut q.n (s.walk t e.firstRow q.rowsTree 64 0)).1.length
              ∧ r.commitMask = maskOf ((q.cut q.n (s.walk t e.firstRow q.rowsTree 64 0)).1.map (·.1))
              ∧ r.commitBase = q.n
              ∧ r.pending = some (((q.cut q.n (s.walk t e.firstRow q.rowsTree 64 0)).1.map (·.2)).getLastD 0)
              ∧ r.emitted = q.emitted + (q.cut q.n (s.walk t e.firstRow q.rowsTree 64 0)).1.length)))

/-- R233, R234, R484: a core whose blocked spell has lasted evicts a victim where its partition allows it, and
otherwise raises all_blocked; an idle context leaves its slot; a write of the spell times takes effect. -/
def Obligations.ContextManagement : Prop :=
  (∀ (s : State) (p w : Nat), s.spellDue p (s.core p).blockedSpell = true → (s.core p).heldSpell = none →
    s.wanting p = some w →
    ((s.autoEvict p = false ∨ s.victim p w = none) →
      ∃ u : State, exec (.allBlocked p) s = .next u.settle
        ∧ u.fld F.LAMP_CTX_EVENT_all_blocked (p / 144) = 1
        ∧ countedUp s u F.LAMP_CTX_EVENT_blocked_events (p / 144)
        ∧ u.mem = s.mem ∧ (∀ q sl, u.ctx q sl = s.ctx q sl) ∧ regKept s u .LAMP_CTX_EVENT (p / 144))
    ∧ ∀ v, s.autoEvict p = true → s.victim p w = some v → s.fld F.CORE_CTX_CMD_busy p = 0 →
      s.evictable p v = true →
      ∃ u : State, exec (.allBlocked p) s = .next u.settle
        ∧ countedUp s u F.LAMP_CTX_EVENT_auto_evictions (p / 144)
        ∧ (u.core p).evict = some ⟨v, false⟩ ∧ u.fld F.CORE_CTX_CMD_busy p = 1
        ∧ u.mem = s.mem ∧ ∀ q sl, u.ctx q sl = s.ctx q sl)
  ∧ (∀ (s : State) (p : Nat), s.spellDue p (s.core p).blockedSpell = false →
    s.spellDue p (s.core p).heldSpell = false → exec (.allBlocked p) s = .next s.settle)
  ∧ (∀ (s : State) (p slot : Nat),
    (s.idleDue p slot = true → (s.core p).held = [] →
      ∃ u : State, exec (.contextIdleRelease p slot) s = .next u.settle ∧ u.ctx p slot = none
        ∧ u.fld F.CORE_SPM_OWNER_granules (p * 4 + slot) = 0
        ∧ (∀ q sl, q ≠ p ∨ sl ≠ slot → u.ctx q sl = s.ctx q sl))
    ∧ (s.idleDue p slot = false → exec (.contextIdleRelease p slot) s = .next s.settle))
  ∧ ∀ (s : State) (d v : Nat), d < 2 → ∃ t, exec (.lampCtxCfgWrite d v) s = .next t
    ∧ t.fld F.LAMP_CTX_CFG_detect_us d
        = (if v % 2 ^ 10 = 0 then s.fld F.LAMP_CTX_CFG_detect_us d else v % 2 ^ 10)
    ∧ t.fld F.LAMP_CTX_CFG_idle_us d = v / 2 ^ 16 % 2 ^ 16

/-! ### Beryl (chapter 10) -/

/-- R256, R257, R260: BLOAD and BSTORE move lines between the scratchpad and a Beryl memory; BSETS sets scalar
registers; BPCLR clears the poison flag of its bank; BTRIM leaves its blocks zero and not valid; BRUN starts its
program at its first bundle with the windows that it binds. -/
def Obligations.BerylCommands : Prop :=
  ∀ (s : State) (p slot n : Nat) (x : Ctx) (c : QCmd) (l : CList) (b : Buf) (k : Nat) (bank : BerylBank)
      (found : List LineCheck),
    k = bankOfSlot slot → bank = s.berylBank p k →
    (berylReady s p slot 1 x c n l → s.moveCheck p slot n x c l false = .ok () → s.berBuf c l = .ok b →
      (slot ≠ 0 → s.claimable p slot x.owner (claimSets n [b]).1 (claimSets n [b]).2 = true) →
      ∃ u : State, exec (.bload p ⟨slot, found⟩) s = .next u.settle ∧ cmdWorked u p slot c.seq
        ∧ (∀ i, i < c.berLen → u.berylByte p (c.berMem * 2 ^ 20 + c.berOff + i) = s.byte (b.base + c.pay 12 28 + i))
        ∧ (∀ j, j < c.berMem * 2 ^ 20 + c.berOff ∨ c.berMem * 2 ^ 20 + c.berOff + c.berLen ≤ j →
            u.berylByte p j = s.berylByte p j)
        ∧ u.mem = s.mem ∧ ((∀ i, checkAt found i ≠ .uncorrectable) → u.poison = s.poison) ∧ (∀ q sl, q ≠ p ∨ sl ≠ slot → u.ctx q sl = s.ctx q sl))
    ∧ (berylReady s p slot 2 x c n l → s.moveCheck p slot n x c l true = .ok () → s.berBuf c l = .ok b →
      (slot ≠ 0 → s.claimable p slot x.owner (claimSets n [b]).1 (claimSets n [b]).2 = true) →
      ∃ u : State, exec (.bstore p ⟨slot, found⟩) s = .next u.settle ∧ cmdWorked u p slot c.seq
        ∧ (∀ i, i < c.berLen → u.byte (b.base + c.pay 12 28 + i) = s.berylByte p (c.berMem * 2 ^ 20 + c.berOff + i))
        ∧ (∀ a, a < b.base + c.pay 12 28 ∨ b.base + c.pay 12 28 + c.berLen ≤ a → u.byte a = s.byte a)
        ∧ (∀ j, u.berylByte p j = s.berylByte p j)
        ∧ (∀ q sl, q ≠ p ∨ sl ≠ slot → u.ctx q sl = s.ctx q sl))
    ∧ (berylReady s p slot 3 x c n l → s.brunCheck p slot n x c l = .ok () →
      (slot ≠ 0 → s.claimable p slot x.owner
        (claimSets n (c.bound.filterMap fun w => (s.berEntry c l w.2).toOption)).1
        (claimSets n (c.bound.filterMap fun w => (s.berEntry c l w.2).toOption)).2 = true) →
      ∃ u : State, exec (.brun p slot) s = .next u.settle ∧ cmdStarted u p slot c.seq
        ∧ (u.berylBank p k).running = true ∧ (u.berylBank p k).seq = c.seq ∧ (u.berylBank p k).loops = []
        ∧ (∀ r, (u.berylBank p k).get r = if r = kPC then c.pay 0 12 else bank.get r)
        ∧ (u.berylBank p k).seen = 0 ∧ (u.berylBank p k).stored = 0 ∧ (u.berylBank p k).tainted = false
        ∧ (u.berylBank p k).poison = bank.poison
        ∧ (∀ w i v, w < 8 → c.pay (12 + 12 * w) 12 = i → s.berEntry c l i = .ok v →
            i ≠ 0xFFF → (u.berylBank p k).windows.getD w none = some ⟨i, v.base, v.length, v.rd, v.wr⟩)
        ∧ (∀ w, w < 8 → c.pay (12 + 12 * w) 12 = 0xFFF → (u.berylBank p k).windows.getD w none = none)
        ∧ (∀ j, u.berylByte p j = s.berylByte p j) ∧ u.mem = s.mem ∧ u.poison = s.poison)
    ∧ (berylReady s p slot 4 x c n l → c.pay 6 2 = 0 → c.pay 104 24 = 0 → c.pay 0 4 + c.pay 4 2 ≤ 16 →
      ∃ u : State, exec (.bsets p slot) s = .next u.settle ∧ cmdWorked u p slot c.seq
        ∧ (∀ i, i < c.pay 4 2 → (u.berylBank p k).get (kS (c.pay 0 4 + i)) = c.pay (8 + 32 * i) 32)
        ∧ (∀ r, (∀ i, i < c.pay 4 2 → r ≠ kS (c.pay 0 4 + i)) → (u.berylBank p k).get r = bank.get r)
        ∧ (∀ j, u.berylByte p j = s.berylByte p j) ∧ u.mem = s.mem ∧ u.poison = s.poison)
    ∧ (berylReady s p slot 5 x c n l → c.pay 0 128 = 0 →
      ∃ u : State, exec (.bpclr p slot) s = .next u.settle ∧ cmdWorked u p slot c.seq
        ∧ u.berylBank p k = { bank with poison := false }
        ∧ (∀ j, u.berylByte p j = s.berylByte p j) ∧ u.mem = s.mem ∧ u.poison = s.poison)
    ∧ (berylReady s p slot 6 x c n l → slot ≠ 0 → c.pay 80 48 = 0 →
      (∀ i ∈ c.trimmed, s.berylRadio p (i / 32) ≤ i % 32 * 4096) →
      ∃ u : State, exec (.btrim p slot) s = .next u.settle ∧ cmdWorked u p slot c.seq
        ∧ (∀ j, u.berylByte p j = if (∃ i ∈ c.trimmed, i / 32 = j / 2 ^ 20 ∧ i % 32 = j % 2 ^ 20 / 4096) then 0
            else s.berylByte p j)
        ∧ (∀ i, bitOf (u.beryl p).valid i = (bitOf (s.beryl p).valid i && !c.trimmed.contains i))
        ∧ (∀ r, (u.berylBank p k).get r = bank.get r) ∧ u.mem = s.mem ∧ u.poison = s.poison)

/-- R242, R246 to R248, R253, R254, R258, R259: a bundle reads its registers before it writes any; the scalar slot
computes, the X slot loads and stores, the vector slot's flags are sticky, the program counter goes on, HALT ends
the program, and a fault ends it and skips its radio BRUN.
Choices of the model in it: log entries 64 to 66. -/
def Obligations.BundlesRun : Prop :=
  (∀ (s : State) (p bank : Nat) (f : LineCheck) (x y : List LineCheck), s.bankIssues p bank = false →
    exec (.bundle p bank f (x, y)) s = .next s)
  ∧ ∀ (s : State) (p w pc : Nat) (b : BerylBank), bundleReady s p w → b = s.berylBank p 0 → pc = b.get kPC →
    (b.loops = [] →
      (w % 2 ^ 96 = 0 → 0x10 ≤ bits w 120 8 → bits w 120 8 ≤ 0x1B →
        ∃ t, exec (.bundle p 0 .clean ([], [])) s = .next t ∧ t.beryl p = { s.beryl p with bank0 := t.berylBank p 0 }
          ∧ bundleRan s t p fun k =>
            if k = kS (bits w 116 4) then
              scalarOp (bits w 120 8) (b.get (kS (bits w 112 4))) (b.get (kS (bits w 108 4)))
            else if k = kPC then pc + 1 else b.get k)
      ∧ (∀ ws st, w % 2 ^ 48 = 0 → w / 2 ^ 96 = 0 → b.vSlot (bits w 48 48) = .ok (ws, st) →
        twice (ws.map (·.1)) = false → (∀ q ∈ ws, q.1 ≠ kPC ∧ q.1 ≠ kSTAT) →
        ∃ t, exec (.bundle p 0 .clean ([], [])) s = .next t ∧ t.beryl p = { s.beryl p with bank0 := t.berylBank p 0 }
          ∧ bundleRan s t p fun k =>
            if k = kPC then pc + 1
            else if k = kSTAT then b.get kSTAT ||| st
            else match ws.find? fun q => q.1 = k with
              | some q => q.2
              | none => b.get k)
      ∧ (∀ key, w / 2 ^ 24 = 0 → bits w 20 4 = 1 → bits w 6 4 = 0 →
        s.berylTarget p 0 b 0 (add32 (b.get (kP (bits w 10 4))) (toSigned 6 (bits w 0 6) * 64)) 64 false
          = .ok (.own key) → s.berylTagged p key 64 = false →
        ∃ t, exec (.bundle p 0 .clean ([], [])) s = .next t ∧ t.beryl p = { s.beryl p with bank0 := t.berylBank p 0 }
          ∧ bundleRan s t p fun k =>
            if k = kPC then pc + 1
            else if k = b.phys (bits w 14 6) then leNat (s.berylBytes p key 64)
            else b.get k)
      ∧ (∀ key, w / 2 ^ 24 = 0 → bits w 20 4 = 3 → bits w 6 4 = 0 →
        s.berylTarget p 0 b 0 (add32 (b.get (kP (bits w 10 4))) (toSigned 6 (bits w 0 6) * 64)) 64 true
          = .ok (.own key) →
        ∃ t, exec (.bundle p 0 .clean ([], [])) s = .next t
          ∧ bundleRan s t p (fun k => if k = kPC then pc + 1 else b.get k)
          ∧ t.berylBytes p key 64 = leBytes 64 (b.c (bits w 14 6))
          ∧ ∀ j, j < key ∨ key + 64 ≤ j → t.berylByte p j = s.berylByte p j))
    ∧ (w % 2 ^ 96 = 0 → bits w 120 8 = 1 →
      ∃ u : State, exec (.bundle p 0 .clean ([], [])) s = .next u.settle ∧ cmdWorked u p 0 b.seq
        ∧ (u.berylBank p 0).running = false ∧ (u.berylBank p 0).seen = 0 ∧ u.mem = s.mem ∧ u.poison = s.poison)
    ∧ ∀ code detail x c, s.runBundle p 0 0 [] [] = .error (code, detail) → s.ctx p 0 = some x →
      x.cmd b.seq = some c →
      ∃ u : State, exec (.bundle p 0 .clean ([], [])) s = .next u.settle
        ∧ (∃ y, u.ctx p 0 = some y ∧ ∀ d, y.cmd b.seq = some d →
            d.phase = .worked ∧ d.err = code ∧ d.detail = detail ∧ d.noSignal = true)
        ∧ (u.berylBank p 0).running = false ∧ u.mem = s.mem ∧ u.poison = s.poison

/-! ### Cells, Jasper and the fronthaul (chapters 11 to 13) -/

/-- R271 to R275, R415, R419, R426: a START, STOP or RECONFIG is checked when it is written, and its result shown; one
whose configuration PF1 may not fetch yet is held; a configuration that is fetched goes to the twin of a pair; an
accepted command waits for its frame and then acts; a START creates the radio contexts; a STOP ends the queued slot
work, the soft buffers and the frames not yet sent, and with the last cell of a handover the handover is done; a write
of CLU_LANT_CTL runs or stops the Lantern, which a fault stops.
Choices of the model in it: log entries 33, 73, 78, 80, 81, 161 and 162. -/
def Obligations.CellCommands : Prop :=
  (∀ (s : State) (op cell f : Nat) (next : Bool) (code : Nat) (b base : Bytes), 1 ≤ op → op ≤ 3 → cell < 1024 →
    s.pf1Ready = true → b = s.hostBytes none (s.cfgAddr cell) 128 → code = s.cmdCheck cell op b →
    base = (if op = 1 then b else (s.cell cell).config) →
    (op ≠ 2 → s.cmdState cell op = 0 → s.canIssue 1 = false →
      ∃ t, exec (cellCommand op cell next f) s = .next t ∧ t = { s with cells := t.cells }
        ∧ t.cell cell = { s.cell cell with fetch := some ⟨op, next, f, s.time.clk⟩ }
        ∧ ∀ c, c ≠ cell → t.cell c = s.cell c)
    ∧ (op = 2 ∨ s.cmdState cell op ≠ 0 ∨ s.canIssue 1 = true →
    (code ≠ 0 → ∃ t, exec (cellCommand op cell next f) s = .next t ∧ t = { s with regs := t.regs, clink := t.clink }
      ∧ t.fld F.CLU_CELL_STATE_last_result cell = code
      ∧ (s.paired = false ∨ op = 2 ∨ s.cmdState cell op ≠ 0 ∨ s.cfgFetchFails cell = true →
          t.clink = s.clink ∧ fldKept s t F.CLU_CELL_STATE_last_result cell)
      ∧ (s.paired = true → op ≠ 2 → s.cmdState cell op = 0 → s.cfgFetchFails cell = false →
          t.clink.sent = s.clink.sent ++ [.mirror (.cellConfig cell b)]
            ∧ regsKept s t [.CLU_CELL_STATE, .CLINK_TWIN_STATUS]))
    ∧ (code = 0 → ∃ t, exec (cellCommand op cell next f) s = .next t
      ∧ t.fld F.CLU_CELL_STATE_last_result cell = 0
      ∧ t.cell cell = { s.cell cell with
          waiting := some ⟨op, cmdInstant base next (f % 1024) s.total, b⟩ }
      ∧ (∀ c, c ≠ cell → t.cell c = s.cell c)
      ∧ (op = 1 → t.fld F.CLU_CELL_STATE_state cell = 1 ∧ t.reg .CLU_CELL_CNT cell = 0
          ∧ ∀ n ∈ s.cellCores cell, ∀ p, s.physOf n = some p → (t.ctx p 0).isSome = true)
      ∧ (op = 2 → t.fld F.CLU_CELL_STATE_state cell = 3)
      ∧ (op = 3 → t.fld F.CLU_CELL_STATE_state cell = s.fld F.CLU_CELL_STATE_state cell)
      ∧ (s.paired = true → t.clink.sent = s.clink.sent
          ++ [.mirror (if op = 2 then .cellStop cell (s.tickAt (cmdInstant base next (f % 1024) s.total))
              else .cellConfig cell b)])
      ∧ (s.paired = false → t.clink = s.clink)
      ∧ t.mem = s.mem ∧ t.poison = s.poison
      ∧ ∀ q sl, (sl ≠ 0 ∨ (s.ctx q 0).isSome = true ∨ op ≠ 1) → t.ctx q sl = s.ctx q sl)))
  ∧ (∀ (s : State) (cell : Nat),
    ((s.cell cell).waiting = none → exec (.cellFrameAction cell) s = .next s)
    ∧ ∀ w, (s.cell cell).waiting = some w →
      (s.total < w.at' → exec (.cellFrameAction cell) s = .next s)
      ∧ (w.at' ≤ s.total → (w.op = 2 → s.codecFree cell) → ∃ t, exec (.cellFrameAction cell) s = .next t
        ∧ (t.cell cell).waiting = none ∧ (∀ c, c ≠ cell → t.cell c = s.cell c) ∧ t.cores = s.cores
        ∧ (w.op = 1 → t.fld F.CLU_CELL_STATE_state cell = 2 ∧ (t.cell cell).config = w.config ∧ t.mem = s.mem
            ∧ (t.cell cell).inputs = (s.cell cell).inputs ++ [.config w.config])
        ∧ (w.op = 2 → t.fld F.CLU_CELL_STATE_state cell = 0 ∧ (t.cell cell).plan = none ∧ (t.cell cell).work = []
            ∧ (∀ a ∈ (s.cell cell).harq, ∀ i, i < 32 → t.byte (a + i) = 0)
            ∧ (∀ k, (∀ a ∈ (s.cell cell).harq, k < a ∨ a + 32 ≤ k) → t.byte k = s.byte k)
            ∧ (∀ g prio, g < s.cellGroups cell → prio < 2 → t.leaf (2 * s.subNode cell g + prio) = []
                ∧ t.deficitOf (2 * s.subNode cell g + prio) = 0)
            ∧ (s.clink.twin.moving ≠ [] → (∀ m ∈ s.clink.twin.moving, m.1 = cell) →
                t.clink.twin.moving = [] ∧ ∀ c ∈ s.twinPorts, t.fld F.CLINK_TWIN_STATUS_handover_done c = 1))
        ∧ (w.op = 3 → (t.cell cell).config = (s.cell cell).config.take 6 ++ w.config.drop 6
            ∧ t.regs = s.regs ∧ t.mem = s.mem)))
  ∧ (∀ (s : State) (k v : Nat), k < 32 → s.pf1Ready = true →
    ∃ t, exec (.cluLantCtlWrite k v) s = .next t ∧ onlyRegs s t ∧ regKept s t .CLU_LANT_CTL k
      ∧ t.fld F.CLU_LANT_CTL_entry k = v % 2 ^ 23 ∧ t.fld F.CLU_LANT_CTL_run k = v / 2 ^ 24 % 2
      ∧ t.fld F.CLU_LANT_CTL_running k
          = (if v.testBit 24 && s.lanternReady k && s.lanternReach k (clmAddr k (v % 2 ^ 23)) 1 then 1 else 0)
      ∧ (v.testBit 24 = false ∨ s.lanternReady k = false ∨ s.lanternReach k (clmAddr k (v % 2 ^ 23)) 1 = true →
          t.fld F.CLU_LANT_CTL_fault k = if v.testBit 26 then 0 else s.fld F.CLU_LANT_CTL_fault k)
      ∧ (v.testBit 24 = true → s.lanternReady k = true → s.lanternReach k (clmAddr k (v % 2 ^ 23)) 1 = false →
          t.fld F.CLU_LANT_CTL_fault k = 1))
  ∧ ∀ (s : State) (k : Nat),
    (s.fld F.CLU_LANT_CTL_running k = 1 → ∃ t, exec (.lanternFault k) s = .next t ∧ onlyRegs s t
      ∧ regKept s t .CLU_LANT_CTL k ∧ t.fld F.CLU_LANT_CTL_running k = 0 ∧ t.fld F.CLU_LANT_CTL_fault k = 1
      ∧ t.fld F.CLU_LANT_CTL_run k = s.fld F.CLU_LANT_CTL_run k)
    ∧ (s.fld F.CLU_LANT_CTL_running k ≠ 1 → exec (.lanternFault k) s = .next s)

/-- R276, R282 to R287: a plan is read once for its slot, and a late one is counted; the detections of an occasion, the
noise record of a period and the result of an uplink entry are written once to the cell's report ring in its record
formats, the detections of the slot first, or counted as lost.
Choices of the model in it: log entries 76, 77, 163 and 164. -/
def Obligations.CellReports : Prop :=
  (∀ (s : State) (cell : Nat),
    (s.planConfig cell = none → exec (.planRead cell) s = .next s)
    ∧ ∀ (b header : Bytes) (n : Nat), s.planConfig cell = some b → n = planSlot b s.total →
      header = s.bytesAt (clmAddr (s.cellCluster cell) (planBuf b n)) 64 →
      ((s.cell cell).lastPlan = some n → exec (.planRead cell) s = .next s)
      ∧ ((s.cell cell).lastPlan ≠ some n →
        ∃ t, exec (.planRead cell) s = .next t ∧ (t.cell cell).lastPlan = some n
          ∧ (planReady b s.total header = true → t.regs = s.regs
              ∧ ∃ plan, (t.cell cell).plan = some plan
                ∧ plan = s.bytesAt (clmAddr (s.cellCluster cell) (planBuf b n)) (64 + 64 * leAt header 4 2)
                ∧ (t.cell cell).work = (s.cell cell).work ++ planWork n plan)
          ∧ (planReady b s.total header = false →
              (t.cell cell).plan = none ∧ (t.cell cell).work = (s.cell cell).work
              ∧ countedUp s t F.CLU_CELL_CNT_plan_late cell ∧ fldKept s t F.CLU_CELL_CNT_plan_late cell)
          ∧ (∀ c, c ≠ cell → t.cell c = s.cell c) ∧ t = { s with cells := t.cells, regs := t.regs }))
  ∧ ∀ (s : State) (cell : Nat) (b : Bytes), b = (s.cell cell).config →
    (s.cellPiped cell = false → ∀ frame slot i,
      exec (.prachOccasion cell frame slot i) s = .next s ∧ exec (.noisePeriodEnd cell i) s = .next s
      ∧ exec (.uplinkResult cell ⟨frame, slot, i⟩) s = .next s)
    ∧ (s.cellPiped cell = true → ∀ frame slot occ n, n = slotNamed b s.total frame slot →
      ((s.cell cell).heard.contains (n, occ) = true
          ∨ cfgOccasions b ≤ occ →
        exec (.prachOccasion cell frame slot occ) s = .next s)
      ∧ ((s.cell cell).heard.contains (n, occ) = false →
        occ < cfgOccasions b →
        ∃ t, exec (.prachOccasion cell frame slot occ) s = .next t
          ∧ t = (s.detections cell n occ).1.zipIdx.foldl
              (fun u k => u.detection cell n occ (s.detections cell n occ).2 k.1.1 k.1.2
                (decide (k.2 + 1 = (s.detections cell n occ).1.length)))
              (s.setCell cell { s.cell cell with heard := (s.cell cell).heard ++ [(n, occ)] })
          ∧ (t.cell cell).heard = (s.cell cell).heard ++ [(n, occ)]
          ∧ t.fld F.CLU_CELL_CNT_prach_det cell
              = min (s.fld F.CLU_CELL_CNT_prach_det cell + (s.detections cell n occ).1.length)
                  (2 ^ F.CLU_CELL_CNT_prach_det.width - 1)))
    ∧ (∀ (n occ : Nat) (k : Peak) (lap last : Bool) (noise : Rat) (t : State), 0 < noise → 0 < k.energy →
      t = s.detection cell n occ noise k lap last →
      countedUp s t F.CLU_CELL_CNT_prach_det cell
      ∧ (if lap then countedUp s t F.CLU_CELL_CNT_prach_overlap cell
         else t.fld F.CLU_CELL_CNT_prach_overlap cell = s.fld F.CLU_CELL_CNT_prach_overlap cell)
      ∧ (t.cell cell).nextId = ((s.cell cell).nextId + 1) % 65536
      ∧ (reportRoom s cell → reportWritten s t cell (leBytes 1 1
          ++ leBytes 1 ((if lap then 2 else 0) + (if last then 4 else 0) + s.reportPhase cell) ++ leBytes 1 k.index
          ++ leBytes 1 occ ++ leBytes 2 (slotFrame b n) ++ leBytes 1 (slotInFrame b n) ++ leBytes 1 0
          ++ leBytes 2 k.ta
          ++ leBytes 2 (level16 (level k.energy.num.toNat (k.energy.den * 2 ^ 30) + cfgRxRef b))
          ++ leBytes 2 (level16 (level (k.energy / noise).num.toNat (k.energy / noise).den))
          ++ leBytes 2 (s.cell cell).nextId ++ leBytes 4 s.total ++ leBytes 44 0)))
    ∧ (s.cellPiped cell = true → ∀ k, k = cfgSlots b s.total / cfgPeriod b →
      (∀ period, period ≠ k ∨ (s.cell cell).periods = some k → exec (.noisePeriodEnd cell period) s = .next s)
      ∧ ((s.cell cell).periods ≠ some k → reportRoom s cell → cfgPrb b ≤ 275 →
        ∀ slots, slots = (List.range (cfgPeriod b)).map (fun i => (k - 1) * cfgPeriod b + i) →
        ∃ t r, exec (.noisePeriodEnd cell k) s = .next t ∧ (t.cell cell).periods = some k ∧ reportWritten s t cell r
          ∧ r.take 8 = leBytes 1 2 ++ leBytes 1 (s.reportPhase cell) ++ leBytes 1 ((cfgPrb b + 15) / 16) ++ leBytes 1 0
            ++ leBytes 2 (slotFrame b (k * cfgPeriod b - 1)) ++ leBytes 1 (slotInFrame b (k * cfgPeriod b - 1))
            ++ leBytes 1 0
          ∧ ∀ i prbs, (subBands b)[i]? = some prbs →
            ((s.idleEnergy cell slots prbs).2.1 = 0 → leAt r (16 + 2 * i) 2 = 0x8000)
            ∧ ((s.idleEnergy cell slots prbs).2.1 ≠ 0 → (s.idleEnergy cell slots prbs).1 = 0 →
                leAt r (16 + 2 * i) 2 = Config.zeroLevel s.radioFirmware (s.radioInputs cell) % 65536)
            ∧ ((s.idleEnergy cell slots prbs).2.1 ≠ 0 → (s.idleEnergy cell slots prbs).1 ≠ 0 →
                leAt r (16 + 2 * i) 2 = level16 (level (s.idleEnergy cell slots prbs).1
                  ((s.idleEnergy cell slots prbs).2.1 * 2 ^ 30) + cfgRxRef b))))
    ∧ (s.cellPiped cell = true → ∀ frame slot index n, n = slotNamed b s.total frame slot →
      ((s.cell cell).work.find? (fun w => w.slot = n % 2 ^ 40 && w.index = index) = none →
        exec (.uplinkResult cell ⟨frame, slot, index⟩) s = .next s)
      ∧ (∀ w, (s.cell cell).work.find? (fun w => w.slot = n % 2 ^ 40 && w.index = index) = some w →
        exec (.uplinkResult cell ⟨frame, slot, index⟩) s
          = exec (.uplinkResult cell ⟨frame, slot, index⟩) ((List.range 8).foldl (fun s o => s.prachReport cell n o) s))
      ∧ ∀ (w : UplinkWork) (e : PlanEntry) (o : Config.RadioResult) (x : Nat × Nat) (dtx : Bool),
        (s.cell cell).work.find? (fun w => w.slot = n % 2 ^ 40 && w.index = index) = some w →
        (∀ occ < 8, (n, occ) ∈ (s.cell cell).heard) →
        e = planEntry w.entry → o = s.uplinkOutcome cell n w.entry →
        x = energySum (s.allocation cell n w.entry false) →
        dtx = (if e.entryType = 3 ∧ e.msg3 then s.msg3Silent cell n w.entry else o.dtx) →
        ∃ t, exec (.uplinkResult cell ⟨frame, slot, index⟩) s = .next t
          ∧ (t.cell cell).work = (s.cell cell).work.filter (fun v => decide (v ≠ w))
          ∧ (if uplinkLate b n s.total then countedUp s t F.CLU_CELL_CNT_ul_late cell
             else t.fld F.CLU_CELL_CNT_ul_late cell = s.fld F.CLU_CELL_CNT_ul_late cell)
          ∧ (if e.entryType = 3 ∧ dtx = false ∧ o.crcOk = false then countedUp s t F.CLU_CELL_CNT_ul_crc_fail cell
             else t.fld F.CLU_CELL_CNT_ul_crc_fail cell = s.fld F.CLU_CELL_CNT_ul_crc_fail cell)
          ∧ (if e.entryType = 3 ∧ e.msg3 = true ∧ dtx = true then countedUp s t F.CLU_CELL_CNT_rar_unanswered cell
             else t.fld F.CLU_CELL_CNT_rar_unanswered cell = s.fld F.CLU_CELL_CNT_rar_unanswered cell)
          ∧ (reportRoom s cell → x.1 ≠ 0 → reportWritten (s.uplinkDecode cell n w.entry).2 t cell (leBytes 1 3
            ++ leBytes 1 ((if o.crcOk && !dtx then 2 else 0) + (if dtx then 4 else 0)
                + (if uplinkLate b n s.total then 8 else 0) + s.reportPhase cell)
            ++ leBytes 1 e.entryType ++ leBytes 1 (if e.entryType = 3 then e.harq else 0)
            ++ leBytes 2 (slotFrame b n) ++ leBytes 1 (slotInFrame b n) ++ leBytes 1 0
            ++ leBytes 2 e.rnti ++ leBytes 2 (ofSigned 16 (satSigned 16 o.sinr))
            ++ leBytes 2 (ofSigned 16 (satSigned 16 o.timing))
            ++ leBytes 2 (level16 (level x.1 (x.2 * 2 ^ 30) + cfgRxRef b)) ++ leBytes 4 o.decoded ++ leBytes 44 0))
          ∧ (ringRoom (s.fld F.CLU_CELL_RING_PTR_head cell) (s.fld F.CLU_CELL_RING_PTR_tail cell) (cfgRingLen b) = false →
              countedUp s t F.CLU_CELL_CNT_report_lost cell ∧ t.mem = (s.uplinkDecode cell n w.entry).2.mem
              ∧ t.poison = (s.uplinkDecode cell n w.entry).2.poison)
          ∧ (e.entryType ≠ 3 → (s.uplinkDecode cell n w.entry).2
              = match (Config.radioPucch (s.entryAt cell n w.entry) (e.syms.flatMap fun sym => e.subs.flatMap fun sc =>
                  (rxPorts b).map fun p => s.element cell p n sym sc)).job with
                | none => s
                | some (job, soft) => (s.pipeDecode cell job soft).2))

/-- R290, R293, R295, R299, R300, R301: the producer's write of prod is seen; a free engine takes the most urgent job
of its ring, which its checks or its lateness end at once with their outcome; a block that ends lets the job go on, or
be parked for a more urgent one, or end with its outcome in its slot; a decode block writes its soft buffer back.
Choices of the model in it: log entries 67 and 68, 71. -/
def Obligations.JasperJobs : Prop :=
  (∀ (s : State) (k j prod : Nat), k < 32 → j < 8 → s.hasRings k = true →
    ∃ t, exec (.jobRingProdWrite k j prod) s = .next t
      ∧ t.fld F.JSP_RING_STATE_prod_seen (k * 8 + j) = prod % 2 ^ 32
      ∧ t.fld F.JSP_RING_STATE_cons (k * 8 + j) = s.fld F.JSP_RING_STATE_cons (k * 8 + j)
      ∧ t.bytesAt (s.ringAddr k j) 4 = leBytes 4 prod
      ∧ (∀ a, a < s.ringAddr k j ∨ s.ringAddr k j + 4 ≤ a → t.byte a = s.byte a)
      ∧ (if 64 < toSigned 32 (prod % 2 ^ 32 + 2 ^ 32 - s.fld F.JSP_RING_STATE_cons (k * 8 + j))
         then countedUp s t F.JSP_CNT_ring_overrun k
         else t.fld F.JSP_CNT_ring_overrun k = s.fld F.JSP_CNT_ring_overrun k)
      ∧ t = { s with mem := t.mem, regs := t.regs })
  ∧ (∀ (s : State) (op k e j i : Nat) (slack : Int) (b : Bytes), 1 ≤ op → op ≤ 8 → k < 32 → e < 3 →
    s.nextJob k = some (j, i, slack) → b = s.candidateJob k j i → jobOp b = op ∨ jobOp b = 0 ∨ 8 < jobOp b →
    s.radioEngine k e = true →
    s.fld F.JSP_ENGINE_busy (k * 3 + e) ≠ 1 →
    (∀ t, (s.jsp k).parked.find? (fun t => t.ring = j ∧ t.index = i) = some t →
      ∃ u : State, exec (jasperCommand op k e j) s = .next u ∧ look none (u.jsp k).running e = some t
        ∧ u.fld F.JSP_ENGINE_busy (k * 3 + e) = 1 ∧ u.fld F.JSP_ENGINE_ring (k * 3 + e) = t.ring % 2 ^ 3
        ∧ u = { s with regs := u.regs, jasper := u.jasper })
    ∧ ((s.jsp k).parked.find? (fun t => t.ring = j ∧ t.index = i) = none →
      (s.jobCheck k b ≠ 0 → ∃ u : State, exec (jasperCommand op k e j) s = .next u.settle
        ∧ u.byte (s.jobAddr k j i + 0x3C) = 3 ∧ u.byte (s.jobAddr k j i + 0x3D) = BitVec.ofNat 8 (s.jobCheck k b)
        ∧ countedUp s u F.JSP_CNT_error k ∧ u.signals = s.signals
        ∧ (jobSigEn b = true → s.permitted (jobSig b) 256 = true → u.fld F.SYNC_OBJ_broken (jobSig b) = 1)
        ∧ u.cores = s.cores)
      ∧ (s.jobCheck k b = 0 → slack < 0 → ∃ u : State, exec (jasperCommand op k e j) s = .next u.settle
        ∧ u.byte (s.jobAddr k j i + 0x3C) = 1 ∧ countedUp s u F.JSP_CNT_late k
        ∧ u.signals = s.signals ++ (if jobSigEn b then [⟨jobSig b, false, 1, 100000 + k * 8 + j, 256⟩] else [])
        ∧ u.cores = s.cores)
      ∧ (s.jobCheck k b = 0 → 0 ≤ slack → ∃ u : State, exec (jasperCommand op k e j) s = .next u
        ∧ look none (u.jsp k).running e = some ⟨j, i, b, 0, [], [], false, []⟩
        ∧ u.fld F.JSP_ENGINE_busy (k * 3 + e) = 1
        ∧ u = { s with regs := u.regs, jasper := u.jasper, cells := u.cells })))
  ∧ ∀ (s : State) (k e : Nat),
    (look none (s.jsp k).running e = none → exec (.codeBlockEnd k e) s = .next s)
    ∧ (∀ t, look none (s.jsp k).running e = some t →
      ((jobBuffers t.job).any (fun x => s.rangeHeld x.1 x.2) = true → exec (.codeBlockEnd k e) s = .next s)
      ∧ ((jobBuffers t.job).any (fun x => s.rangeHeld x.1 x.2) = false →
        (jobBuffers t.job).any (fun x => s.rangeLost x.1 x.2) = true →
        ∃ u : State, exec (.codeBlockEnd k e) s = .next u.settle ∧ look none (u.jsp k).running e = none
          ∧ u.fld F.JSP_ENGINE_busy (k * 3 + e) = 0 ∧ u.byte (s.jobAddr k t.ring t.index + 0x3C) = 3
          ∧ u.byte (s.jobAddr k t.ring t.index + 0x3D) = 6 ∧ countedUp s u F.JSP_CNT_error k
          ∧ u.signals = s.signals ∧ u.cores = s.cores))
    ∧ (∀ t, look none (s.jsp k).running e = some t → jobDecode t.job = false →
      (∀ x ∈ jobBuffers t.job, s.rangeHeld x.1 x.2 = false ∧ s.rangeLost x.1 x.2 = false) →
      (t.blk + 1 < jobC t.job → ∃ u : State, exec (.codeBlockEnd k e) s = .next u
        ∧ u.fld F.JSP_ENGINE_busy_cycles (k * 3 + e)
            = min (s.fld F.JSP_ENGINE_busy_cycles (k * 3 + e) + jobCycles t.job t.blk)
                (2 ^ F.JSP_ENGINE_busy_cycles.width - 1)
        ∧ ((s.candidates k).all (fun c => decide (s.slack t.job ≤ c.2.2)) = true →
            ∃ r, look none (u.jsp k).running e = some r ∧ r.blk = t.blk + 1 ∧ r.job = t.job
              ∧ r.bits.length = t.bits.length + jobE t.job t.blk)
        ∧ ((s.candidates k).any (fun c => decide (c.2.2 < s.slack t.job)) = true →
            look none (u.jsp k).running e = none ∧ u.fld F.JSP_ENGINE_busy (k * 3 + e) = 0
              ∧ ∃ r ∈ (u.jsp k).parked, r.blk = t.blk + 1 ∧ r.job = t.job ∧ r.ring = t.ring ∧ r.index = t.index)
        ∧ u = { s with regs := u.regs, jasper := u.jasper })
      ∧ (jobC t.job ≤ t.blk + 1 → ∃ u : State, exec (.codeBlockEnd k e) s = .next u.settle
        ∧ look none (u.jsp k).running e = none ∧ u.fld F.JSP_ENGINE_busy (k * 3 + e) = 0
        ∧ u.byte (s.jobAddr k t.ring t.index + 0x3C) = 0 ∧ countedUp s u F.JSP_CNT_done k
        ∧ u.signals = s.signals
            ++ (if jobSigEn t.job then [⟨jobSig t.job, false, 1, 100000 + k * 8 + t.ring, 256⟩] else [])
        ∧ u.cores = s.cores))
    ∧ ∀ t, look none (s.jsp k).running e = some t → jobDecode t.job = true → t.blk + 1 < jobC t.job → t.blk < 256 →
      (∀ x ∈ jobBuffers t.job, s.rangeHeld x.1 x.2 = false ∧ s.rangeLost x.1 x.2 = false) →
      ∃ u : State, exec (.codeBlockEnd k e) s = .next u
        ∧ (∃ r, (look none (u.jsp k).running e = some r ∨ r ∈ (u.jsp k).parked) ∧ r.blk = t.blk + 1 ∧ r.job = t.job
          ∧ r.bits.length = t.bits.length + jobInfo t.job ∧ r.pass.length = t.pass.length + 1)
        ∧ (jobHarq t.job = 0 → u.mem = s.mem ∧ u.poison = s.poison)
        ∧ (jobHarq t.job ≠ 0 →
          u.bytesAt (jobSoft t.job t.blk) (jobSoftLen t.job) = combine t.job t.blk
              (s.erasures (jobIn t.job + jobSumE t.job t.blk) (jobE t.job t.blk))
              (if s.softValid t.job t.blk then s.erasures (jobSoft t.job t.blk) (jobSoftLen t.job)
               else List.replicate (jobSoftLen t.job) 0)
          ∧ (u.byte (jobHarq t.job + t.blk / 8)).toNat.testBit (t.blk % 8) = true
          ∧ (∀ a, a ≠ jobHarq t.job + t.blk / 8 → s.poisoned a = false →
              (a < jobSoft t.job t.blk ∨ jobSoft t.job t.blk + jobSoftLen t.job ≤ a) → u.byte a = s.byte a)
          ∧ ∀ a, (a < jobHarq t.job ∨ jobHarq t.job + 64 ≤ a) → (a < jobSoft t.job t.blk
              ∨ jobSoft t.job t.blk + (jobSoftLen t.job + 63) / 64 * 64 ≤ a) → u.byte a = s.byte a)
        ∧ u = { s with regs := u.regs, jasper := u.jasper, mem := u.mem, poison := u.poison }

/-- R307 to R310, R312 to R319, R327: a received frame is counted, and becomes FIFO packets, a host ring entry or a
drop; POP, FIFO_DROP_REST and the hub take words and packets off a FIFO in order; an egress packet becomes a frame at
the end of its leaf queue.
Choices of the model in it: log entries 86 to 88, 161 and 165. -/
def Obligations.FramesAndFifos : Prop :=
  (∀ (s : State) (i : Nat) (frame b : Bytes) (h : FrameHead), i < 32 → s.linkUp i = true →
    b = frame.take (frame.length - 4) → h = frameHead b →
    (9216 < frame.length → ∀ ok, ∃ t, exec (.frameReceive i frame ok) s = .next t ∧ onlyRegs s t
      ∧ countedUp s t F.FH_IF_CNT_rx_oversize i ∧ fldKept s t F.FH_IF_CNT_rx_oversize i)
    ∧ (64 ≤ frame.length → frame.length ≤ 9216 →
      (h.etype ≠ 0xAEFE → ∃ t, exec (.frameReceive i frame false) s = .next t ∧ onlyRegs s t
        ∧ countedUp s t F.FH_IF_CNT_rx_fcs_err i ∧ fldKept s t F.FH_IF_CNT_rx_fcs_err i)
      ∧ (h.etype = 0xAEFE → (h.tagged = false ∨ ecpriOk b h.body = false
            ∨ beAt b 0 6 ≠ s.fld F.FH_IF_STATUS_src_mac i
            ∨ s.bindRx i h.vlan (beAt b (h.body + 4) 2) = none) →
        ∃ t, exec (.frameReceive i frame true) s = .next t ∧ onlyRegs s t
          ∧ countedUp s t F.FH_IF_CNT_rx_frames i ∧ countedUp s t F.FH_IF_CNT_rx_unmatched i
          ∧ regKept s t .FH_IF_CNT i)
      ∧ (∀ c prach p n blk, h.etype = 0xAEFE → h.tagged = true → ecpriOk b h.body = true →
        beAt b 0 6 = s.fld F.FH_IF_STATUS_src_mac i →
        s.bindRx i h.vlan (beAt b (h.body + 4) 2) = some (c, prach) →
        (s.cellRuns c = false → ∃ t, exec (.frameReceive i frame true) s = .next t ∧ onlyRegs s t
          ∧ countedUp s t F.FH_IF_CNT_rx_frames i ∧ fldKept s t F.FH_IF_CNT_rx_frames i)
        ∧ (s.cellRuns c = true → s.fld F.FIFO_CFG_dir (s.ulFifo c) = 1 →
        p = (b.drop h.body).take (4 + beAt b (h.body + 2) 2) → n = beAt p 15 1 → 0 < n →
        blk = blockLen (s.cellFh c 123 1) (iqWidth (s.cellFh c 118 4)) →
        16 + n * blk ≤ p.length → p.length ≤ 20 + n * blk →
        (s.fifo (s.ulFifo c)).words.length + (1 + (48 * n + 31) / 32) ≤ 2048 →
        ∃ t ws, exec (.frameReceive i frame true) s = .next t
          ∧ (t.fifo (s.ulFifo c)).words = (s.fifo (s.ulFifo c)).words ++ ws
          ∧ ws.length = 1 + (48 * n + 31) / 32 ∧ (∀ w ∈ ws.dropLast, w.last = false)
          ∧ (∀ w ∈ ws.getLast?, w.last = true) ∧ (∀ w ∈ ws, w.poison = false)
          ∧ (∀ w ∈ ws.head?, w.data.take 8 = leBytes 4 s.total ++ leBytes 2 (beAt b (h.body + 4) 2)
              ++ leBytes 1 (if prach then 1 else 0) ++ leBytes 1 i)
          ∧ (∀ f, f ≠ s.ulFifo c → t.fifo f = s.fifo f) ∧ t.mem = s.mem ∧ t.cores = s.cores))
      ∧ (∀ sv n, h.etype ≠ 0xAEFE → sv = (if h.etype = 0x88F7 then 0 else 1) →
        n = hostSlots (s.fld F.FH_HOST_RING_rx_code i) → b.length ≤ 2032 →
        ((s.fld F.FH_HOST_PTR_rx_head i + 65536 - s.fld F.FH_HOST_PTR_rx_tail i) % 65536 < n → landsAtOnce s 257 →
          ∃ t, exec (.frameReceive i frame true) s = .next t
            ∧ t.hostBytes none (s.rxRing i + s.fld F.FH_HOST_PTR_rx_head i % n * 2048) 4
                = leBytes 2 b.length ++ leBytes 1 sv ++ leBytes 1 (if sv = 0 then 1 else 0)
            ∧ t.hostBytes none (s.rxRing i + s.fld F.FH_HOST_PTR_rx_head i % n * 2048 + 16) b.length = b
            ∧ t.fld F.FH_HOST_PTR_rx_head i = (s.fld F.FH_HOST_PTR_rx_head i + 1) % 65536
            ∧ countedUp s t F.FH_IF_CNT_rx_frames i ∧ t.mem = s.mem ∧ t.cores = s.cores)
        ∧ (n ≤ (s.fld F.FH_HOST_PTR_rx_head i + 65536 - s.fld F.FH_HOST_PTR_rx_tail i) % 65536 →
          ∃ t, exec (.frameReceive i frame true) s = .next t ∧ onlyRegs s t
            ∧ countedUp s t F.FH_IF_CNT_host_rx_drop i ∧ regKept s t .FH_IF_CNT i))))
  ∧ ∀ (s : State) (f : Nat) (r : FifoRec), f < 512 → r = s.fifo f →
    ((r.current = false → exec (.fifoDropRest f) s = .next s)
    ∧ (r.current = true → ∃ t, exec (.fifoDropRest f) s = .next t
      ∧ t.fifo f = { r with words := (r.words.dropWhile fun w => !w.last).drop 1, current := false }
      ∧ countedUp s t F.FIFO_STATUS_drop_rest f ∧ fldKept s t F.FIFO_STATUS_drop_rest f
      ∧ ∀ g, g ≠ f → t.fifo g = s.fifo g))
    ∧ (s.fld F.FIFO_CFG_legacy f = 0 → ∀ bad, exec (.pop f bad) s = .next s)
    ∧ (s.fld F.FIFO_CFG_legacy f = 1 → ∀ bad,
      (r.words = [] → ∃ t, exec (.pop f bad) s = .next t ∧ t.fifo f = { r with buffer := none } ∧ t.regs = s.regs)
      ∧ ∀ w ws, r.words = w :: ws → ∃ t, exec (.pop f bad) s = .next t
        ∧ t.fifo f = { words := ws, current := !w.last, buffer := some { w with poison := w.poison || bad } }
        ∧ (if bad then countedUp s t F.FIFO_STATUS_parity_err f else t.regs = s.regs)
        ∧ (∀ g, g ≠ f → t.fifo g = s.fifo g) ∧ t.mem = s.mem)
    ∧ (∀ init e rest, r.words = init ++ e :: rest → (∀ w ∈ init, w.last = false ∧ w.poison = false) →
      e.last = true → e.poison = false →
      (s.fld F.FIFO_CFG_legacy f = 0 → s.fld F.FIFO_CFG_dir f = 1 →
        ∀ p, p = (init ++ [e]).flatMap (fun w => w.data) →
        ∃ t, exec (.hubPacketMove f []) s = .next t ∧ t.fifo f = { r with words := rest, current := false }
          ∧ (∀ g, g ≠ f → t.fifo g = s.fifo g) ∧ t.mem = s.mem ∧ t.cores = s.cores
          ∧ (s.packetCell f p = none → t.cells = s.cells ∧ t.regs = s.regs)
          ∧ ∀ c, s.packetCell f p = some c →
              (t.regs = s.regs
                ∧ (t.cell c).inputs = (s.cell c).inputs
                    ++ [.packet (s.symbolCore c (packetSymbol p)) (packetCount (s.cell c).config s.total p) p])
              ∨ (t.cells = s.cells ∧ countedUp s t F.FH_IF_CNT_rx_late (leAt p 7 1 % 32)))
      ∧ (s.fld F.FIFO_CFG_dir f = 2 → ∀ w c q, (init ++ [e]).head? = some w → c = leAt w.data 6 2 →
        (s.entry 8 (0x100 + c)).isSome = true → q = s.packetQueue w → (s.leaf q).length < 512 →
        (s.cellRuns c = false → ∃ t, exec (.egressPacketRead f []) s = .next t
          ∧ t.fifo f = { r with words := rest, current := false } ∧ (∀ g, t.leaf g = s.leaf g)
          ∧ t = { s with fh := t.fh })
        ∧ (s.cellRuns c = true → ∃ t fr, exec (.egressPacketRead f []) s = .next t ∧ t.leaf q = s.leaf q ++ [fr]
          ∧ fr.launch = some (leAt w.data 0 4) ∧ fr.queued = s.total ∧ fr.ring = none ∧ 60 ≤ fr.bytes.length
          ∧ fr.bytes = s.buildFrame c w.data (((init ++ [e]).drop 1).flatMap fun w => w.data)
              (look 0 s.fh.seqTx (s.cellIf c * 65536 + leAt w.data 8 2))
          ∧ t.fifo f = { r with words := rest, current := false }
          ∧ (∀ g, g ≠ f → t.fifo g = s.fifo g) ∧ (∀ g, g ≠ q → t.leaf g = s.leaf g) ∧ t = { s with fh := t.fh })))
    ∧ (s.fld F.FIFO_CFG_legacy f = 0 → s.fld F.FIFO_CFG_dir f = 2 →
      ((∀ d ∈ s.pipedCells s.dlFifo f, s.nextPacket d = none) → exec (.hubPacketMove f []) s = .next s)
      ∧ ∃ t, exec (.hubPacketMove f []) s = .next t ∧ match s.dueDownlink f with
        | none => t = s
        | some (c, p) =>
          let ws := packetWords (s.packetBytes c p) false
          if 2048 < r.words.length + ws.length then t = s
          else t.fifo f = { r with words := r.words ++ ws } ∧ (∀ g, g ≠ f → t.fifo g = s.fifo g)
            ∧ (t.cell c).made = (s.cell c).made + 1 ∧ (∀ d, d ≠ c → t.cell d = s.cell d)
            ∧ (p.control = true → t = { s with cells := t.cells, fh := t.fh }))
    ∧ (s.fld F.FIFO_CFG_legacy f = 0 → s.fld F.FIFO_CFG_dir f = 1 → r.words = [] →
      ∀ bad, exec (.hubPacketMove f bad) s = .next s)
    ∧ (s.fld F.FIFO_CFG_legacy f = 1 → exec (.hubPacketMove f []) s = .next s)

/-- R305, R306, R320 to R327: the transmitter sends the head frame of the highest service that may send; a shaper gains
its rate each microsecond, clipped to its burst; a gate list is committed, starts at its instant and advances;
histograms count and are cleared; posted frames are read into their queue, when they are posted or as the queue gains
room; links go up and down.
Choices of the model in it: log entries 89 to 92. -/
def Obligations.FramesScheduled : Prop :=
  (∀ (s : State) (i : Nat), i < 32 →
    ((s.linkUp i = false ∨ (s.ifRec i).tx.any (fun t => decide (s.total * 1000 < t.until')) = true) →
      exec (.frameSelect i) s = .next s)
    ∧ (s.linkUp i = true → (s.ifRec i).tx.any (fun t => decide (s.total * 1000 < t.until')) = false →
      (s.ifRec i).oper = none →
      ∀ unread, unread = (s.fld F.FH_HOST_PTR_tx_head i + 65536 - (s.ifRec i).read) % 65536 →
      (∀ f rest, s.leaf (2560 + 2 * i) = f :: rest → s.eligible i 0 none f = true → f.ring = none →
        ∃ t more, exec (.frameSelect i) s = .next t ∧ t.leaf (2560 + 2 * i) = rest ++ more
          ∧ t.fh.sent = s.fh.sent ++ [(i, f.bytes, s.total)]
          ∧ (t.ifRec i).tx = some ⟨0, s.total * 1000 + s.wireTime i f⟩
          ∧ countedUp s t F.FH_IF_CNT_tx_frames i
          ∧ (∀ g, g ≠ 2560 + 2 * i → g ≠ 2561 + 2 * i → t.leaf g = s.leaf g)
          ∧ (unread = 0 → more = [] ∧ t.leaf (2561 + 2 * i) = s.leaf (2561 + 2 * i)
            ∧ t = { s with fh := t.fh, regs := t.regs }))
      ∧ (s.leaf (2560 + 2 * i) = [] → s.leaf (2561 + 2 * i) = [] → s.subscribers i = [] →
        ∃ t, exec (.frameSelect i) s = .next t ∧ t.fh.sent = s.fh.sent ∧ (t.ifRec i).tx = (s.ifRec i).tx
          ∧ (∀ g, g ≠ 2560 + 2 * i → g ≠ 2561 + 2 * i → t.leaf g = s.leaf g) ∧ (unread = 0 → t = s))
      ∧ (∀ node c f rest, s.leaf (2560 + 2 * i) = [] → s.subscribers i = [(node, c)] →
        s.leaf (subQueue node 1) = f :: rest → s.eligible i 1 (some node) f = true → f.ring = none →
        ∀ gain, gain = (if (s.ifRec i).turnC = node + 1 then 0 else s.cellFh c 208 8 * 1024) →
        f.len ≤ s.deficitOf (subQueue node 1) + gain →
        (f.launch.all fun x => decide ((-(s.launchDiff x)).toNat ≤ s.fld F.FH_LATE_TOLERANCE_tol_ns i)) = true →
        ∃ t, exec (.frameSelect i) s = .next t ∧ (unread = 0 → t.leaf (subQueue node 1) = rest)
          ∧ t.fh.sent = s.fh.sent ++ [(i, f.bytes, s.total)]
          ∧ (t.ifRec i).tx = some ⟨1, s.total * 1000 + s.wireTime i f⟩
          ∧ t.deficitOf (subQueue node 1)
              = (if rest = [] then 0 else s.deficitOf (subQueue node 1) + gain - f.len)
          ∧ (t.ifRec i).turnC = node + 1
          ∧ countedUp s t F.FH_IF_CNT_tx_frames i)
      ∧ (∀ node c f, s.leaf (2560 + 2 * i) = [] → s.leaf (2561 + 2 * i) = [] → s.subscribers i = [(node, c)] →
        s.leaf (subQueue node 1) = [f] → s.leaf (subQueue node 2) = [] → s.eligible i 1 (some node) f = true →
        f.len ≤ s.deficitOf (subQueue node 1)
          + (if (s.ifRec i).turnC = node + 1 then 0 else s.cellFh c 208 8 * 1024) →
        (f.launch.any fun x => decide (s.fld F.FH_LATE_TOLERANCE_tol_ns i < (-(s.launchDiff x)).toNat)) = true →
        ∃ t, exec (.frameSelect i) s = .next t ∧ (unread = 0 → t.leaf (subQueue node 1) = [])
          ∧ t.fh.sent = s.fh.sent ∧ (t.ifRec i).tx = (s.ifRec i).tx ∧ t.deficitOf (subQueue node 1) = 0
          ∧ countedUp s t F.FH_LATE_DROP_count i)))
  ∧ (∀ s : State,
    (s.total / 1000 ≤ s.fh.refilled → exec .shaperRefill s = .next s)
    ∧ (s.fh.refilled < s.total / 1000 → ∃ t, exec .shaperRefill s = .next t ∧ t.fh.refilled = s.total / 1000
      ∧ (∀ node v, node < 1408 → look none s.fh.shaper node = some v →
          t.fld F.FH_SHAPER_rate node = bits v 0 16 ∧ t.fld F.FH_SHAPER_burst node = bits v 16 16
          ∧ look none t.fh.shaper node = none)
      ∧ (∀ node, node < 1408 → 2 * toSigned 32 (t.fld F.FH_SHAPER_tokens node)
            + (if look false t.fh.half node then 1 else 0)
          = min (2 * toSigned 32 (s.fld F.FH_SHAPER_tokens node) + (if look false s.fh.half node then 1 else 0)
                + ((s.total / 1000 - s.fh.refilled) * (t.fld F.FH_SHAPER_rate node * 25) : Nat)) (t.fld F.FH_SHAPER_burst node * 2048 : Nat))
      ∧ (∀ r i, (r ≠ .FH_SHAPER ∨ 1408 ≤ i) → t.reg r i = s.reg r i) ∧ t = { s with fh := t.fh, regs := t.regs }))
  ∧ (∀ (s : State) (fn node v : Nat), node < 1408 →
    ((fn = 1 → node < 1248 ∧ s.pf1Ready = true) → ∃ t, exec (.fhShaperWrite fn node v) s = .next t
      ∧ look none t.fh.shaper node = some (v % 2 ^ 32)
      ∧ (∀ m, m ≠ node → look none t.fh.shaper m = look none s.fh.shaper m)
      ∧ t = { s with fh := { s.fh with shaper := t.fh.shaper } })
    ∧ (fn = 1 → 1248 ≤ node ∨ s.pf1Ready = false → ∃ t, exec (.fhShaperWrite fn node v) s = .next t ∧ onlyRegs s t
      ∧ countedUp s t F.DEV_BAD_ACCESS_count 0 ∧ regKept s t .DEV_BAD_ACCESS 0))
  ∧ (∀ (s : State) (i now cyc base : Nat), i < 32 → now = s.total → cyc = s.fld F.FH_GATE_CTL_cycle_ns i →
    base = s.fld F.FH_GATE_BASE_epoch i * 2 ^ 32 + s.fld F.FH_GATE_BASE_base_wnc i →
    (256 < s.fld F.FH_GATE_CTL_admin_len i
        ∨ s.fld F.FH_GATE_CTL_enable i = 1 ∧ (s.fld F.FH_GATE_CTL_admin_len i = 0 ∨ cyc = 0) →
      exec (.gateCommit i) s = .next s)
    ∧ (s.fld F.FH_GATE_CTL_admin_len i ≤ 256 →
      (s.fld F.FH_GATE_CTL_enable i = 1 → 0 < s.fld F.FH_GATE_CTL_admin_len i ∧ 0 < cyc) →
      ∃ t g, exec (.gateCommit i) s = .next t ∧ (t.ifRec i) = { s.ifRec i with pend := some g }
        ∧ (g.enable = true ↔ s.fld F.FH_GATE_CTL_enable i = 1) ∧ g.cycle = cyc
        ∧ g.entries = (List.range (s.fld F.FH_GATE_CTL_admin_len i)).map (fun j =>
            (s.fld F.FH_GATE_LIST_interval_ns (i * 256 + j), s.fld F.FH_GATE_LIST_gates (i * 256 + j)))
        ∧ (s.fld F.FH_GATE_CTL_wnc_mode i = 1 → 0 < cyc →
            (now + cyc ≤ base → g.start = base)
            ∧ (base < now + cyc →
              ∃ n, g.start = base + n * cyc ∧ now + cyc ≤ g.start ∧ g.start < now + 2 * cyc))
        ∧ t.fld F.FH_GATE_STATUS_pending i = 1 ∧ regKept s t .FH_GATE_STATUS i
        ∧ t = { s with fh := t.fh, regs := t.regs })
    ∧ ((s.ifRec i).pend = none → exec (.gateCancel i) s = .next s ∧ exec (.gateListStart i) s = .next s)
    ∧ (∀ g, (s.ifRec i).pend = some g →
      (∃ t, exec (.gateCancel i) s = .next t ∧ (t.ifRec i) = { s.ifRec i with pend := none }
        ∧ t.fld F.FH_GATE_STATUS_pending i = 0 ∧ fldKept s t F.FH_GATE_STATUS_pending i)
      ∧ (now < g.start → exec (.gateListStart i) s = .next s)
      ∧ (g.start ≤ now → ∃ t, exec (.gateListStart i) s = .next t
        ∧ (t.ifRec i) = { s.ifRec i with oper := some g, pend := none }
        ∧ t.fld F.FH_GATE_STATUS_pending i = 0
        ∧ t.fld F.FH_GATE_STATUS_oper_enable i = (if g.enable then 1 else 0)
        ∧ t.fld F.FH_GATE_STATUS_oper_len i = g.entries.length % 2 ^ 9 ∧ regKept s t .FH_GATE_STATUS i))
    ∧ (∀ g, (s.ifRec i).oper = some g → ∃ t, exec (.gateEntryAdvance i) s = .next t ∧ onlyRegs s t
      ∧ t.fld F.FH_GATE_STATUS_cur_entry i = (g.at' now).1 % 2 ^ 8 ∧ fldKept s t F.FH_GATE_STATUS_cur_entry i)
    ∧ ((s.ifRec i).oper = none → exec (.gateEntryAdvance i) s = .next s))
  ∧ (∀ s : State,
    (s.total / 10000 ≤ s.fh.sampled → exec .histogramSample s = .next s)
    ∧ (s.fh.sampled < s.total / 10000 → ∃ t, exec .histogramSample s = .next t ∧ t.fh.sampled = s.total / 10000
      ∧ (∀ q, s.leafQueues.count q = 1 → s.leaf q = [] →
          look 0 t.fh.bins (q * 32)
              = min (look 0 s.fh.bins (q * 32) + (s.total / 10000 - s.fh.sampled)) (2 ^ 32 - 1)
          ∧ look 0 t.fh.bins (q * 32 + 16)
              = min (look 0 s.fh.bins (q * 32 + 16) + (s.total / 10000 - s.fh.sampled)) (2 ^ 32 - 1))
      ∧ (∀ g, t.leaf g = s.leaf g) ∧ t.regs = s.regs ∧ t.mem = s.mem)
    ∧ ∀ queue, ∃ t, exec (.histogramClear queue) s = .next t
      ∧ (∀ k, look 0 t.fh.bins k = if queue * 32 ≤ k ∧ k < queue * 32 + 32 then 0 else look 0 s.fh.bins k)
      ∧ t = { s with fh := { s.fh with bins := t.fh.bins } })
  ∧ (∀ (s : State) (i head n : Nat), i < 32 → n = hostSlots (s.fld F.FH_HOST_RING_tx_code i) →
    (n = 0 → ∃ t, exec (.hostTxPost i head) s = .next t ∧ onlyRegs s t
      ∧ t.fld F.FH_HOST_PTR_tx_head i = head % 65536 ∧ fldKept s t F.FH_HOST_PTR_tx_head i)
    ∧ (∀ a hd len q, n ≠ 0 → (head % 65536 + 65536 - (s.ifRec i).read) % 65536 = 1 →
      (s.ifRec i).read < 65536 →
      a = s.txRing i + (s.ifRec i).read % n * 2048 → hd = s.hostBytes none a 16 → len = leAt hd 0 2 →
      60 ≤ len → len ≤ 2032 → s.hostError none a 16 = false →
      q = 2560 + 2 * i + (if leAt hd 2 1 = 0 then 0 else 1) → (s.leaf q).length < 512 →
      ∃ t f, exec (.hostTxPost i head) s = .next t ∧ t.leaf q = s.leaf q ++ [f]
        ∧ f.bytes = s.hostBytes none (a + 16) len ∧ f.launch = none ∧ f.queued = s.total
        ∧ f.ring = some ((s.ifRec i).read, (leAt hd 3 1).testBit 0)
        ∧ t.fld F.FH_HOST_PTR_tx_head i = head % 65536 ∧ fldKept s t F.FH_HOST_PTR_tx_head i))
  ∧ ∀ (s : State) (i : Nat), i < 32 →
    (s.linkUp i = false → s.mayLink i = true → ∃ t, exec (.fhLinkUp i) s = .next t ∧ onlyRegs s t
      ∧ t.fld F.FH_IF_STATUS_link_up i = 1
      ∧ t.fld F.FH_IF_STATUS_speed i
          = (if s.split (i / 4) = 0 then 3 else if s.split (i / 4) = 1 then 2 else 1)
      ∧ regKept s t .FH_IF_STATUS i)
    ∧ (s.linkUp i = true ∨ s.mayLink i = false → exec (.fhLinkUp i) s = .next s)
    ∧ (s.linkUp i = true → ∃ t, exec (.fhLinkDown i) s = .next t ∧ onlyRegs s t
      ∧ t.fld F.FH_IF_STATUS_link_up i = 0 ∧ t.fld F.FH_IF_STATUS_speed i = 0
      ∧ countedUp s t F.FH_IF_STATUS_link_downs i ∧ regKept s t .FH_IF_STATUS i)
    ∧ (s.linkUp i = false → exec (.fhLinkDown i) s = .next s)

/-! ### Cuts, slices and the host (chapters 3, 15 and 19) -/

/-- R65 to R69, R441: a load is refused with result busy, or fetches the image; cancel empties the buffer, except in
the cycle of the boundary at which the image applies; an image whose checking ends is staged with its apply tick, or
rejected with its result; at its boundary it is installed whole with its generation and its chain digest, or dropped
whole.
Choices of the model in it: log entries 12, 98 to 116. -/
def Obligations.CutImages : Prop :=
  (∀ (s : State) (len : Nat),
    (s.fld F.CUT_STATUS_state 0 ≠ 0 ∨ s.bootState < 4 → ∃ t, exec (.cutLoad len) s = .next t
      ∧ cutRejected t 6 0xFF 0xFFFF ∧ cutKept s t ∧ t.fld F.CUT_STATUS_state 0 = s.fld F.CUT_STATUS_state 0
      ∧ (s.fld F.CUT_STATUS_state 0 = 1 → t.fld F.CUT_CTL_len 0 = s.fld F.CUT_CTL_len 0
          ∧ countedUp s t F.DEV_BAD_ACCESS_count 0)
      ∧ (s.fld F.CUT_STATUS_state 0 ≠ 1 → t.fld F.CUT_CTL_len 0 = len % 2 ^ 21
          ∧ t.fld F.DEV_BAD_ACCESS_count 0 = s.fld F.DEV_BAD_ACCESS_count 0)
      ∧ t = { s with regs := t.regs, host := t.host })
    ∧ (s.fld F.CUT_STATUS_state 0 = 0 → 4 ≤ s.bootState → ∃ t, exec (.cutLoad len) s = .next t
      ∧ t.fld F.CUT_STATUS_state 0 = 1 ∧ t.fld F.CUT_CTL_len 0 = len % 2 ^ 21 ∧ cutKept s t
      ∧ (s.canIssue 0 = true → t.cut = { s.cut with
          image := s.hostBytes none (s.fld F.CUT_LOAD_ADDR_addr_4k 0 * 4096) (len % 2 ^ 21)
          fetchFailed := s.hostError none (s.fld F.CUT_LOAD_ADDR_addr_4k 0 * 4096) (len % 2 ^ 21)
          waiting := none })
      ∧ (s.canIssue 0 = false → t.cut = { s.cut with waiting := some s.time.clk })
      ∧ t = { s with regs := t.regs, cut := t.cut } ∧ regsKept s t [.CUT_STATUS, .CUT_CTL]))
  ∧ (∀ s : State,
    (s.fld F.CUT_STATUS_state 0 = 0 ∨ s.cutApplies = true → exec .cutCancel s = .next s)
    ∧ (s.fld F.CUT_STATUS_state 0 ≠ 0 → s.cutApplies = false → ∃ t, exec .cutCancel s = .next t
      ∧ t.fld F.CUT_STATUS_state 0 = 0 ∧ t.fld F.CUT_EVENT_cancelled 0 = 1
      ∧ t.fld F.TIME_TICK_STATUS_period_pending 0 = 0 ∧ cutKept s t
      ∧ t.cut = { s.cut with image := [], fetchFailed := false, waiting := none }
      ∧ t = { s with regs := t.regs, host := t.host, cut := t.cut }))
  ∧ (∀ s : State,
    (s.fld F.CUT_STATUS_state 0 ≠ 1
        ∨ s.cut.waiting.isSome = true ∧ s.canIssue 0 = false ∧ s.heldOut 257 s.cut.waiting = false →
      exec .cutCheckEnd s = .next s)
    ∧ (s.fld F.CUT_STATUS_state 0 = 1 → s.cut.waiting.isSome = true → s.canIssue 0 = false →
      s.heldOut 257 s.cut.waiting = true → ∃ t, exec .cutCheckEnd s = .next t ∧ t.fld F.CUT_STATUS_state 0 = 0
        ∧ cutRejected t 18 0xFF 0xFFFF ∧ cutKept s t)
    ∧ (s.fld F.CUT_STATUS_state 0 = 1 → s.cut.waiting = none →
      (∀ r, s.cutCheck = some r → ∃ t, exec .cutCheckEnd s = .next t ∧ t.fld F.CUT_STATUS_state 0 = 0
        ∧ cutRejected t (r.code % 2 ^ F.CUT_STATUS_last_result.width) (r.sec % 2 ^ F.CUT_STATUS_last_section.width)
            (r.idx % 2 ^ F.CUT_STATUS_last_entry.width)
        ∧ cutKept s t ∧ t.mem = s.mem ∧ t.poison = s.poison ∧ t.cores = s.cores ∧ t.slices = s.slices)
      ∧ (s.cut.fetchFailed = true → s.cutCheck = some ⟨18, 0xFF, 0xFFFF⟩)
      ∧ (s.cut.fetchFailed = false → leAt s.cut.image 0 4 ≠ 0x32434E46 ∨ leAt s.cut.image 4 2 ≠ 1
          ∨ 1 < leAt s.cut.image 6 1 ∨ leAt s.cut.image 8 4 ≠ s.fld F.CUT_CTL_len 0 →
          s.cutCheck = some ⟨3, 0xFF, 0xFFFF⟩)
      ∧ (s.cutCheck = none → ∃ t, exec .cutCheckEnd s = .next t ∧ t.fld F.CUT_STATUS_state 0 = 2 ∧ cutKept s t
        ∧ t.cut = { s.cut with applyAt := t.cut.applyAt }
        ∧ t.fld F.CUT_STAGED_TICK_apply_tick 0 = t.cut.applyAt % 2 ^ F.CUT_STAGED_TICK_apply_tick.width
        ∧ (s.newPeriod s.cut.image = s.fld F.TIME_TICK_STATUS_period_code 0 →
            t.cut.applyAt = if cutFull s.cut.image ∨ cutDue s.cut.image = 0
              then s.tickNo + 1 else cutDue s.cut.image)
        ∧ (s.newPeriod s.cut.image ≠ s.fld F.TIME_TICK_STATUS_period_code 0 →
            t.fld F.TIME_TICK_STATUS_period_pending 0 = 1
              ∧ t.fld F.TIME_TICK_STATUS_pending_code 0 = s.newPeriod s.cut.image % 2 ^ 3)
        ∧ t = { s with regs := t.regs, cut := t.cut }
        ∧ regsKept s t [.CUT_STATUS, .CUT_STAGED_TICK, .TIME_TICK_STATUS])))
  ∧ ∀ (s v : State) (n : Nat) (b : Bytes), s.tickDue = some n → v = s.atBoundary n → b = s.cut.image →
    s.cores = [] → s.host.flr1 = false → s.health.moves = [] → s.health.installs = [] →
    s.fld F.CUT_STATUS_state 0 = 2 →
    (n < s.cut.applyAt ∨ (v.newPeriod b ≠ v.fld F.TIME_TICK_STATUS_period_code 0
        ∧ v.qualifies (v.newPeriod b) n = false) → ∃ t, exec .tickBoundary s = .next t ∧ cutKept s t
      ∧ t.fld F.CUT_STATUS_state 0 = 2)
    ∧ (s.cut.applyAt ≤ n →
      (v.newPeriod b = v.fld F.TIME_TICK_STATUS_period_code 0 ∨ v.qualifies (v.newPeriod b) n = true) →
      (∀ r, firstRej [v.cutReturns (cutEnts b), v.cutLive (v.withCut (v.resulting b)) b (cutEnts b),
          v.fhLive (v.withCut (v.resulting b)) b (cutEnts b)] = some r →
        ∃ t, exec .tickBoundary s = .next t ∧ cutKept s t ∧ t.fld F.CUT_STATUS_state 0 = 0
          ∧ cutRejected t (r.code % 2 ^ F.CUT_STATUS_last_result.width)
            (r.sec % 2 ^ F.CUT_STATUS_last_section.width) (r.idx % 2 ^ F.CUT_STATUS_last_entry.width))
      ∧ (firstRej [v.cutReturns (cutEnts b), v.cutLive (v.withCut (v.resulting b)) b (cutEnts b),
          v.fhLive (v.withCut (v.resulting b)) b (cutEnts b)] = none →
        ∃ t, exec .tickBoundary s = .next t ∧ t.cut.active = s.resulting b
          ∧ t.fld F.CUT_GEN_generation 0 = leAt b 0x10 8 % 2 ^ 64
          ∧ t.fld F.CUT_CHAIN_DIGEST_digest 0 = leNat (sha256 (leBytes 32
              (if cutFull b then 0 else s.fld F.CUT_CHAIN_DIGEST_digest 0) ++ sha256 b)) % 2 ^ 256
          ∧ t.fld F.CUT_STATUS_state 0 = 0 ∧ t.fld F.CUT_STATUS_last_result 0 = 0
          ∧ t.fld F.CUT_EVENT_applied 0 = 1
          ∧ (s.bootState = 4 → cutFull b = true → t.bootState = 5 ∧ t.fld F.DEV_STATUS_ready 0 = 1)
          ∧ t.fld F.TIME_TICK_NUMBER_tick_number 0 = n % 2 ^ F.TIME_TICK_NUMBER_tick_number.width))

/-- R353 to R357, R359, R361, R368: QUIESCE, RESUME, FREEZE and RESET move a slice between its states or are refused; a
command ends with its result, the bit of SLC_DONE and the slice event, once its own requests are no longer held;
QUIESCED leaves no context; a reset fences the slice and ends with its portal at the reset values.
Choices of the model in it: log entries 60, 117 to 119. -/
def Obligations.SliceStates : Prop :=
  ∀ (s : State) (sl : Nat), sl < 256 →
    (s.fld F.SLC_CMD_busy sl = 1 →
      ∀ c ∈ [Instr.quiesce sl, .resume sl, .freeze sl, .save sl false, .save sl true, .restore sl, .logStart sl,
        .logStop sl, .logFlush sl], ∃ t, exec c s = .next t ∧ sliceAnswered s t sl 2)
    ∧ (s.fld F.SLC_CMD_busy sl = 0 →
      (s.slState sl = 2 → ∃ t, exec (.quiesce sl) s = .next t ∧ t.slState sl = 3 ∧ sliceBusy t sl 0
        ∧ t.mem = s.mem ∧ t.cores = s.cores)
      ∧ (s.slState sl = 4 → ∃ t, exec (.quiesce sl) s = .next t ∧ t.slState sl = 4 ∧ sliceBusy t sl 0
        ∧ t.mem = s.mem ∧ t.cores = s.cores)
      ∧ (s.slState sl ≠ 2 → s.slState sl ≠ 4 → ∃ t, exec (.quiesce sl) s = .next t ∧ sliceAnswered s t sl 1)
      ∧ (s.slState sl = 3 ∨ s.slState sl = 4 ∨ s.slState sl = 5 →
        ∃ u : State, exec (.resume sl) s = .next u.settle ∧ u.slState sl = 2 ∧ sliceBusy u sl 0
          ∧ (∀ p slot x, u.ctx p slot = some x → x.owner = sl → x.frozen = false)
          ∧ u.mem = s.mem ∧ u.poison = s.poison)
      ∧ (s.slState sl = 2 → ∃ t, exec (.resume sl) s = .next t ∧ t.slState sl = 2 ∧ sliceBusy t sl 0
        ∧ t.cores = s.cores)
      ∧ (s.slState sl ≤ 1 ∨ 6 ≤ s.slState sl → ∃ t, exec (.resume sl) s = .next t ∧ sliceAnswered s t sl 1)
      ∧ (s.slState sl = 2 ∨ s.slState sl = 3 ∨ s.slState sl = 4 →
        ∃ u : State, exec (.freeze sl) s = .next u.settle ∧ u.slState sl = 5 ∧ sliceBusy u sl 16
          ∧ (∀ p slot x, u.ctx p slot = some x → x.owner = sl → x.frozen = true)
          ∧ u.mem = s.mem ∧ u.poison = s.poison)
      ∧ (s.slState sl = 5 → ∃ t, exec (.freeze sl) s = .next t ∧ t.slState sl = 5 ∧ sliceBusy t sl 0
        ∧ t.cores = s.cores)
      ∧ (s.slState sl ≤ 1 ∨ 6 ≤ s.slState sl → ∃ t, exec (.freeze sl) s = .next t ∧ sliceAnswered s t sl 1))
    ∧ (2 ≤ s.slState sl → s.slState sl ≤ 6 → ∃ t, exec (.reset sl) s = .next t ∧ t.slState sl = 6
      ∧ sliceBusy t sl 17 ∧ (t.slice sl).fenced = true ∧ (t.slice sl).pri = [] ∧ (t.slice sl).atsWait = []
      ∧ ((s.slice sl).command.isSome = true → t.fld F.SLC_CMD_last_result sl = 11))
    ∧ (s.slState sl < 2 ∨ 6 < s.slState sl → ∃ t, exec (.reset sl) s = .next t ∧ sliceAnswered s t sl 1)
    ∧ ((s.slice sl).command = some 16 → s.inFlight sl = false →
      ∃ t, exec (.freezeComplete sl) s = .next t ∧ sliceEnded s t sl 0)
    ∧ ((s.slice sl).command ≠ some 16 ∨ s.inFlight sl = true → exec (.freezeComplete sl) s = .next s)
    ∧ (∀ r, (s.slice sl).command = some r →
      (r < 16 ∨ r = 19 → (∀ h ∈ s.host.held, h.job ≠ some sl) →
        ∃ t, exec (.sliceCommandEnd sl) s = .next t ∧ sliceEnded s t sl (if r = 19 then 0 else r))
      ∧ (r < 16 ∨ r = 19 → (∃ h ∈ s.host.held, h.job = some sl) → exec (.sliceCommandEnd sl) s = .next s)
      ∧ (r = 18 → s.canIssue 0 = false → s.heldOut 257 (s.slice sl).since = false →
        exec (.sliceCommandEnd sl) s = .next s)
      ∧ (r = 18 → s.canIssue 0 = true ∨ s.heldOut 257 (s.slice sl).since = true →
        ∃ u : State, exec (.sliceCommandEnd sl) s = .next u.settle
          ∧ sliceEnded (s.restoreRun sl).2 u sl (s.restoreRun sl).1)
      ∧ (r = 16 ∨ r = 17 → exec (.sliceCommandEnd sl) s = .next s))
    ∧ (s.slState sl = 3 → s.quiet sl = true →
      ∃ u : State, exec (.quiesceComplete sl) s = .next u.afterAll ∧ u.slState sl = 4
        ∧ ∀ p slot x, u.ctx p slot = some x → x.owner ≠ sl)
    ∧ (s.slState sl ≠ 3 ∨ s.quiet sl = false → exec (.quiesceComplete sl) s = .next s)
    ∧ (s.slState sl = 6 → (s.slice sl).zeroPages = [] →
      ∃ u : State, exec (.resetEnd sl) s = .next u.settle
        ∧ u.slState sl = (if (s.partitionOf sl).isSome then 2 else 1) ∧ (u.slice sl).fenced = false
        ∧ (∀ r ∈ portalRegs, u.reg r sl = r.resetVal sl)
        ∧ u.fld F.SLC_LOG_STATUS_logging sl = 0 ∧ u.fld F.SLC_ND_TOTAL_total sl = 0
        ∧ ((s.slice sl).command = some 17 → (u.slice sl).command = none ∧ u.fld F.SLC_CMD_busy sl = 0
            ∧ u.fld F.SLC_CMD_last_result sl = 0 ∧ (u.fld F.SLC_DONE_done 0).testBit sl = true)
        ∧ u.mem = s.mem ∧ u.cores = s.cores)
    ∧ (s.slState sl ≠ 6 ∨ (s.slice sl).zeroPages ≠ [] → exec (.resetEnd sl) s = .next s)

/-- R349, R350, R359, R360, R362 to R366, R374: SAVE writes the image to the host, RESTORE installs one in a FROZEN
slice or ends with its result, the log commands start, stop and flush dirty-page logging; page translations and page
requests are answered; the credit limit, TDISP and the count of R374 are written.
Choices of the model in it: log entries 61 and 62, 120 to 127. -/
def Obligations.SliceServices : Prop :=
  ∀ (s : State) (sl : Nat), sl < 256 →
    (s.fld F.SLC_CMD_busy sl = 0 →
      (∀ vault q, s.partitionOf sl = some q → s.slState sl ≠ 6 →
        (s.isConfidential sl = true → ∃ t, exec (.save sl vault) s = .next t ∧ sliceBusy t sl 9 ∧ t.host = s.host)
        ∧ (s.isConfidential sl = false → ∀ img bad, s.sliceImage sl q vault = (img, bad) →
          ∃ t, exec (.save sl vault) s = .next t
            ∧ t.fld F.SLC_XFER_DONE_image_len sl
                = (if s.fld F.SLC_XFER_LEN_buf_len sl < img.length ∨ bad = false then img.length % 2 ^ 40 else 0)
            ∧ sliceBusy t sl (if s.fld F.SLC_XFER_LEN_buf_len sl < img.length then 3 else if bad then 10 else 19)
            ∧ (img.length ≤ s.fld F.SLC_XFER_LEN_buf_len sl → bad = false → landsAtOnce s 257 →
                s.fld F.SLC_XFER_ADDR_addr_4k sl * 4096 + img.length ≤ 2 ^ 64 →
                t.hostBytes none (s.fld F.SLC_XFER_ADDR_addr_4k sl * 4096) img.length = img)
            ∧ img.take 6 = leBytes 4 0x32534E46 ++ leBytes 2 1
            ∧ t.mem = s.mem ∧ t.cores = s.cores))
      ∧ (s.partitionOf sl = none → (∃ t, exec (.save sl false) s = .next t ∧ sliceAnswered s t sl 1)
        ∧ ∃ t, exec (.restore sl) s = .next t ∧ sliceAnswered s t sl 1)
      ∧ (∀ q a len, s.partitionOf sl = some q → a = s.fld F.SLC_XFER_ADDR_addr_4k sl * 4096 →
        len = s.fld F.SLC_XFER_LEN_buf_len sl →
        (s.slState sl ≠ 4 → ∃ t, exec (.restore sl) s = .next t ∧ sliceAnswered s t sl 1)
        ∧ (s.slState sl = 4 → s.canIssue 0 = false →
          ∃ t, exec (.restore sl) s = .next t ∧ sliceBusy t sl 18 ∧ (t.slice sl).since = some s.time.clk
            ∧ t.cores = s.cores ∧ t.mem = s.mem ∧ t.host = s.host)
        ∧ (s.slState sl = 4 → s.hostError none a len = true → s.canIssue 0 = true →
          ∃ u : State, exec (.restore sl) s = .next u.settle ∧ sliceBusy u sl (if s.isConfidential sl then 9 else 10)
            ∧ u.cores = s.cores ∧ u.mem = s.mem)
        ∧ (s.slState sl = 4 → s.hostError none a len = false → s.canIssue 0 = true →
          (∀ code, s.restoreCheck sl q (s.hostBytes none a len) = code → code ≠ 0 →
            ∃ u : State, exec (.restore sl) s = .next u.settle ∧ sliceBusy u sl code ∧ u.cores = s.cores ∧ u.mem = s.mem)
          ∧ (s.restoreCheck sl q (s.hostBytes none a len) = 0 → s.isConfidential sl = true →
            ∃ u : State, exec (.restore sl) s = .next u.settle ∧ sliceBusy u sl 9 ∧ u.cores = s.cores ∧ u.mem = s.mem)
          ∧ (s.restoreCheck sl q (s.hostBytes none a len) = 0 → s.isConfidential sl = false →
            ∃ u : State, exec (.restore sl) s = .next u.settle ∧ u.slState sl = 5 ∧ sliceBusy u sl 0)))
      ∧ (2 ≤ s.slState sl → ∃ t, exec (.logStart sl) s = .next t ∧ t.fld F.SLC_LOG_STATUS_logging sl = 1
        ∧ (t.slice sl).filter = [] ∧ sliceBusy t sl 0 ∧ t.mem = s.mem ∧ t.cores = s.cores ∧ t.host = s.host)
      ∧ (s.slState sl ≤ 1 → ∃ t, exec (.logStart sl) s = .next t ∧ sliceAnswered s t sl 1)
      ∧ (s.slState sl ≠ 0 → ∃ t v, exec (.logStop sl) s = .next t ∧ exec (.logFlush sl) s = .next v
        ∧ t.fld F.SLC_LOG_STATUS_logging sl = 0
        ∧ v.fld F.SLC_LOG_STATUS_logging sl = s.fld F.SLC_LOG_STATUS_logging sl
        ∧ (t.slice sl).logPending = [] ∧ (v.slice sl).logPending = [] ∧ (v.slice sl).filter = []
        ∧ sliceBusy t sl 0 ∧ sliceBusy v sl 0 ∧ t.mem = s.mem ∧ v.mem = s.mem ∧ v.cores = s.cores
        ∧ ∀ pg h n, (s.slice sl).logPending = [pg] → (s.slice sl).fenced = false → landsAtOnce s 257 →
            h = s.fld F.SLC_LOG_PTR_head sl → n = ringEntries (s.fld F.SLC_LOG_RING_size_code sl) 8 →
            ringRoom h (s.fld F.SLC_LOG_PTR_tail sl) n = true →
            v.hostBytes none (s.fld F.SLC_LOG_RING_base_4k sl * 4096 + h % n * 8) 8
                = leBytes 8 (pg * 4096 + if h / n % 2 = 0 then 1 else 0)
            ∧ v.fld F.SLC_LOG_PTR_head sl = (h + 1) % 2 ^ 32))
    ∧ (∀ page, page ∈ (s.slice sl).pri →
      (∃ t, exec (.pageRequestResponse sl page .success) s = .next t
        ∧ t.slice sl = { s.slice sl with pri := (s.slice sl).pri.erase page,
                                         atsWait := (s.slice sl).atsWait ++ [page] }
        ∧ (∀ k, k ≠ sl → t.slice k = s.slice k) ∧ t = { s with slices := t.slices })
      ∧ ∀ code, code ≠ PriCode.success → ∃ u : State, exec (.pageRequestResponse sl page code) s = .next u.afterAll
        ∧ (u.slice sl).pri = (s.slice sl).pri.erase page
        ∧ ∀ c ∈ s.contextsOf sl, s.needsPage sl page c = true → u.ctx c.1 c.2 = none)
    ∧ (∀ page, page ∈ (s.slice sl).atsWait →
      (∃ u : State, exec (.translationCompletion sl page .translated) s = .next u.settle
        ∧ page ∈ (u.slice sl).atc ∧ u.mem = s.mem ∧ u.cores = s.cores)
      ∧ (s.fld F.SLC_CFG_pri_en sl = 1 → s.slState sl ≠ 5 → (s.slice sl).pri.length < 32 →
        ∃ t, exec (.translationCompletion sl page .refused) s = .next t
          ∧ t.slice sl = { s.slice sl with atsWait := (s.slice sl).atsWait.erase page,
                                           pri := (s.slice sl).pri ++ [page] }
          ∧ t = { s with slices := t.slices }))
    ∧ (∀ page r, page ∉ (s.slice sl).atsWait → exec (.translationCompletion sl page r) s = .next s)
    ∧ (∀ lo hi, ∃ t, exec (.atsInvalidation sl lo hi) s = .next t
      ∧ (∀ p, p ∈ (t.slice sl).atc ↔ p ∈ (s.slice sl).atc ∧ ¬ (lo ≤ p ∧ p < hi))
      ∧ (∀ k, k ≠ sl → t.slice k = s.slice k) ∧ t = { s with slices := t.slices })
    ∧ (∀ v, (s.tdiLocked sl = true ∨ 16384 < s.creditTotal - s.fld F.SLC_CFG_credit_limit sl + v % 2 ^ 16 →
        ∃ t, exec (.creditLimitWrite sl v) s = .next t ∧ onlyRegs s t ∧ regKept s t .DEV_BAD_ACCESS 0)
      ∧ (s.tdiLocked sl = false → s.creditTotal - s.fld F.SLC_CFG_credit_limit sl + v % 2 ^ 16 ≤ 16384 →
        ∃ t, exec (.creditLimitWrite sl v) s = .next t ∧ t.fld F.SLC_CFG_credit_limit sl = v % 2 ^ 16
          ∧ t.fld F.SLC_CFG_ats_en sl = v / 2 ^ 16 % 2 ∧ t.fld F.SLC_CFG_pri_en sl = v / 2 ^ 17 % 2
          ∧ t.mem = s.mem ∧ t.cores = s.cores))
    ∧ (s.tdispReach sl = true → ∀ stream,
      (s.fld F.SLC_STATE_tdi_state sl = 0 → (look none s.boot.ideKeys stream).isSome = true →
        ∃ t, exec (.tdispLockInterface sl stream) s = .next t ∧ t.fld F.SLC_STATE_tdi_state sl = 1
          ∧ (t.slice sl).stream = some stream ∧ t.mem = s.mem ∧ t.cores = s.cores)
      ∧ (s.fld F.SLC_STATE_tdi_state sl = 1 → ∃ t, exec (.tdispStartInterface sl) s = .next t
          ∧ t.fld F.SLC_STATE_tdi_state sl = 2 ∧ t.mem = s.mem ∧ t.cores = s.cores)
      ∧ (s.fld F.SLC_STATE_tdi_state sl = 3 → ∃ t, exec (.tdispStopInterface sl) s = .next t
          ∧ t.fld F.SLC_STATE_tdi_state sl = 0 ∧ (t.slice sl).stream = none ∧ t.mem = s.mem ∧ t.cores = s.cores)
      ∧ (s.fld F.SLC_STATE_tdi_state sl = 2 → ∃ t, exec (.tdispStopInterface sl) s = .next t
          ∧ t.fld F.SLC_STATE_tdi_state sl = 3
          ∧ (2 ≤ s.slState sl → s.slState sl ≤ 6 → t.slState sl = 6 ∧ (t.slice sl).fenced = true)))
    ∧ (s.tdispReach sl = false → ∀ stream, exec (.tdispLockInterface sl stream) s = .next s
      ∧ exec (.tdispStartInterface sl) s = .next s ∧ exec (.tdispStopInterface sl) s = .next s)
    ∧ (∀ stream, ∃ t, exec (.ideIntegrityFailure stream) s = .next t
      ∧ (sl ∈ s.streamSlices stream → t.fld F.SLC_STATE_tdi_state sl = 3)
      ∧ (s.streamSlices stream = [] → t = s))
    ∧ ∃ t, exec (.ndClear sl) s = .next t ∧ onlyRegs s t ∧ t.fld F.SLC_ND_TOTAL_total sl = 0
      ∧ fldKept s t F.SLC_ND_TOTAL_total sl

/-- R367, R368, R426 to R430, R433: function-level and hot resets, Bus Master Enable and the power state act on their
function and let what it held go on; a request held too long is discarded, and a command whose request it was ends
with its error; an unmasked vector sends its pending message once; reads of a failing range end in an error.
Choices of the model in it: log entries 40, 145 and 146. -/
def Obligations.HostFunctions : Prop :=
  (∀ s : State, ∃ t, exec .pf0Flr s = .next t ∧ t.host.pf0 = { s.host.pf0 with busMaster := false, d3 := false }
    ∧ t.host.pf1 = s.host.pf1 ∧ t.host.bar4Log2 = 30
    ∧ t.reg .DEV_APERTURE_BASE 0 = Reg.resetVal .DEV_APERTURE_BASE 0
    ∧ t.fld F.CUT_STATUS_state 0 = 0 ∧ (∀ v, v < 4096 → t.msixEntry 0 v = MsixEntry.init)
    ∧ (∀ v, v < 4096 → t.msixEntry 1 v = s.msixEntry 1 v)
    ∧ t.mem = s.mem ∧ t.poison = s.poison ∧ t.cores = s.cores ∧ t.time = s.time)
  ∧ (∀ s : State, ∃ t, exec .pf1Flr s = .next t ∧ t.host.pf1 = { s.host.pf1 with busMaster := false, d3 := false }
    ∧ t.host.pf0 = s.host.pf0 ∧ t.host.flr1 = true
    ∧ (∀ r ∈ portalRegs, t.reg r 256 = r.resetVal 256)
    ∧ (∀ k, k < 32 → t.fld F.CLU_LANT_CTL_run k = 0 ∧ t.fld F.CLU_LANT_CTL_running k = 0)
    ∧ (∀ p x, t.ctx p 0 = some x → x.lists = [])
    ∧ t.mem = s.mem ∧ t.poison = s.poison ∧ t.time = s.time)
  ∧ (∀ s : State,
    (s.pins.perst = false → exec .hotReset s = .next s ∧ exec .pcieLinkUp s = .next s)
    ∧ (s.pins.perst = true →
      (∃ t, exec .pcieLinkUp s = .next t ∧ t = { s with host := { s.host with linkUp := true } })
      ∧ ∃ t, exec .hotReset s = .next t ∧ t.host.linkUp = false
        ∧ t.host.pf0 = { s.host.pf0 with busMaster := false, d3 := false }
        ∧ t.host.pf1 = { s.host.pf1 with busMaster := false, d3 := false }
        ∧ t.boot.ideKeys = [] ∧ ∀ sl, s.tdiLocked sl = true → t.fld F.SLC_STATE_tdi_state sl = 3))
  ∧ (∀ s : State, ∃ u v : State, exec (.busMasterEnable 0) s = .next u.settle
    ∧ exec (.busMasterEnable 1) s = .next v.settle
    ∧ u.host.pf0 = { s.host.pf0 with busMaster := true } ∧ u.host.pf1 = s.host.pf1
    ∧ v.host.pf1 = { s.host.pf1 with busMaster := true } ∧ v.host.pf0 = s.host.pf0
    ∧ (s.boot.enrol = none → (∀ e ∈ s.cells, e.2.fetch = none) →
      (s.host.held = [] → u = { s with host := { s.host with pf0 := u.host.pf0 } })
      ∧ ∀ a d since, s.host.held = [⟨257, .write none a d false, since, none, false, none⟩] → s.host.pf0.d3 = false →
        a + d.length ≤ 2 ^ 64 → u.host.held = [] ∧ u.hostBytes none a d.length = d)
    ∧ ∀ cell f, s.cells.map (·.1) = [cell] → (s.cell cell).fetch = some f → s.host.held = [] → s.boot.enrol = none →
        s.host.pf1.d3 = false → (v.cell cell).fetch = none
          ∧ v.fld F.CLU_CELL_STATE_last_result cell
            = ({ s.setCell cell { s.cell cell with fetch := none } with
                  host := { s.host with pf1 := { s.host.pf1 with busMaster := true } } }).cmdCheck cell f.op
                (s.hostBytes none (s.cfgAddr cell) 128))
  ∧ (∀ (s : State) (d3 : Bool), ∃ u v : State, exec (.powerStateChange 0 d3) s = .next u.settle
    ∧ exec (.powerStateChange 1 d3) s = .next v.settle
    ∧ u.host.pf0 = { s.host.pf0 with d3 := d3 } ∧ u.host.pf1 = s.host.pf1
    ∧ v.host.pf1 = { s.host.pf1 with d3 := d3 } ∧ v.host.pf0 = s.host.pf0
    ∧ u.mem = s.mem ∧ v.mem = s.mem
    ∧ ((∀ e ∈ s.cells, e.2.fetch = none) → u.cores = s.cores ∧ v.cores = s.cores))
  ∧ (∀ s : State, ∃ u : State, exec .heldRequestTimeout s = .next u.settle
    ∧ (s.boot.enrol = none → (∀ e ∈ s.cells, e.2.fetch = none) →
      u.host = { s.host with held := s.host.held.filter fun h => !s.heldOver h }
      ∧ (∀ h p slot seq, s.host.held.filter s.heldOver = [h] → h.flag = some (p, slot, seq) →
        ∀ x, s.ctx p slot = some x → u.ctx p slot = some { x with queue := x.queue.map fun c =>
          if c.seq = seq then { c with err := if c.err = 0 then ePoison else c.err } else c })
      ∧ (∀ h sl, s.host.held.filter s.heldOver = [h] → h.flag = none → h.job = some sl →
          (s.slice sl).command = some 19 →
          (u.slice sl).command = some 10 ∧ u.fld F.SLC_XFER_DONE_image_len sl = 0)
      ∧ u = { s with host := u.host, cores := u.cores, slices := u.slices, regs := u.regs }
      ∧ ((∀ h ∈ s.host.held, h.job = none) → u.regs = s.regs ∧ u.slices = s.slices))
    ∧ ∀ cell f, s.cells.map (·.1) = [cell] → (s.cell cell).fetch = some f → s.canIssue 1 = false →
        s.heldOut 256 (some f.since) = true →
        (u.cell cell).fetch = none ∧ u.fld F.CLU_CELL_STATE_last_result cell = 6)
  ∧ (∀ (s : State) (fn v : Nat),
    (vectorsOf fn ≤ v → exec (.msixUnmask fn v) s = .next s)
    ∧ (v < vectorsOf fn → ∃ t, exec (.msixUnmask fn v) s = .next t
      ∧ t.msixEntry fn v = { s.msixEntry fn v with masked := false, pending := false }
      ∧ (∀ w, w ≠ v → w < 4096 → t.msixEntry fn w = s.msixEntry fn w)
      ∧ ((s.msixEntry fn v).pending = false → t.host.sent = s.host.sent)
      ∧ ((s.msixEntry fn v).pending = true → landsAtOnce s (if fn = 1 then 256 else 257) →
          t.host.sent = s.host.sent ++ [.msix fn v (s.msixEntry fn v).addr (s.msixEntry fn v).data])
      ∧ t = { s with host := t.host }))
  ∧ (∀ (s : State) (pasid : Option Nat) (a len : Nat), ∃ t, exec (.hostReadError pasid a len) s = .next t
    ∧ (∀ b n, hostKey pasid a < hostKey pasid b + n → hostKey pasid b < hostKey pasid a + len →
        t.hostError pasid b n = true)
    ∧ t.host.mem = s.host.mem ∧ t = { s with host := { s.host with fail := t.host.fail } })
  ∧ (∀ (s : State) (req : Nat) (pasid : Option Nat) (a size v : Nat), a + size ≤ 2 ^ 64 →
    (∃ t, exec (.registerWrite req (.hostMemory pasid) a size v) s = .next t
      ∧ t.hostBytes pasid a size = leBytes size v ∧ t.hostError pasid a size = false
      ∧ t = { s with host := t.host })
    ∧ exec (.rcRead req (.hostMemory pasid) a size) s
        = .next (s.answers (leNat (s.hostBytes pasid a size))))
  ∧ ∀ (s : State) (req off size v a n o p : Nat), 0 < size → off + size ≤ 2 ^ s.host.bar4Log2 →
    a = s.apertureAddr off → touchesReserved a size = false → locate a = .vault n o → s.physOf n = some p →
    (s.hidden p o size = true → ∃ t, exec (.registerWrite req .pf0Bar4 off size v) s = .next t ∧ onlyRegs s t
      ∧ regKept s t .DEV_BAD_ACCESS 0)
    ∧ (s.hidden p o size = false → s.rangeHeld a size = true →
      ∃ t, exec (.registerWrite req .pf0Bar4 off size v) s = .next t
        ∧ (t.core p).memHeld = (s.core p).memHeld ++ [.aperture a size (some v)] ∧ t = { s with cores := t.cores })
    ∧ (s.hidden p o size = false → s.rangeHeld a size = false →
      (∃ t, exec (.registerWrite req .pf0Bar4 off size v) s = .next t ∧ t.bytesAt a size = leBytes size v
        ∧ (∀ k, k < a ∨ a + size ≤ k → t.byte k = s.byte k) ∧ ∀ q sl, t.ctx q sl = s.ctx q sl)
      ∧ ∃ t, exec (.rcRead req .pf0Bar4 off size) s = .next t ∧ t.lastRead = leNat (s.bytesAt a size)
        ∧ t.lastPoison = s.anyPoison a size ∧ t.mem = s.mem)

/-! ### Citia Link (chapter 18) -/

/-- R377, R421, R422, R424: a BARRIER adds to its local object, or waits and sends its add to the root of its group; the
root applies the add of an admitted member to a group object and, when the target of that add is reached, sends a
release to each present member; a release acts at its instant, or at once and counted when it is late; a broken one,
or a refusal, fails the BARRIERs that wait.
Choices of the model in it: log entry 135. -/
def Obligations.GroupBarriers : Prop :=
  (∀ (s : State) (p slot : Nat) (x : Ctx) (c : QCmd), s.startOp p slot 3 5 = some (x, c) → c.pay 16 16 = 0 →
    c.pay 64 64 = 0 →
    (s.permitted (c.pay 0 15) x.owner = false → slot ≠ 0 →
      ∃ u : State, exec (.barrier p slot) s = .next (u.afterRelease p) ∧ u.ctx p slot = none)
    ∧ (s.permitted (c.pay 0 15) x.owner = true →
      (c.pay 15 1 = 0 → ∃ u : State, exec (.barrier p slot) s = .next u.settle
        ∧ u.signals = s.signals ++ [⟨c.pay 0 15, false, 1, srcOf p slot 3, x.owner⟩]
        ∧ u.ctx p slot = some { x with queue := x.queue.map fun d => if d.seq = c.seq then
            { d with phase := .started } else d }
        ∧ (∀ q sl, q ≠ p ∨ sl ≠ slot → u.ctx q sl = s.ctx q sl)
        ∧ u = { s with cores := u.cores, signals := u.signals } ∧ onlyContexts s u)
      ∧ (c.pay 15 1 = 1 → ∃ v : State,
        v.clink = { s.clink with waits := s.clink.waits ++
          [⟨p, slot, c.seq, c.pay 0 15, c.pay 32 32, s.total⟩] }
        ∧ v.ctx p slot = some { x with queue := x.queue.map fun d => if d.seq = c.seq then
            { d with phase := .started } else d }
        ∧ (∀ q sl, q ≠ p ∨ sl ≠ slot → v.ctx q sl = s.ctx q sl)
        ∧ v = { s with cores := v.cores, clink := v.clink } ∧ onlyContexts s v
        ∧ (s.isRoot = true → exec (.barrier p slot) s = .next (v.rootAdd 0 (c.pay 0 15) (c.pay 32 32)).settle)
        ∧ (s.isRoot = false → exec (.barrier p slot) s = .next
            ({ v with clink := { v.clink with sent := v.clink.sent ++
                (if (s.portTo 0).isSome then [.barrierAdd (c.pay 0 15) (c.pay 32 32)] else []) } } : State).settle))))
  ∧ (∀ (s : State) (c member n target : Nat), flitFiltered s (.groupBarrierAdd c member n target) c 2 member
    ∧ (flitArrives s c 2 member → s.isRoot = true → member < 64 → member ≠ s.ownMember → n < 2 ^ 15 →
      target < 2 ^ 32 →
      (s.groupObject n = false → ∃ t, exec (.groupBarrierAdd c member n target) s = .next t
        ∧ t = { s with clink := { s.clink with sent := s.clink.sent ++ [.refuse member n] } })
      ∧ (s.groupObject n = true → (s.fld F.CLINK_GROUP_MEMBERS_admitted 0).testBit member = false →
        exec (.groupBarrierAdd c member n target) s = .next s)
      ∧ (s.groupObject n = true → (s.fld F.CLINK_GROUP_MEMBERS_admitted 0).testBit member = true →
        ∃ u : State, wrappedUp s u F.SYNC_OBJ_value n ∧ wrappedUp s u F.SYNC_OBJ_ops n ∧ regKept s u .SYNC_OBJ n
          ∧ u = { s with regs := u.regs, clink := { s.clink with
              lastAdd := put 0 s.clink.lastAdd member (s.total + 1) } }
          ∧ (reached ((s.fld F.SYNC_OBJ_value n + 1) % 2 ^ 32) target = false →
            exec (.groupBarrierAdd c member n target) s = .next u.settle)
          ∧ (reached ((s.fld F.SYNC_OBJ_value n + 1) % 2 ^ 32) target = true →
            ∃ t, exec (.groupBarrierAdd c member n target) s = .next t
              ∧ (∀ m, m < 64 → (s.fld F.CLINK_GROUP_MEMBERS_admitted 0).testBit m = true →
                  look 0 u.clink.lastAdd m ≠ 0 →
                  t.fld F.CLINK_ARRIVAL_arrival m = (look 0 u.clink.lastAdd m - 1) % 2 ^ 32)
              ∧ (∀ m, m < 64 → m ≠ s.ownMember → (s.fld F.CLINK_GROUP_MEMBERS_present 0).testBit m = true →
                  (s.portTo m).isSome = true →
                  .release m n ((s.fld F.SYNC_OBJ_value n + 1) % 2 ^ 32) (decide (u.settle.fld F.SYNC_OBJ_broken n = 1))
                    (s.total + s.fld F.CLINK_GROUP_CFG_release_lead_ns 0) ∈ t.clink.sent)
              ∧ (u.settle.fld F.SYNC_OBJ_broken n = 0 → t.mem = u.settle.mem ∧ t.cores = u.settle.cores
                ∧ t.clink.releases = s.clink.releases ++ [⟨n, (s.fld F.SYNC_OBJ_value n + 1) % 2 ^ 32,
                    s.total + s.fld F.CLINK_GROUP_CFG_release_lead_ns 0⟩])))))
  ∧ (∀ (s : State) (c n value start : Nat) (broken refused : Bool),
    flitFiltered s (.groupReleaseReceive c n value broken refused start) c 2 0
    ∧ (flitArrives s c 2 0 → value < 2 ^ 32 →
      (refused = true → ∃ u : State, exec (.groupReleaseReceive c n value broken refused start) s = .next u.afterAll
        ∧ ∀ w, groupWaiting s w n → (w.slot ≠ 0 → u.ctx w.core w.slot = none)
            ∧ (w.slot = 0 → cmdWorked u w.core w.slot w.seq))
      ∧ (refused = false → broken = true →
        ∃ u : State, exec (.groupReleaseReceive c n value broken refused start) s = .next u.afterAll
          ∧ (∀ w, groupWaiting s w n → cmdWorked u w.core w.slot w.seq) ∧ u.mem = s.mem ∧ u.signals = s.signals
          ∧ regsKept s u [.SYNC_OBJ])
      ∧ (refused = false → broken = false → s.total ≤ start →
        exec (.groupReleaseReceive c n value broken refused start) s = .next
          { s with clink := { s.clink with releases := s.clink.releases ++ [⟨n, value, start⟩] } })
      ∧ (refused = false → broken = false → start < s.total →
        ∃ u : State, exec (.groupReleaseReceive c n value broken refused start) s = .next u.settle
          ∧ countedUp s u F.CLINK_PORT_CNT_late_releases c
          ∧ (∀ w, groupWaiting s w n → reached value w.target = true → cmdWorked u w.core w.slot w.seq)
          ∧ u.mem = s.mem ∧ regsKept s u [.CLINK_PORT_CNT, .CLINK_ARRIVAL] ∧ u.signals = s.signals)))
  ∧ ∀ (s : State) (n : Nat), ∃ u : State, exec (.groupBarrierRelease n) s = .next u.settle
    ∧ u.clink.releases = s.clink.releases.filter (fun r => !(r.n = n && decide (r.start ≤ s.total)))
    ∧ (∀ r ∈ s.clink.releases, r.n = n → r.start ≤ s.total → ∀ w, groupWaiting s w n →
        reached r.value w.target = true → cmdWorked u w.core w.slot w.seq)
    ∧ (∀ r w, s.clink.releases.filter (fun r => r.n = n && decide (r.start ≤ s.total)) = [r] →
        s.groupWaits n = [w] → reached r.value w.1.target = true →
        u.fld F.CLINK_ARRIVAL_lag_ns s.ownMember = min (r.start - w.1.sentAt) (2 ^ 32 - 1))
    ∧ u = { s with cores := u.cores, regs := u.regs, clink := u.clink } ∧ onlyContexts s u
    ∧ regsKept s u [.CLINK_ARRIVAL]

/-- R382, R404 to R413, R420: a retried flit is counted, on Citia Link, in a mesh or on a die-to-die port; a link that
goes down ends its transfers with outcome 2 and one that comes up is reported; time messages give offset and delay; a
hello makes its member present; a queue takes the records that its producer object shows, ends those that fail a check
and sends the others with the poison bit of each line; acknowledgements end them in order; what lands is written
through its grant, line by line, and a refused transfer not at all; what lies in memory that is held waits.
Choices of the model in it: log entries 128 to 132, 136, 137, 175, 184, 186 and 190. -/
def Obligations.CitiaTransfers : Prop :=
  ∀ (s : State) (c : Nat),
    (c < 2 → s.portUp c = true →
      (∃ t, exec (.flitCrcFail c) s = .next t ∧ onlyRegs s t ∧ countedUp s t F.CLINK_PORT_CNT_retries c
        ∧ fldKept s t F.CLINK_PORT_CNT_retries c)
      ∧ ∃ u : State, exec (.clinkLinkDown c) s = .next u.settle ∧ u.fld F.CLINK_PORT_STATUS_link_up c = 0
        ∧ countedUp s u F.CLINK_PORT_STATUS_link_downs c
        ∧ (∀ q, q < 16 → (∀ x ∈ (u.xq c q).flying, x.ended ≠ none)
          ∧ ((∀ x ∈ (s.xq c q).flying, s.rangeHeld (s.xqRecord (c * 16 + q) x.index) 64 = false) →
              (u.xq c q).flying = []))
        ∧ (∀ a, (∀ q, q < 16 → (s.xq c q).flying = []) → u.byte a = s.byte a)
        ∧ (∀ q n b k, q < 16 → (s.xq c q).flying = [⟨n, b, k, none⟩] →
            (∀ j, j < 16 → j ≠ q → (s.xq c j).flying = []) →
            s.rangeHeld (s.xqRecord (c * 16 + q) n) 64 = false →
            u.bytesAt (s.xqRecord (c * 16 + q) n + 0x30) 2 = [2, 0]
              ∧ countedUp s u F.CLINK_PORT_CNT_xfer_aborted c)
        ∧ ((∀ q, q < 16 → ∀ x ∈ (s.xq c q).flying, x.ended = none) → u.signals = s.signals)
        ∧ (look false s.clink.exchange c = true → u.fld F.CLINK_TIME_valid c = 0)
        ∧ (∀ e ∈ u.clink.landHeld, e.1 ≠ c) ∧ u.cores = s.cores)
    ∧ (2 ≤ c → c < 4 → ∃ t, exec (.flitCrcFail c) s = .next t ∧ onlyRegs s t
        ∧ countedUp s t F.HLTH_LINK_noc_retries (c - 2) ∧ fldKept s t F.HLTH_LINK_noc_retries (c - 2))
    ∧ (4 ≤ c → c < 6 → ∃ t, exec (.flitCrcFail c) s = .next t ∧ onlyRegs s t
        ∧ countedUp s t F.HLTH_LINK_d2d_retries (c - 4) ∧ fldKept s t F.HLTH_LINK_d2d_retries (c - 4))
    ∧ (6 ≤ c → exec (.flitCrcFail c) s = .next s)
    ∧ (c < 2 → s.portUp c = false → exec (.flitCrcFail c) s = .next s ∧ exec (.clinkLinkDown c) s = .next s.settle)
    ∧ (c < 2 → s.role c ≠ 0 → s.portUp c = false →
      (s.lanesUp c = false → exec (.clinkLinkUp c) s = .next s)
      ∧ (s.lanesUp c = true → landsAtOnce s 257 → (s.msixEntry 0 3).masked = false →
        ∃ t, exec (.clinkLinkUp c) s = .next t ∧ t.fld F.CLINK_PORT_STATUS_link_up c = 1
          ∧ fldKept s t F.CLINK_PORT_STATUS_link_up c
          ∧ t = { s with regs := t.regs, host := { s.host with
              sent := s.host.sent ++ [.msix 0 3 (s.msixEntry 0 3).addr (s.msixEntry 0 3).data] } }))
    ∧ (∀ t1 t2 t3 t4, flitFiltered s (.timeMessageReceive c t1 t2 t3 t4) c (s.role c) 0
      ∧ (flitArrives s c (s.role c) 0 → s.role c ≠ 0 →
        ∃ t, exec (.timeMessageReceive c t1 t2 t3 t4) s = .next t ∧ regKept s t .CLINK_TIME c
          ∧ t = { s with regs := t.regs, clink := { s.clink with exchange := put false s.clink.exchange c false } }
          ∧ t.fld F.CLINK_TIME_offset c = ofSigned 32 ((t2 - t1) - (t4 - t3))
          ∧ t.fld F.CLINK_TIME_delay c = ofSigned 31 (2 * ((t4 - t1) - (t3 - t2)))
          ∧ t.fld F.CLINK_TIME_valid c = 1))
    ∧ (∀ member, flitFiltered s (.helloReceive c member) c 2 member
      ∧ (flitArrives s c 2 member → member < 64 → ∃ t, exec (.helloReceive c member) s = .next t
        ∧ t = { s with regs := t.regs, clink := { s.clink with
            hello := put 0 s.clink.hello member (s.tickNo + 1) } }
        ∧ fldKept s t F.CLINK_GROUP_MEMBERS_present 0
        ∧ (t.fld F.CLINK_GROUP_MEMBERS_present 0).testBit member = true
        ∧ ∀ m, m < 64 → m ≠ member → (t.fld F.CLINK_GROUP_MEMBERS_present 0).testBit m
            = (decide (look 0 s.clink.hello m ≠ 0) && decide (s.tickNo < look 0 s.clink.hello m + 2))))
    ∧ (∀ q, c < 2 → q < 16 →
      (s.xqOn (c * 16 + q) = false → exec (.xqProducerAdvance c q) s = .next s)
      ∧ (s.xqOn (c * 16 + q) = true → s.xqValid (c * 16 + q) = false →
        ∃ t, exec (.xqProducerAdvance c q) s = .next t ∧ onlyRegs s t
          ∧ t.fld F.CLINK_XQ_bad_cfg (c * 16 + q) = 1 ∧ fldKept s t F.CLINK_XQ_bad_cfg (c * 16 + q))
      ∧ (s.xqOn (c * 16 + q) = true → s.xqValid (c * 16 + q) = true →
        ∃ t, exec (.xqProducerAdvance c q) s = .next t
          ∧ t.xq c q = { s.xq c q with seen := s.fld F.SYNC_OBJ_value (s.fld F.CLINK_XQ_prod_obj (c * 16 + q)) }
          ∧ t = { s with clink := { s.clink with xq := t.clink.xq } })
      ∧ (s.xqNext c q = none → ¬(s.xqOn (c * 16 + q) = true ∧ s.xqValid (c * 16 + q) = false) →
        exec (.transferWrite c q) s = .next s)
      ∧ (s.xqOn (c * 16 + q) = true → s.xqValid (c * 16 + q) = false →
        ∃ t, exec (.transferWrite c q) s = .next t ∧ onlyRegs s t
          ∧ t.fld F.CLINK_XQ_bad_cfg (c * 16 + q) = 1 ∧ fldKept s t F.CLINK_XQ_bad_cfg (c * 16 + q))
      ∧ (∀ n b, s.xqNext c q = some (n, b) → s.rangeHeld (s.xqRecord (c * 16 + q) n) 64 = true →
        exec (.transferWrite c q) s = .next s)
      ∧ (∀ n b code, s.xqNext c q = some (n, b) → code = s.xferCheck c (s.xqOwner (c * 16 + q)) b →
        s.rangeHeld (s.xqRecord (c * 16 + q) n) 64 = false →
        (code ≠ 0 ∨ s.allowed c (leAt b 1 1) = false → (s.xq c q).flying ≠ [] →
          exec (.transferWrite c q) s = .next s)
        ∧ (code ≠ 0 → (s.xq c q).flying = [] → ∃ u : State, exec (.transferWrite c q) s = .next u.settle
          ∧ transferEnded s u c q n b 3 code ∧ u.xq c q = ⟨(s.xq c q).seen, (n + 1) % 2 ^ 32, []⟩
          ∧ u.clink.sent = s.clink.sent)
        ∧ (code = 0 → s.allowed c (leAt b 1 1) = false → (s.xq c q).flying = [] →
          ∃ u : State, exec (.transferWrite c q) s = .next u.settle
          ∧ transferEnded s u c q n b 2 0 ∧ u.xq c q = ⟨(s.xq c q).seen, (n + 1) % 2 ^ 32, []⟩
          ∧ u.clink.sent = s.clink.sent)
        ∧ (code = 0 → s.allowed c (leAt b 1 1) = true →
            s.portUp c = false ∨ s.rangeHeld (leAt b 8 8) (leAt b 0x18 4) = true →
          exec (.transferWrite c q) s = .next s)
        ∧ (∀ bad, bad = (List.range (leAt b 0x18 4 / 64)).map (fun i => s.poisoned (leAt b 8 8 + 64 * i)) →
          code = 0 → s.allowed c (leAt b 1 1) = true → s.portUp c = true →
          s.rangeHeld (leAt b 8 8) (leAt b 0x18 4) = false →
          ∃ t, exec (.transferWrite c q) s = .next t
          ∧ t.clink.sent = s.clink.sent ++ [.transfer c (leAt b 1 1) q (leAt b 2 1) (leAt b 0x10 8)
              (s.bytesAt (leAt b 8 8) (leAt b 0x18 4)) bad]
          ∧ t.xq c q = ⟨(s.xq c q).seen, (n + 1) % 2 ^ 32, (s.xq c q).flying ++ [⟨n, b, bad.any id, none⟩]⟩
          ∧ t = { s.readPoison (leAt b 8 8) (leAt b 0x18 4) with clink := { s.clink with
              xq := t.clink.xq, sent := t.clink.sent } }))
      ∧ (∀ outcome code,
        ((∀ x ∈ (s.xq c q).flying, x.ended ≠ none) → exec (.transferAck c q outcome code) s = .next s)
        ∧ ∀ n b poison rest ends, (s.xq c q).flying = ⟨n, b, poison, none⟩ :: rest →
          ends = (if outcome = 0 then (0, if poison then ePoison else 0) else (3, code % 256)) →
          flitFiltered s (.transferAck c q outcome code) c (s.role c) (leAt b 1 1)
          ∧ (flitArrives s c (s.role c) (leAt b 1 1) → s.rangeHeld (s.xqRecord (c * 16 + q) n) 64 = false →
            (∀ x ∈ rest, x.ended = none) →
            ∃ u : State, exec (.transferAck c q outcome code) s = .next u.settle
              ∧ transferEnded s u c q n b ends.1 ends.2 ∧ (u.xq c q).flying = rest)
          ∧ (flitArrives s c (s.role c) (leAt b 1 1) → s.rangeHeld (s.xqRecord (c * 16 + q) n) 64 = true →
            ∃ u : State, exec (.transferAck c q outcome code) s = .next u.settle
              ∧ (u.xq c q).flying = ⟨n, b, poison, some ends⟩ :: rest
              ∧ u = { s with clink := { s.clink with xq := u.clink.xq } })))
    ∧ ∀ x : Landing, flitFiltered s (.transferLand c x) c (s.role c) x.member
      ∧ (flitArrives s c (s.role c) x.member → s.role c ≠ 0 →
        (s.landWaits c x = true → exec (.transferLand c x) s = .next { s with clink := { s.clink with
            landHeld := s.clink.landHeld ++ [(c, x)] } })
        ∧ (s.landWaits c x = false → s.isRefused c x = true →
          exec (.transferLand c x) s = .next (if x.last then s.setRefused c x false else s))
        ∧ (s.landWaits c x = false → s.isRefused c x = false → s.landCheck (c * 64 + x.grant) x ≠ 0 →
          ∃ t, exec (.transferLand c x) s = .next t ∧ t.isRefused c x = !x.last
            ∧ t = { s with clink := { s.clink with refused := t.clink.refused, sent := s.clink.sent
                ++ [.landed c x.member x.grant 3 (s.landCheck (c * 64 + x.grant) x)] } })
        ∧ (s.landWaits c x = false → s.isRefused c x = false → s.landCheck (c * 64 + x.grant) x = 0 →
          ∃ t, exec (.transferLand c x) s = .next t
          ∧ t.bytesAt (s.fld F.CLINK_GRANT_base (c * 64 + x.grant) + x.dstOff) x.data.length = x.data
          ∧ (∀ a, a < s.fld F.CLINK_GRANT_base (c * 64 + x.grant) + x.dstOff
              ∨ s.fld F.CLINK_GRANT_base (c * 64 + x.grant) + x.dstOff + x.data.length ≤ a → t.byte a = s.byte a)
          ∧ (∀ a, a = s.fld F.CLINK_GRANT_base (c * 64 + x.grant) + x.dstOff → a % 64 = 0 → x.data.length % 64 = 0 →
              (∀ i, i < x.data.length / 64 → t.tagged (a + 64 * i) = x.poison.getD i false)
              ∧ ∀ k, k < a ∨ a + x.data.length ≤ k → t.tagged k = s.tagged k)
          ∧ t.signals = s.signals ++ (if x.last = true ∧ s.fld F.CLINK_GRANT_arrive_en (c * 64 + x.grant) = 1 then
              [⟨s.fld F.CLINK_GRANT_arrive_obj (c * 64 + x.grant), false, 1, 210000 + (c * 64 + x.grant),
                s.fld F.CLINK_GRANT_slice (c * 64 + x.grant)⟩] else [])
          ∧ t.clink.sent = s.clink.sent ++ (if x.last then [.landed c x.member x.grant 0 0] else [])
          ∧ t = { s with mem := t.mem, poison := t.poison, signals := t.signals,
                         clink := { s.clink with sent := t.clink.sent } }))

/-- R414 to R419: heartbeats form the pair, and those after a loss stop the cells that were taken and run on both
sides; mirrored items are kept and acknowledged, and the mirror is dumped to host memory; a handover offers every
ACTIVE cell to the twin, which starts it from its mirror or refuses it; a cell that is accepted stops at its frame, and
with the last one moved or refused the handover is done.
Choices of the model in it: log entries 133, 134 and 185. -/
def Obligations.TwinPair : Prop :=
  ∀ (s : State) (c : Nat),
    (∀ beat frame cells cell ok item,
      flitFiltered s (.heartbeatReceive c beat) c 1 0 ∧ flitFiltered s (.mirrorReceive c item) c 1 0
      ∧ flitFiltered s (.mirrorAck c) c 1 0 ∧ flitFiltered s (.handoverReceive c frame cells) c 1 0
      ∧ flitFiltered s (.handoverReplyReceive c cell ok) c 1 0)
    ∧ (flitArrives s c 1 0 →
      (∀ beat, ∃ t, exec (.heartbeatReceive c beat) s = .next t
        ∧ t.clink.twin.last = some beat ∧ t.clink.twin.beat = true
        ∧ t.clink.twin.consec = (if s.clink.twin.beat then s.clink.twin.consec else s.clink.twin.consec + 1)
        ∧ t.mem = s.mem ∧ t.cores = s.cores
        ∧ (s.fld F.CLINK_TWIN_STATUS_state c = 1 → 3 ≤ t.clink.twin.consec →
            t.fld F.CLINK_TWIN_STATUS_state c = 2 ∧ t.fld F.CLINK_TWIN_STATUS_missed c = 0
              ∧ regsKept s t [.CLINK_TWIN_STATUS] ∧ t.cells = s.cells)
        ∧ (s.fld F.CLINK_TWIN_STATUS_state c = 1 ∧ t.clink.twin.consec < 3
            ∨ s.fld F.CLINK_TWIN_STATUS_state c ≠ 1 ∧ s.fld F.CLINK_TWIN_STATUS_state c ≠ 3 →
            t.regs = s.regs ∧ t.cells = s.cells)
        ∧ (s.fld F.CLINK_TWIN_STATUS_state c = 3 → s.clink.twin.taken.Nodup →
            t.fld F.CLINK_TWIN_STATUS_state c = 2 ∧ t.fld F.CLINK_TWIN_STATUS_missed c = 0
              ∧ (∀ n, n < 1024 → n ∈ s.clink.twin.taken → n ∈ beat.active → s.fld F.CLU_CELL_STATE_state n ≠ 0 →
                  cellWaits t n 2 (s.soonFrame n) [] ∧ t.fld F.CLU_CELL_STATE_state n = 3
                    ∧ n ∉ t.clink.twin.taken)
              ∧ (∀ n, n ∉ s.clink.twin.taken ∨ n ∉ beat.active →
                  t.cell n = s.cell n ∧ t.fld F.CLU_CELL_STATE_state n = s.fld F.CLU_CELL_STATE_state n)
              ∧ t.fld F.CLINK_TWIN_STATUS_dual_cells c = min (s.fld F.CLINK_TWIN_STATUS_dual_cells c
                  + ((s.cellsIn 2 2).filter fun n => beat.active.contains n && !s.clink.twin.taken.contains n
                      && s.clink.twin.last.all fun w => w.cells.contains n).length)
                  (2 ^ 16 - 1)))
      ∧ (∀ item, ∃ t, exec (.mirrorReceive c item) s = .next t
        ∧ t = { s with clink := { s.clink with twin := t.clink.twin, sent := s.clink.sent ++ [.mirrorAck c] } }
        ∧ (∀ b, item = .cutImage b → t.clink.twin = { s.clink.twin with image := b })
        ∧ (∀ n b, item = .cellConfig n b → look [] t.clink.twin.configs n = b
            ∧ ∀ k, k ≠ n → look [] t.clink.twin.configs k = look [] s.clink.twin.configs k)
        ∧ (∀ n k, item = .cellStop n k → look 0 t.clink.twin.stops n = k + 1
            ∧ t.clink.twin.configs = s.clink.twin.configs))
      ∧ (s.clink.twin.unacked = 0 → exec (.mirrorAck c) s = .next s)
      ∧ (s.clink.twin.unacked ≠ 0 → ∃ t, exec (.mirrorAck c) s = .next t
        ∧ t.clink.twin = { s.clink.twin with unacked := s.clink.twin.unacked - 1 }
        ∧ (s.clink.twin.unacked = 1 → t.fld F.CLINK_TWIN_STATUS_mirror_ok c = 1)
        ∧ (1 < s.clink.twin.unacked → t.regs = s.regs)
        ∧ t = { s with regs := t.regs, clink := t.clink } ∧ regsKept s t [.CLINK_TWIN_STATUS])
      ∧ (∀ n frame, n < 1024 → ∃ t, exec (.handoverReceive c frame [n]) s = .next t
        ∧ ((s.entry 4 n).isNone = true → t.fld F.CLU_CELL_STATE_last_result n = 1
            ∧ .handoverReply c n false ∈ t.clink.sent ∧ t.cell n = s.cell n)
        ∧ ((s.entry 4 n).isSome = true → look [] s.clink.twin.configs n = []
              ∨ s.fld F.CLU_CELL_STATE_state n ≠ 0 → t.fld F.CLU_CELL_STATE_last_result n = 5
            ∧ .handoverReply c n false ∈ t.clink.sent ∧ t.cell n = s.cell n)
        ∧ ((s.entry 4 n).isSome = true → look [] s.clink.twin.configs n ≠ [] →
            s.fld F.CLU_CELL_STATE_state n = 0 → (s.cell n).waiting = none →
            s.configCheck n (look [] s.clink.twin.configs n) = 0 →
            t.fld F.CLU_CELL_STATE_state n = 1 ∧ t.fld F.CLU_CELL_STATE_last_result n = 0
              ∧ .handoverReply c n true ∈ t.clink.sent ∧ t.clink.twin.taken = s.clink.twin.taken
              ∧ cellWaits t n 1 (cmdInstant (look [] s.clink.twin.configs n) false (frame % 1024) s.total)
                  (look [] s.clink.twin.configs n)))
      ∧ (∀ cell ok, (s.clink.twin.moving.find? fun m => m.1 = cell) = none →
        exec (.handoverReplyReceive c cell ok) s = .next s)
      ∧ (∀ cell at', (s.clink.twin.moving.find? fun m => m.1 = cell) = some (cell, at', true) →
        exec (.handoverReplyReceive c cell true) s = .next s)
      ∧ (∀ cell at', cell < 1024 → (s.clink.twin.moving.find? fun m => m.1 = cell) = some (cell, at', false) →
        s.fld F.CLU_CELL_STATE_state cell = 2 → ∃ t, exec (.handoverReplyReceive c cell true) s = .next t
          ∧ t.clink.twin.moving = s.clink.twin.moving.map (fun m => if m.1 = cell then (m.1, m.2.1, true) else m)
          ∧ cellWaits t cell 2 at' [] ∧ t.fld F.CLU_CELL_STATE_state cell = 3
          ∧ t.mem = s.mem ∧ t.cores = s.cores ∧ (∀ n, n ≠ cell → t.cell n = s.cell n))
      ∧ (∀ cell at' seen ok, (s.clink.twin.moving.find? fun m => m.1 = cell) = some (cell, at', seen) →
        ok = false ∨ seen = false ∧ s.fld F.CLU_CELL_STATE_state cell ≠ 2 →
        ∃ t, exec (.handoverReplyReceive c cell ok) s = .next t
          ∧ t.clink.twin.moving = s.clink.twin.moving.filter (fun m => m.1 ≠ cell)
          ∧ (ok = false → countedUp s t F.CLINK_TWIN_STATUS_handover_fail c)
          ∧ (t.clink.twin.moving = [] → t.fld F.CLINK_TWIN_STATUS_handover_done c = 1)
          ∧ (ok = true → t.clink.twin.moving ≠ [] → t.regs = s.regs)
          ∧ t = { s with regs := t.regs, clink := { s.clink with twin := { s.clink.twin with
              moving := t.clink.twin.moving } } } ∧ regsKept s t [.CLINK_TWIN_STATUS]))
    ∧ (∀ addr, c < 2 → (s.clink.twin.mirror = [] → exec (.mirrorDump c addr) s = .next s)
      ∧ (s.clink.twin.mirror ≠ [] → ∃ t, exec (.mirrorDump c addr) s = .next t
        ∧ t = { s with host := t.host }
        ∧ (landsAtOnce s 257 → ∀ a n, n = s.clink.twin.mirror.length → a = addr % 2 ^ 52 * 4096 → a + n ≤ 2 ^ 64 →
            t.hostBytes none a n = s.clink.twin.mirror
              ∧ ∀ k, (k < hostKey none a ∨ hostKey none a + n ≤ k) → look 0 t.host.mem k = look 0 s.host.mem k)))
    ∧ (c < 2 → (s.role c ≠ 1 ∨ s.fld F.CLINK_TWIN_STATUS_state c ≠ 2 → exec (.handover c) s = .next s)
      ∧ (s.role c = 1 → s.fld F.CLINK_TWIN_STATUS_state c = 2 →
        ∃ t, exec (.handover c) s = .next t ∧ t.mem = s.mem ∧ t.cores = s.cores ∧ t.cells = s.cells
          ∧ (s.cellsIn 2 2 = [] → t.fld F.CLINK_TWIN_STATUS_handover_done c = 1 ∧ t.clink = s.clink)
          ∧ (s.cellsIn 2 2 ≠ [] → t.regs = s.regs
            ∧ t.clink.twin.moving = (s.cellsIn 2 2).map (fun n =>
                (n, nextFrameStart (s.cell n).config (s.total + 4000000), false))
            ∧ t.clink.sent = s.clink.sent ++ (s.cellsIn 2 2).map (fun n => .handover c n
                (cfgFrame (s.cell n).config (nextFrameStart (s.cell n).config (s.total + 4000000)))))))

/-! ### Health, start-up and power (chapters 17, 19 and 21) -/

/-- R383, R387 to R395, R304, R306, R397 to R401: two unanswered polls, a SerDes failure and a Jasper fault are hard
evidence, on which a unit retires at once; a unit at its threshold retires softly or is flagged; Vigil's runs are
scored and recorded, a request waits for its run, a unit grows stale, and the start-up pass ends in WAIT_CUT.
R188: a failure that Vigil locates in a row of a vault starts the row's copy.
R395: a spare promised to a unit serves no other one; the loss of a promised spare leaves its unit without one.
Choices of the model in it: log entries 82 to 85, 171, 172 and 174. -/
def Obligations.UnitsRetireAndAreTested : Prop :=
  (∀ (s : State) (us : List Nat), (∀ u ∈ us, u ∉ s.health.missed) →
    exec (.healthPoll us) s = .next { s with health := { s.health with missed := us } })
  ∧ (∀ (s : State) (u : Nat), u ∈ s.health.missed → s.fld F.HLTH_UNIT_state u < 3 →
    (u < 288 → s.fld F.HLTH_UNIT_state u = 0 → ∃ t, exec (.healthPoll [u]) s = .next t ∧ retiredHard t u
      ∧ t.fld F.HLTH_UNIT_state (vaultUnit u) = 3
      ∧ t.health.moves = s.health.moves ++ [{ old := u, hard := true, copied := false
                                              spare := if s.health.copying.any fun e => s.logicalOf u = some e.2
                                                then none else s.spareFor u }]
      ∧ (∀ sl, 1 ≤ sl → sl ≤ 3 → t.ctx u sl = none)
      ∧ (∀ x, t.ctx u 0 = some x → x.queue = [] ∧ x.lists = [])
      ∧ (s.spareFor u = none ∨ (∃ e ∈ s.health.copying, s.logicalOf u = some e.2) →
          t.fld F.HLTH_EVENT_spares_out 0 = 1))
    ∧ (u < 288 → s.fld F.HLTH_UNIT_state u = 1 → ∃ t, exec (.healthPoll [u]) s = .next t ∧ retiredHard t u
      ∧ t.fld F.HLTH_UNIT_state (vaultUnit u) = 3 ∧ t.health.installs = s.health.installs ++ [(u, none)]
      ∧ t.health.moves = s.health.moves.map (fun m => if m.spare = some u then { m with spare := none } else m)
      ∧ ((∃ m ∈ s.health.moves, m.spare = some u) → t.fld F.HLTH_EVENT_spares_out 0 = 1)
      ∧ t.cores = s.cores ∧ t.mem = s.mem)
    ∧ (736 ≤ u ∧ u < 768 ∨ 834 ≤ u ∧ u < 840 → ∃ t, exec (.healthPoll [u]) s = .next t
      ∧ t.fld F.HLTH_UNIT_state u = 4 ∧ t.fld F.HLTH_EVENT_failed 0 = 1 ∧ t.cores = s.cores ∧ t.mem = s.mem
      ∧ (u < 768 → ∀ a, clmAddr (u - 736) 0 ≤ a → a < clmAddr (u - 736) 0 + 0x800000 → t.poisoned a = true)))
  ∧ (∀ (s : State) (u : Nat),
    (u < 768 ∨ 834 ≤ u ∨ 3 ≤ s.fld F.HLTH_UNIT_state u → exec (.serdesFail u) s = .next s)
    ∧ (768 ≤ u → u < 834 → s.fld F.HLTH_UNIT_state u < 3 → ∃ t, exec (.serdesFail u) s = .next t ∧ retiredHard t u
      ∧ t.health.installs = (if s.fld F.HLTH_UNIT_state u = 1
          then s.health.installs.map fun i => if i.2 = some u then (i.1, none) else i
          else s.health.installs ++ [(u, s.spareFor u)])
      ∧ (s.fld F.HLTH_UNIT_state u ≠ 1 → s.spareFor u = none → t.fld F.HLTH_EVENT_spares_out 0 = 1)
      ∧ (s.fld F.HLTH_UNIT_state u = 1 → (∃ i ∈ s.health.installs, i.2 = some u) →
          t.fld F.HLTH_EVENT_spares_out 0 = 1)
      ∧ t.cores = s.cores
      ∧ (∀ l, u < 816 → s.serdesLane ((u - 768) / 6) ((u - 768) % 6) = some l →
          t.fld F.FH_IF_STATUS_link_up (s.ifOfLane ((u - 768) / 6) l) = 0 ∧ t.mem = s.mem)
      ∧ (∀ l, 816 ≤ u → s.clinkLane ((u - 816) / 9) ((u - 816) % 9) = some l →
          t.fld F.CLINK_PORT_STATUS_link_up ((u - 816) / 9) = 0)))
  ∧ (∀ (s : State) (k e : Nat),
    (32 ≤ k ∨ 3 ≤ e ∨ 3 ≤ s.fld F.HLTH_UNIT_state (jasperUnit k e) → exec (.jasperFault k e) s = .next s)
    ∧ (k < 32 → e < 3 → s.fld F.HLTH_UNIT_state (jasperUnit k e) < 3 →
      ∃ t, exec (.jasperFault k e) s = .next t ∧ retiredHard t (jasperUnit k e)
        ∧ scored s t F.HLTH_UNIT_use_faults (jasperUnit k e) 32 ∧ t.fld F.JSP_ENGINE_state (k * 3 + e) = 2
        ∧ look none (t.jsp k).running e = none
        ∧ (∀ r, look none (s.jsp k).running e = some r → t.fld F.JSP_ENGINE_busy (k * 3 + e) = 0
            ∧ countedUp s t F.JSP_CNT_aborted k)))
  ∧ (∀ (s : State) (u : Nat),
    (s.lowScore u = false → exec (.softRetirement u) s = .next s)
    ∧ (s.lowScore u = true → s.mayRetire u = false →
      (s.fld F.HLTH_UNIT_flagged u = 1 → exec (.softRetirement u) s = .next s)
      ∧ (s.fld F.HLTH_UNIT_flagged u = 0 → ∃ t, exec (.softRetirement u) s = .next t
        ∧ t.fld F.HLTH_UNIT_flagged u = 1 ∧ t.fld F.HLTH_EVENT_flagged 0 = 1
        ∧ t.fld F.HLTH_EVENT_last_unit 0 = u ∧ t.fld F.HLTH_UNIT_state u = s.fld F.HLTH_UNIT_state u
        ∧ t = { s with regs := t.regs, host := t.host } ∧ regsKept s t [.HLTH_UNIT, .HLTH_EVENT]))
    ∧ (s.lowScore u = true → s.mayRetire u = true → s.outranked u = true →
      exec (.softRetirement u) s = .next s)
    ∧ (s.lowScore u = true → s.mayRetire u = true → s.outranked u = false →
      (u < 288 → s.fld F.HLTH_UNIT_state u = 0 →
        ∃ w : State, exec (.softRetirement u) s = .next w.settle ∧ w.fld F.HLTH_UNIT_state u = 2
        ∧ w.fld F.HLTH_UNIT_state (vaultUnit u) = 2 ∧ w.fld F.HLTH_UNIT_hard u = 0
        ∧ w.fld F.HLTH_UNIT_flagged u = s.fld F.HLTH_UNIT_flagged u
        ∧ w.health.moves = s.health.moves ++ [{ old := u, hard := false, copied := false
                                                spare := if s.health.copying.any fun e => s.logicalOf u = some e.2
                                                  then none else s.spareFor u }]
        ∧ w.health.soft = s.health.soft ++ [(u / 9, s.time.clk)]
        ∧ (∀ q sl, w.ctx q sl = s.ctx q sl) ∧ w.mem = s.mem
        ∧ ((s.core u).evict = none → s.fld F.CORE_CTX_CMD_busy u = 0 →
            ∀ sl, [1, 2, 3].find? (fun sl => s.evictable u sl) = some sl → (w.core u).evict = some ⟨sl, false⟩)
        ∧ ∀ v, (s.core u).evict = some v → v.restore = true → ∀ v', (w.core u).evict = some v' → v'.restore = false)
      ∧ (u < 288 → s.fld F.HLTH_UNIT_state u = 1 → ∃ t, exec (.softRetirement u) s = .next t
        ∧ t.fld F.HLTH_UNIT_state u = 3 ∧ t.fld F.HLTH_UNIT_state (vaultUnit u) = 3
        ∧ t.health.installs = s.health.installs ++ [(u, none)]
        ∧ t.health.soft = s.health.soft ++ [(u / 9, s.time.clk)] ∧ t.cores = s.cores ∧ t.mem = s.mem)
      ∧ (768 ≤ u → u < 816 → ∃ t, exec (.softRetirement u) s = .next t ∧ t.fld F.HLTH_UNIT_state u = 3
        ∧ t.fld F.HLTH_UNIT_hard u = 0 ∧ t.fld F.HLTH_UNIT_flagged u = s.fld F.HLTH_UNIT_flagged u
        ∧ t.health.installs = (if s.fld F.HLTH_UNIT_state u = 1
            then s.health.installs.map fun i => if i.2 = some u then (i.1, none) else i
            else s.health.installs ++ [(u, s.spareFor u)])
        ∧ t.health.soft = s.health.soft ++ [(32 + (u - 768) / 6, s.time.clk)] ∧ t.cores = s.cores ∧ t.mem = s.mem)))
  ∧ (∀ (s : State) (p : Nat), exec (.vaultCopyEnd p) s = .next { s with health := { s.health with
      moves := s.health.moves.map fun m => if m.old = p then { m with copied := true } else m
      copying := s.health.copying.filter fun e => e.1 ≠ p } })
  ∧ (∀ (s : State) (r : VigilRun),
    (840 ≤ r.unit ∨ s.vigilIdle r.unit = false → exec (.vigilTest r) s = .next s)
    ∧ (r.targeted = true → s.requestMet (s.observed r) = false → exec (.vigilTest r) s = .next s)
    ∧ (r.targeted = false → s.fld F.HLTH_CFG_vigil_en 0 = 0 ∨ s.vigilTurn r.unit = false →
      exec (.vigilTest r) s = .next s)
    ∧ (r.unit < 840 → s.vigilIdle r.unit = true → r.targeted = true → s.requestMet (s.observed r) = true →
      r.failed = false → ∃ t, exec (.vigilTest r) s = .next t ∧ t.fld F.HLTH_VIGIL_REQ_pending 0 = 0
        ∧ t.health.rotation = s.health.rotation ∧ t.cores = s.cores ∧ t.mem = s.mem
        ∧ (∀ u, t.fld F.HLTH_UNIT_state u = s.fld F.HLTH_UNIT_state u))
    ∧ (r.unit < 840 → s.vigilIdle r.unit = true → s.fld F.HLTH_CFG_vigil_en 0 = 1 → s.vigilTurn r.unit = true →
        r.targeted = false →
      (r.failed = false → r.fullPass = false → exec (.vigilTest r) s = .next
        { s with health := { s.health with rotation := r.unit } })
      ∧ (∀ f, r.failed = false → r.fullPass = true → look none s.health.failing r.unit = some f → f.failed = true →
        ∃ t, exec (.vigilTest r) s = .next t ∧ countedUp s t F.HLTH_UNIT_passes r.unit
        ∧ t.fld F.HLTH_UNIT_last_pass_ok r.unit = 0 ∧ t.fld F.HLTH_UNIT_stale r.unit = 0
        ∧ t.fld F.HLTH_UNIT_score r.unit = s.fld F.HLTH_UNIT_score r.unit
        ∧ look none t.health.failing r.unit = none
        ∧ look 0 t.health.lastPass r.unit = s.time.clk ∧ t.cores = s.cores ∧ t.mem = s.mem)
      ∧ (r.failed = false → r.fullPass = true → look none s.health.failing r.unit = none →
        ∃ t, exec (.vigilTest r) s = .next t ∧ t.health.rotation = (r.unit + 1) % 840
        ∧ countedUp s t F.HLTH_UNIT_passes r.unit ∧ t.fld F.HLTH_UNIT_last_pass_ok r.unit = 1
        ∧ t.fld F.HLTH_UNIT_stale r.unit = 0
        ∧ t.fld F.HLTH_UNIT_score r.unit = min (s.fld F.HLTH_UNIT_score r.unit + 4) 255
        ∧ look 0 t.health.lastPass r.unit = s.time.clk ∧ r.unit ∉ t.health.ahead
        ∧ (ringRoom (s.fld F.HLTH_VIGIL_PTR_head 0) (s.fld F.HLTH_VIGIL_PTR_tail 0)
              (ringEntries (s.fld F.HLTH_VIGIL_RING_size_code 0) 6) = false →
            countedUp s t F.HLTH_EVENT_vigil_lost 0 ∧ t.host = s.host)
        ∧ (∀ h n, h = s.fld F.HLTH_VIGIL_PTR_head 0 → n = ringEntries (s.fld F.HLTH_VIGIL_RING_size_code 0) 6 →
            ringRoom h (s.fld F.HLTH_VIGIL_PTR_tail 0) n = true → landsAtOnce s 257 →
            t.fld F.HLTH_VIGIL_PTR_head 0 = (h + 1) % 2 ^ 32
              ∧ (t.hostBytes none (s.fld F.HLTH_VIGIL_RING_base_4k 0 * 4096 + h % n * 32) 32).drop 2
                  = (s.vigilRecord (s.observed r)).drop 2
              ∧ (t.hostBytes none (s.fld F.HLTH_VIGIL_RING_base_4k 0 * 4096 + h % n * 32) 1) = leBytes 1 1)
        ∧ t.cores = s.cores ∧ t.mem = s.mem)
      ∧ (∀ bank row v, r.failed = true → r.rerunFailed = false → r.fullPass = false → 288 ≤ r.unit → r.unit < 576 →
        r.located = some (bank, some row) → v = (s.core (r.unit - 288)).spares → v.rowCopies = [] →
        v.bankCopies = [] → look 0 v.rowsUsed bank < 32 → ∃ t, exec (.vigilTest r) s = .next t
          ∧ (t.core (r.unit - 288)).spares = { v with rowCopies := [⟨bank, row⟩] }
          ∧ t.fld F.HLTH_EVENT_vigil_fail 0 = 1 ∧ countedUp s t F.HLTH_UNIT_vigil_fails r.unit ∧ t.mem = s.mem
          ∧ ∀ p sl, t.ctx p sl = s.ctx p sl)
      ∧ (r.failed = true → r.rerunFailed = false → r.fullPass = false →
        (r.unit < 288 ∨ 576 ≤ r.unit ∨ r.located = none) → ∃ t, exec (.vigilTest r) s = .next t
        ∧ scored s t F.HLTH_UNIT_vigil_fails r.unit 64 ∧ t.fld F.HLTH_EVENT_vigil_fail 0 = 1
        ∧ t.fld F.HLTH_EVENT_last_unit 0 = r.unit ∧ t.fld F.HLTH_UNIT_state r.unit = s.fld F.HLTH_UNIT_state r.unit
        ∧ look none t.health.failing r.unit = some ((look none s.health.failing r.unit).getD (s.observed r))
        ∧ t.cores = s.cores ∧ t.mem = s.mem)
      ∧ (r.failed = true → r.rerunFailed = true → s.fld F.HLTH_UNIT_state r.unit = 1 →
        ∃ t, exec (.vigilTest r) s = .next t ∧ t.fld F.HLTH_EVENT_vigil_fail 0 = 1
          ∧ countedUp s t F.HLTH_UNIT_vigil_fails r.unit
          ∧ (r.unit < 288 ∨ 576 ≤ r.unit → (groupOf r.unit).isSome = true → retiredHard t r.unit))))
  ∧ (∀ (s : State) (v : Nat), ∃ t, exec (.vigilRequest v) s = .next t ∧ onlyRegs s t ∧ regKept s t .HLTH_VIGIL_REQ 0
    ∧ t.fld F.HLTH_VIGIL_REQ_unit 0 = v % 2 ^ 10 ∧ t.fld F.HLTH_VIGIL_REQ_test 0 = v / 2 ^ 10 % 2 ^ 16
    ∧ t.fld F.HLTH_VIGIL_REQ_load_class 0 = v / 2 ^ 42 % 2 ^ 4
    ∧ (v.testBit 48 = true → t.fld F.HLTH_VIGIL_REQ_pending 0 = 1)
    ∧ (v.testBit 48 = false → v.testBit 49 = true → t.fld F.HLTH_VIGIL_REQ_pending 0 = 0))
  ∧ (∀ s : State, ∃ t, exec .vigilCancel s = .next t ∧ onlyRegs s t ∧ t.fld F.HLTH_VIGIL_REQ_pending 0 = 0
    ∧ fldKept s t F.HLTH_VIGIL_REQ_pending 0)
  ∧ (∀ (s : State) (u : Nat), (s.staleDue u = false → exec (.vigilStale u) s = .next s)
    ∧ (s.staleDue u = true → ∃ t, exec (.vigilStale u) s = .next t ∧ t.fld F.HLTH_UNIT_stale u = 1
      ∧ t.fld F.HLTH_EVENT_stale 0 = 1 ∧ t.fld F.HLTH_EVENT_last_unit 0 = u
      ∧ t = { s with regs := t.regs, host := t.host } ∧ regsKept s t [.HLTH_UNIT, .HLTH_EVENT]))
  ∧ ∀ (s : State) (runs : List VigilRun),
    (s.bootState ≠ 3 → exec (.startupVigilPass runs) s = .next s)
    ∧ (s.bootState = 3 → s.health.failing = [] → ∃ t, exec (.startupVigilPass runs) s = .next t ∧ t.bootState = 4
      ∧ t.health.rotation = 0
      ∧ (∀ u r, u < 840 → r = startupRunOf runs u → countedUp s t F.HLTH_UNIT_passes u
          ∧ t.fld F.HLTH_UNIT_last_pass_ok u = (if r.failed then 0 else 1)
          ∧ (r.failed = true → countedUp s t F.HLTH_UNIT_vigil_fails u
              ∧ (r.rerunFailed = true → u < 288 ∨ 576 ≤ u → 3 ≤ t.fld F.HLTH_UNIT_state u)
              ∧ (r.rerunFailed = false → r.located = none →
                  t.fld F.HLTH_UNIT_score u = s.fld F.HLTH_UNIT_score u - 64))
          ∧ (r.failed = false → t.fld F.HLTH_UNIT_vigil_fails u = s.fld F.HLTH_UNIT_vigil_fails u
              ∧ t.fld F.HLTH_UNIT_score u = min (s.fld F.HLTH_UNIT_score u + 4) 255))
      ∧ (ringRoom (s.fld F.HLTH_VIGIL_PTR_head 0) (s.fld F.HLTH_VIGIL_PTR_tail 0)
            (ringEntries (s.fld F.HLTH_VIGIL_RING_size_code 0) 6) = false →
          t.fld F.HLTH_EVENT_vigil_lost 0 = min (s.fld F.HLTH_EVENT_vigil_lost 0 + 840)
            (2 ^ F.HLTH_EVENT_vigil_lost.width - 1))
      ∧ ((∀ r ∈ runs, r.failed = false) → ∀ u, t.fld F.HLTH_UNIT_state u = s.fld F.HLTH_UNIT_state u))

/-- R432, R433, R438, R439, R442, R448 to R450, R454: device reset leaves the fuses alone; PERST_N, the boot ROM, the
bootstrap window, the verification with the first check that fails and the enrolments act as their rules say.
Choices of the model in it: log entries 138 to 140. -/
def Obligations.StartUp : Prop :=
  (∀ s : State, ∃ t, exec .deviceReset s = .next t ∧ resetTo s t
    ∧ t.pins = (if (match s.boot.resetAt with | some k => decide (k ≤ s.time.clk) | none => false) = true
        then s.pins else { s.pins with perst := false })
    ∧ ∀ e k, s.boot.enrol = some e → e.waiting = none → e.failed = false → e.begun = true →
        k = leAt e.record 5 1 → k < 4 →
        (leAt e.record 4 1 = 1 → s.fld F.ONYX_KEY_SLOT_enrolled k = 0 → t.fld F.ONYX_KEY_SLOT_damaged k = 1)
        ∧ (leAt e.record 4 1 ≠ 1 → t.fld F.ONYX_KEY_SLOT_revoked k = 1))
  ∧ (∀ (s : State) (key : Nat),
    (key % 2 ^ 16 = 0xD1E5 → exec (.devReset key) s = .next
      { s with boot := { s.boot with resetAt := some (s.time.clk + 2000) } })
    ∧ (key % 2 ^ 16 ≠ 0xD1E5 → ∃ t, exec (.devReset key) s = .next t ∧ onlyRegs s t ∧ counted s t .pf0Bar0 8))
  ∧ (∀ s : State,
    (s.pins.perst = true ∨ s.pins.auxOn = false → exec .perstNDeassert s = .next s)
    ∧ (s.pins.perst = false → s.pins.auxOn = true → ∃ t, exec .perstNDeassert s = .next t
      ∧ t = { s with pins := { s.pins with perst := true }, boot := t.boot }
      ∧ t.boot = { s.boot with scan := t.boot.scan }
      ∧ t.boot.scan = (if jtagDrives s.boot.scan then .bypass else s.boot.scan))
    ∧ (s.time.running = false ∨ s.bootState ≠ 0 → exec .romInitDone s = .next s)
    ∧ (s.time.running = true → s.bootState = 0 → ∃ t, exec .romInitDone s = .next t ∧ booted s t 1
      ∧ t = { s with regs := t.regs, host := t.host } ∧ fldKept s t F.DEV_STATUS_boot_state 0))
  ∧ (∀ (s : State) (len : Nat),
    (s.bootState ≠ 1 → ∃ t, exec (.bootGo len) s = .next t ∧ onlyRegs s t ∧ counted s t .pf0Bar0 0x200000)
    ∧ (s.bootState = 1 → ∃ t, exec (.bootGo len) s = .next t ∧ booted s t 2
      ∧ t.fld F.ONYX_BOOT_CTL_len 0 = len % 2 ^ 23
      ∧ t.boot = { s.boot with len := len % 2 ^ 23, began := s.time.clk }
      ∧ t = { s with regs := t.regs, host := t.host, boot := t.boot }))
  ∧ (∀ (s : State) (b : Bytes) (code : Nat),
    b = (List.range (min s.boot.len 4194304)).map (fun i => look 0 s.boot.window i) →
    code = (if imageBad b then 1 else if s.boot.len ≠ leAt b 8 4 ∨ 4194304 < s.boot.len then 7
      else if leAt b 7 1 ≠ s.fld F.DEV_STATUS_stepping 0 then 5
      else if leNat (sha256 ((b.drop 0x20).take 32)) ≠ Config.vendorKeyHash then 2
      else if leAt b 0xC 1 < s.fld F.ONYX_SVN_counter 0 then 4
      else if (sigFails b).isSome then 3 else 0) →
    (s.bootState ≠ 2 → exec .verifyEnd s = .next s)
    ∧ (s.bootState = 2 → ∃ t, exec .verifyEnd s = .next t ∧ booted s t (if code = 0 then 3 else 1)
      ∧ t.fld F.ONYX_BOOT_STATUS_result 0 = code
      ∧ t.fld F.ONYX_BOOT_STATUS_fail_stage 0 = (if code = 3 then ((sigFails b).getD 15) % 2 ^ 4 else 15)
      ∧ countedUp s t F.ONYX_BOOT_STATUS_attempts 0
      ∧ t.fld F.ONYX_BOOT_STATUS_verify_us 0 = (s.time.clk - s.boot.began) / 1000 % 2 ^ 32
      ∧ (code = 0 → t.fld F.DEV_STATUS_security_version 0 = leAt b 0xC 1 % 2 ^ 8
          ∧ t.fld F.DEV_STATUS_fw_build 0 = leAt b 0x10 4 % 2 ^ 32 ∧ t.boot.fwVersion = leAt b 0x10 8)
      ∧ (code ≠ 0 → t.boot = s.boot
          ∧ t.fld F.DEV_STATUS_security_version 0 = s.fld F.DEV_STATUS_security_version 0)
      ∧ t.boot.window = s.boot.window))
  ∧ (∀ s : State,
    (s.fld F.ONYX_ENROL_CTL_busy 0 = 1 ∨ s.bootState < 4 → ∃ t, exec .enrol s = .next t
      ∧ t.fld F.ONYX_ENROL_CTL_last_result 0 = 7 ∧ fldKept s t F.ONYX_ENROL_CTL_last_result 0
      ∧ t = { s with regs := t.regs, host := t.host })
    ∧ (s.fld F.ONYX_ENROL_CTL_busy 0 = 0 → 4 ≤ s.bootState → s.canIssue 0 = false → ∃ t, exec .enrol s = .next t
      ∧ t.fld F.ONYX_ENROL_CTL_busy 0 = 1 ∧ fldKept s t F.ONYX_ENROL_CTL_busy 0
      ∧ t = { s with regs := t.regs, boot := { s.boot with enrol := some ⟨[], some s.time.clk, false, false⟩ } })
    ∧ (s.fld F.ONYX_ENROL_CTL_busy 0 = 0 → 4 ≤ s.bootState → s.canIssue 0 = true → ∃ t e, exec .enrol s = .next t
      ∧ t.fld F.ONYX_ENROL_CTL_busy 0 = 1 ∧ fldKept s t F.ONYX_ENROL_CTL_busy 0
      ∧ t = { s with regs := t.regs, boot := { s.boot with enrol := some e } } ∧ e.waiting = none
      ∧ e.record = s.hostBytes none (s.fld F.ONYX_ENROL_ADDR_addr_4k 0 * 4096) e.record.length
      ∧ e.record.length = (if leAt e.record 6 1 = 0xFF then 64 else 7920)
      ∧ (e.failed = true ↔ s.hostError none (s.fld F.ONYX_ENROL_ADDR_addr_4k 0 * 4096) e.record.length = true)))
  ∧ ∀ s : State,
    (s.boot.enrol = none → exec .enrolEnd s = .next s)
    ∧ (∀ e, s.boot.enrol = some e → e.waiting ≠ none →
      (s.canIssue 0 = true → exec .enrolEnd s = exec .enrolEnd s.enrolFetch)
      ∧ (s.canIssue 0 = false → s.heldOut 257 e.waiting = false → exec .enrolEnd s = .next s)
      ∧ (s.canIssue 0 = false → s.heldOut 257 e.waiting = true → ∃ t, exec .enrolEnd s = .next t
        ∧ t.fld F.ONYX_ENROL_CTL_busy 0 = 0 ∧ t.fld F.ONYX_ENROL_CTL_last_result 0 = 8 ∧ t.boot.enrol = none
        ∧ ∀ j, t.reg .ONYX_KEY_SLOT j = s.reg .ONYX_KEY_SLOT j))
    ∧ ∀ e k, s.boot.enrol = some e → e.waiting = none → k = leAt e.record 5 1 → ∃ t, exec .enrolEnd s = .next t
      ∧ t.fld F.ONYX_ENROL_CTL_busy 0 = 0 ∧ t.fld F.ONYX_ENROL_CTL_last_result 0 = s.enrolCheck e
      ∧ t.boot = { s.boot with enrol := none }
      ∧ (s.enrolCheck e ≠ 0 → ∀ j, t.reg .ONYX_KEY_SLOT j = s.reg .ONYX_KEY_SLOT j)
      ∧ (s.enrolCheck e = 0 → (∀ j, j ≠ k → t.reg .ONYX_KEY_SLOT j = s.reg .ONYX_KEY_SLOT j)
        ∧ (leAt e.record 4 1 = 1 → t.fld F.ONYX_KEY_SLOT_public_key k = leAt e.record 0x10 32 % 2 ^ 256
            ∧ t.fld F.ONYX_KEY_SLOT_enrolled k = 1)
        ∧ (leAt e.record 4 1 ≠ 1 → t.fld F.ONYX_KEY_SLOT_revoked k = 1
            ∧ t.fld F.ONYX_KEY_SLOT_public_key k = s.fld F.ONYX_KEY_SLOT_public_key k))
      ∧ (e.failed = true → s.enrolCheck e = 8)
      ∧ regsKept s t [.ONYX_KEY_SLOT, .ONYX_ENROL_CTL] ∧ t = { s with regs := t.regs, host := t.host, boot := t.boot }

/-- R440: while boot_state is WAIT_CUT or READY a commit brings the rollback counter up to the security version of the
running image, or changes nothing where that is not above it; at any other time it is refused, which commit_refused
shows; at a counter of 64 no image of a lower version verifies. -/
def Obligations.RollbackCounterCommits : Prop :=
  ∀ s : State,
    (s.bootState = 4 ∨ s.bootState = 5 → s.fld F.ONYX_SVN_counter 0 < s.fld F.DEV_STATUS_security_version 0 →
      s.fld F.DEV_STATUS_security_version 0 ≤ 64 →
      ∃ t, exec .svnCommit s = .next t ∧ t.fld F.ONYX_SVN_counter 0 = s.fld F.DEV_STATUS_security_version 0
        ∧ fldKept s t F.ONYX_SVN_counter 0 ∧ t = { s with regs := t.regs, host := t.host })
    ∧ (s.bootState = 4 ∨ s.bootState = 5 →
      s.fld F.DEV_STATUS_security_version 0 ≤ s.fld F.ONYX_SVN_counter 0 → exec .svnCommit s = .next s)
    ∧ (s.bootState < 4 → ∃ t, exec .svnCommit s = .next t ∧ onlyRegs s t
      ∧ t.fld F.ONYX_SVN_commit_refused 0 = 1 ∧ fldKept s t F.ONYX_SVN_commit_refused 0)
    ∧ (s.fld F.ONYX_SVN_counter 0 = 64 → ∀ b len, leAt b 0xC 1 < 64 → (s.verify b len).1 ≠ 0)

/-- R444 to R446, R451 to R454: SPDM sessions open and close, quotes report the measurements with a signature, IDE keys
go to their streams, the sideband answers what the boot state lets it answer, and boundary scan is counted where it
takes effect (that EXTEST, CLAMP and HIGHZ alone are counted is the model's reading, log entry 70).
Choices of the model in it: log entries 10, 144. -/
def Obligations.AttestationAndSideband : Prop :=
  ∀ s : State,
    (∀ side req, side = true → s.sidebandFull = false → exec (.spdmMessage side req) s = .next s
      ∧ ∀ is, exec (.measurements side is) s = .next s)
    ∧ (∀ side, side = false ∨ s.sidebandFull = true →
      (s.sessionsOn side < sessionMax side → ∃ t, exec (.spdmMessage side .keyExchange) s = .next t
        ∧ t.sessionsOn side = s.sessionsOn side + 1 ∧ t.sessionsOn (!side) = s.sessionsOn (!side)
        ∧ t = { s with boot := t.boot })
      ∧ (sessionMax side ≤ s.sessionsOn side → ∃ t, exec (.spdmMessage side .keyExchange) s = .next t
        ∧ t = { s with boot := { s.boot with answer := t.boot.answer } })
      ∧ (∃ t, exec (.spdmMessage side .endSession) s = .next t ∧ t.sessionsOn side = s.sessionsOn side - 1
        ∧ t.sessionsOn (!side) = s.sessionsOn (!side) ∧ t = { s with boot := t.boot })
      ∧ (∀ req, req ≠ .keyExchange → req ≠ .endSession → exec (.spdmMessage side req) s = .next
          { s with boot := { s.boot with answer := Config.spdmAnswer (spdmCode req) (s.sessionsOn side) } })
      ∧ ∀ i (b : Bytes), 1 ≤ i → i ≤ 10 → b = leBytes 1 i ++ s.measurement i →
          exec (.measurements side [i]) s = .next { s with boot := { s.boot with answer := b ++ Config.slhSign b } })
    ∧ (∀ stream key, (16 ≤ stream → exec (.ideKmKey stream key) s = .next s)
      ∧ (stream < 16 → ∃ t, exec (.ideKmKey stream key) s = .next t
        ∧ look none t.boot.ideKeys stream = some key
        ∧ (∀ j, j ≠ stream → look none t.boot.ideKeys j = look none s.boot.ideKeys j)
        ∧ t = { s with boot := { s.boot with ideKeys := t.boot.ideKeys } }))
    ∧ (s.pins.auxOn = false → ∀ req, exec (.mctpMessage req) s = .next s)
    ∧ (s.pins.auxOn = true →
      exec (.mctpMessage .control) s = .next { s with boot := { s.boot with answer := Config.mctpControl } }
      ∧ (∀ die, exec (.mctpMessage (.pldmTemperature die)) s = .next { s with boot := { s.boot with
          answer := leBytes 2 (ofSigned 16 (s.hottest die)) } })
      ∧ exec (.mctpMessage .pldmBootState) s = .next { s with boot := { s.boot with
          answer := [BitVec.ofNat 8 s.bootState, BitVec.ofNat 8 (s.fld F.DEV_STATUS_ready 0)] } }
      ∧ (s.bootState < 3 → exec (.mctpMessage .pldmPower) s = .next s ∧ exec (.mctpMessage .pldmHealth) s = .next s
          ∧ ∀ r, exec (.mctpMessage (.spdm r)) s = .next s)
      ∧ (3 ≤ s.bootState → (∀ r, exec (.mctpMessage (.spdm r)) s = exec (.spdmMessage true r) s)
          ∧ exec (.mctpMessage .pldmHealth) s = .next { s with boot := { s.boot with
              answer := [BitVec.ofNat 8 ((s.reg .HLTH_EVENT 0).toNat % 2 ^ 7)] } }
          ∧ ∀ w l, s.power.samples = w :: l → exec (.mctpMessage .pldmPower) s = .next { s with boot := { s.boot with
              answer := leBytes 2 w } }))
    ∧ ∀ i, (jtagDrives i = false → exec (.jtagInstructionLoad i) s = .next
        { s with boot := { s.boot with scan := i } })
      ∧ (jtagDrives i = true → s.pins.perst = true → exec (.jtagInstructionLoad i) s = .next
        { s with boot := { s.boot with scan := .bypass } })
      ∧ (jtagDrives i = true → s.pins.perst = false → exec (.jtagInstructionLoad i) s = .next
        { s with boot := { s.boot with scan := i, scanLoads := s.boot.scanLoads + 1 } })

/-- R402, R465, R467, R470, R473 to R479: the straps are sampled with VDD_AUX, and a rail that fails resets the
device; the mean of ten power samples and the hottest sensor of a die lower its rental duty, and a die at 105 degrees
C has its clock halved; a core voltage rises before its clock and falls after it; calm raises the duty again; PWRBRK_N
stops rental work; at 110 degrees C the device trips until PERST_N has been low for 1 ms.
Choices of the model in it: log entries 141 to 143 and 166. -/
def Obligations.PowerAndHeat : Prop :=
  (∀ (s : State) (mode sel : Bool) (addr : Nat),
    (s.pins.auxOn = true → exec (.vddAuxOn mode addr sel) s = .next s)
    ∧ (s.pins.auxOn = false → exec (.vddAuxOn mode addr sel) s = .next { s with pins :=
        { s.pins with auxOn := true, sbMode := mode, sbAddr := addr % 4, trefSel := sel } }))
  ∧ (∀ s : State, (s.pins.auxOn = false → exec .vddAuxOff s = .next s)
    ∧ (s.pins.auxOn = true → ∃ t, exec .vddAuxOff s = .next t ∧ resetTo s t ∧ t.pins.auxOn = false
      ∧ t.pins.perst = s.pins.perst ∧ t.power.tripped = false))
  ∧ (∀ (s : State) (r : Rail),
    (r = .vddAux ∨ r = .vdd1v8 → exec (.railUndervoltage r) s = .next s)
    ∧ (r ≠ .vddAux → r ≠ .vdd1v8 → ∃ t, exec (.railUndervoltage r) s = .next t ∧ resetTo s t ∧ t.pins = s.pins
      ∧ ∀ q, q ∈ t.power.down ↔ q = r ∨ q ∈ s.power.down)
    ∧ exec .railRestore s = .next { s with power := { s.power with down := [] } })
  ∧ (∀ (s : State) (w : Nat), ∃ (u : State) (excess calm : Bool), exec (.powerSample w) s = .next u.settle
    ∧ u = { s with power := u.power }
    ∧ u.power.samples = (w :: s.power.samples).take 10
    ∧ excess = (decide (9 ≤ s.power.samples.length)
        && decide (s.power.limit * 10 < u.power.samples.foldl (· + ·) 0))
    ∧ calm = (decide (9 ≤ s.power.samples.length)
        && decide (u.power.samples.foldl (· + ·) 0 * 100 < s.power.limit * 10 * 97))
    ∧ look 0 u.power.calm 0 = (if calm then
        (if look 0 s.power.calm 0 = 0 then s.time.clk + 1 else look 0 s.power.calm 0) else 0)
    ∧ (∀ d, d < 2 → u.mult d = s.mult d
      ∧ (excess = true → u.dOff d byHeat = s.dOff d byHeat
          ∧ u.dOff d byPower = (if s.dOff d byPower < 12 then s.dOff d byPower + 1 else s.dOff d byPower))
      ∧ (excess = false → ∀ c, c < 2 → u.dOff d c =
          (if s.pins.pwrbrk = true ∧ s.mult d = 16 ∧ u.calmDie d = true then s.dOff d c - 1 else s.dOff d c))))
  ∧ (∀ s : State, ∃ t, exec .pwrbrkAssert s = .next t ∧ t = { s with pins := { s.pins with pwrbrk := false } }
    ∧ (∀ p, t.duty p = 0) ∧ ∀ p sl e, sl ≠ 0 → t.engineServes p sl e = false)
  ∧ (∀ s : State, (s.pins.pwrbrk = true → exec .pwrbrkRelease s = .next s)
    ∧ (s.pins.pwrbrk = false → ∃ t, exec .pwrbrkRelease s = .next t
      ∧ t = { s with pins := { s.pins with pwrbrk := true }, power := { s.power with dutyOff := t.power.dutyOff } }
      ∧ ∀ d, d < 2 → t.dOff d byPower = 16 ∧ t.dOff d byHeat = s.dOff d byHeat))
  ∧ (∀ (s : State) (w : Nat),
    (s.sidebandFull = true → 400 ≤ w → w ≤ 1200 →
      exec (.powerLimitSet w) s = .next { s with power := { s.power with limit := w } })
    ∧ (s.sidebandFull = false ∨ w < 400 ∨ 1200 < w → exec (.powerLimitSet w) s = .next s))
  ∧ (∀ (s : State) (temps : List Int) (volts procs : List Nat), temps.length = 144 → s.power.excluded = [] →
    (∀ x ∈ temps, -320 ≤ x ∧ x ≤ 1200) →
    ((∃ x ∈ temps, 880 ≤ x) → ∃ t, exec (.monitorSample temps volts procs) s = .next t ∧ resetTo s t
      ∧ t.pins = { s.pins with therm := false, thermtrip := false } ∧ t.power.tripped = true)
    ∧ ((∀ x ∈ temps, x < 880) → ∃ u : State, exec (.monitorSample temps volts procs) s = .next u.settle
      ∧ (∀ m, m < 144 → u.tempOf m = temps.getD m 0)
      ∧ ((∃ x ∈ temps, 800 ≤ x) → u.pins = { s.pins with therm := false })
      ∧ ((∀ x ∈ temps, x < 776) → u.pins = { s.pins with therm := true })
      ∧ ((∀ x ∈ temps, x < 800) → (∃ x ∈ temps, 776 ≤ x) → u.pins = s.pins)
      ∧ (∀ d, d < 2 → u.dOff d byPower = s.dOff d byPower ∧ u.mOff d byPower = s.mOff d byPower
        ∧ ((∃ m, m < 144 ∧ m / 64 = d ∧ 840 ≤ temps.getD m 0) → u.mOff d byHeat = 8 ∧ 12 ≤ u.dOff d byHeat)
        ∧ ((∃ m, m < 144 ∧ m / 64 = d ∧ 800 ≤ temps.getD m 0) →
            (∀ m, m < 144 → m / 64 = d → temps.getD m 0 < 840) → u.mOff d byHeat = s.mOff d byHeat
              ∧ u.dOff d byHeat = (if s.dOff d byHeat < 12 then s.dOff d byHeat + 1 else s.dOff d byHeat))
        ∧ ((∀ m, m < 144 → m / 64 = d → temps.getD m 0 < 800) → u.mOff d byHeat = s.mOff d byHeat
              ∧ u.dOff d byHeat = s.dOff d byHeat)
        ∧ u.coreVolt d = u.wantVolt d (u.mult d))
      ∧ ((∀ d, d < 2 → s.mOff d byHeat ≤ 8) → ∃ more, u.power.avs = s.power.avs ++ more
          ∧ ∀ e ∈ more, e.2.1 = u.coreVolt e.1 ∧ e.2.2 = u.mult e.1)
      ∧ regsKept s u [.HLTH_MON] ∧ u.cores = s.cores ∧ u.mem = s.mem))
  ∧ (∀ (s t : State) (d : Nat), d < 2 → t = s.multStep d → ∃ more, t.power.avs = s.power.avs ++ more
    ∧ (∀ e ∈ more, e = (d, t.coreVolt d, min (s.mult d) (t.mult d)))
    ∧ (t.mult d ≠ s.mult d → t.coreVolt d = t.wantVolt d (t.mult d))
    ∧ (t.mult d = s.mult d → more = []) ∧ t = { s with power := t.power })
  ∧ (∀ (s : State) (volts procs : List Nat), ∃ t, exec (.monitorSample [] volts procs) s = .next t
    ∧ regsKept s t [.HLTH_MON] ∧ t.pins = s.pins ∧ t.cores = s.cores
    ∧ ∀ m, m < 144 → (∀ v, volts[m]? = some v → t.fld F.HLTH_MON_volt m = v % 2 ^ 16)
      ∧ ∀ v, procs[m]? = some v → t.fld F.HLTH_MON_proc m = v % 2 ^ 16)
  ∧ ∀ s : State,
    (s.power.tripped = true → s.pins.perst = false → s.power.perstLow + 1000000 ≤ s.time.clk →
      exec .thermtripRelease s = .next { s with pins := { s.pins with thermtrip := true },
                                                power := { s.power with tripped := false } })
    ∧ (s.power.tripped = false ∨ s.pins.perst = true ∨ s.time.clk < s.power.perstLow + 1000000 →
      exec .thermtripRelease s = .next s)
end

