-- ==== Sys2Proof/Laws/Maps.lean ====
section
/-!
SUPPORT. Lemmas about the sparse maps: what a write leaves at each key, and that every operation keeps the
canonical form.
-/
namespace Sys2Proof.Machine

variable {α : Type}

/-- Every key of a map is above `k`. -/
def above (k : Nat) (m : SMap α) : Prop := ∀ e ∈ m, k < e.1

theorem look_insertKey_same (d : α) (m : SMap α) (k : Nat) (v : α) (h : ∀ e ∈ m, e.1 ≠ k) :
    look d (insertKey k v m) k = v := by
  induction m with
  | nil => simp [insertKey, look]
  | cons e m ih =>
    obtain ⟨k', v'⟩ := e
    have hk : k' ≠ k := h (k', v') (by simp)
    simp only [insertKey]
    split
    · simp [look]
    · simp only [look, hk, if_false]
      exact ih fun e he => h e (by simp [he])

theorem look_insertKey_other (d : α) (m : SMap α) (k j : Nat) (v : α) (h : j ≠ k) :
    look d (insertKey k v m) j = look d m j := by
  induction m with
  | nil => simp [insertKey, look, Ne.symm h]
  | cons e m ih =>
    obtain ⟨k', v'⟩ := e
    simp only [insertKey]
    split
    · simp [look, Ne.symm h]
    · simp only [look]
      split <;> simp_all

theorem look_filter_same (d : α) (m : SMap α) (k : Nat) (p : Nat × α → Bool) (h : ∀ v, p (k, v) = false) :
    look d (m.filter p) k = d := by
  induction m with
  | nil => simp [look]
  | cons e m ih =>
    obtain ⟨k', v'⟩ := e
    by_cases hk : k' = k
    · subst hk; simp [h, ih]
    · by_cases hp : p (k', v') <;> simp [hp, look, hk, ih]

theorem look_filter_other (d : α) (m : SMap α) (k : Nat) (p : Nat × α → Bool) (h : ∀ v, p (k, v) = true) :
    look d (m.filter p) k = look d m k := by
  induction m with
  | nil => simp [look]
  | cons e m ih =>
    obtain ⟨k', v'⟩ := e
    by_cases hk : k' = k
    · subst hk; simp [h, look]
    · by_cases hp : p (k', v') <;> simp [hp, look, hk, ih]

/-- A read of the key written gives the value written. -/
@[simp] theorem look_put_same [DecidableEq α] (d : α) (m : SMap α) (k : Nat) (v : α) :
    look d (put d m k v) k = v := by
  simp only [put]
  split
  · rename_i h
    rw [look_filter_same _ _ _ _ (by simp), h]
  · exact look_insertKey_same _ _ _ _ (by simp)

/-- A write leaves every other key alone. -/
theorem look_put_other [DecidableEq α] (d d' : α) (m : SMap α) (k j : Nat) (v : α) (h : j ≠ k) :
    look d (put d' m k v) j = look d m j := by
  simp only [put]
  split
  · exact look_filter_other _ _ _ _ (by simp [h])
  · rw [look_insertKey_other _ _ _ _ _ h, look_filter_other _ _ _ _ (by simp [h])]

/-- What a write leaves at any key. -/
theorem look_put [DecidableEq α] (d : α) (m : SMap α) (k j : Nat) (v : α) :
    look d (put d m k v) j = if j = k then v else look d m j := by
  split
  · subst j; simp
  · rename_i h; exact look_put_other d d m k j v h

theorem look_dropRange (d : α) (m : SMap α) (lo n k : Nat) :
    look d (dropRange m lo n) k = if lo ≤ k ∧ k < lo + n then d else look d m k := by
  by_cases h : lo ≤ k ∧ k < lo + n
  · rw [if_pos h]; exact look_filter_same _ _ _ _ (by simp [h])
  · rw [if_neg h]; exact look_filter_other _ _ _ _ (by intro v; simp; omega)

/-! ### The canonical form -/

/-- The canonical form, said of the head and the rest. -/
theorem mapWf_cons [DecidableEq α] (d : Nat → α) (k : Nat) (v : α) (m : SMap α) :
    mapWf d ((k, v) :: m) = true ↔ v ≠ d k ∧ above k m ∧ mapWf d m = true := by
  induction m generalizing k v with
  | nil => simp [mapWf, above]
  | cons e m ih =>
    obtain ⟨k', v'⟩ := e
    simp only [mapWf, Bool.and_eq_true, decide_eq_true_eq]
    constructor
    · rintro ⟨⟨hv, hk⟩, hm⟩
      refine ⟨hv, ?_, hm⟩
      intro e he
      rcases List.mem_cons.mp he with rfl | he
      · exact hk
      · exact Nat.lt_trans hk (((ih k' v').mp hm).2.1 e he)
    · rintro ⟨hv, ha, hm⟩
      exact ⟨⟨hv, ha (k', v') (by simp)⟩, hm⟩

@[simp] theorem mapWf_nil [DecidableEq α] (d : Nat → α) : mapWf d [] = true := rfl

theorem mapWf_filter [DecidableEq α] (d : Nat → α) (p : Nat × α → Bool) (m : SMap α) (h : mapWf d m = true) :
    mapWf d (m.filter p) = true := by
  induction m with
  | nil => rfl
  | cons e m ih =>
    obtain ⟨k, v⟩ := e
    obtain ⟨hv, ha, hm⟩ := (mapWf_cons d k v m).mp h
    by_cases hp : p (k, v)
    · rw [List.filter_cons_of_pos hp, mapWf_cons]
      exact ⟨hv, fun e he => ha e (List.mem_filter.mp he).1, ih hm⟩
    · rw [List.filter_cons_of_neg hp]; exact ih hm

theorem above_insertKey (j k : Nat) (v : α) (m : SMap α) (hk : j < k) (h : above j m) :
    above j (insertKey k v m) := by
  induction m with
  | nil => intro e he; simp [insertKey] at he; subst he; exact hk
  | cons e m ih =>
    obtain ⟨k', v'⟩ := e
    simp only [insertKey]
    split
    · intro e he
      rcases List.mem_cons.mp he with rfl | he
      · exact hk
      · exact h e he
    · intro e he
      rcases List.mem_cons.mp he with rfl | he
      · exact h _ (by simp)
      · exact ih (fun e he => h e (by simp [he])) e he

theorem mapWf_insertKey [DecidableEq α] (d : Nat → α) (k : Nat) (v : α) (m : SMap α) (hv : v ≠ d k)
    (hk : ∀ e ∈ m, e.1 ≠ k) (h : mapWf d m = true) : mapWf d (insertKey k v m) = true := by
  induction m with
  | nil => simp [insertKey, mapWf, hv]
  | cons e m ih =>
    obtain ⟨k', v'⟩ := e
    obtain ⟨hv', ha, hm⟩ := (mapWf_cons d k' v' m).mp h
    have hne : k' ≠ k := hk (k', v') (by simp)
    simp only [insertKey]
    split
    · rename_i hlt
      rw [mapWf_cons]
      refine ⟨hv, ?_, h⟩
      intro e he
      rcases List.mem_cons.mp he with rfl | he
      · exact hlt
      · exact Nat.lt_trans hlt (ha e he)
    · rename_i hlt
      rw [mapWf_cons]
      exact ⟨hv', above_insertKey _ _ _ _ (by omega) ha, ih (fun e he => hk e (by simp [he])) hm⟩

/-- A write keeps the canonical form. -/
theorem mapWf_put [DecidableEq α] (d : Nat → α) (m : SMap α) (k : Nat) (v : α) (h : mapWf d m = true) :
    mapWf d (put (d k) m k v) = true := by
  simp only [put]
  split
  · exact mapWf_filter _ _ _ h
  · rename_i hv
    exact mapWf_insertKey _ _ _ _ hv (by simp) (mapWf_filter _ _ _ h)

/-- So does dropping a range. -/
theorem mapWf_dropRange [DecidableEq α] (d : Nat → α) (m : SMap α) (lo n : Nat) (h : mapWf d m = true) :
    mapWf d (dropRange m lo n) = true := mapWf_filter _ _ _ h

end Sys2Proof.Machine
end

