-- ==== Sys2Proof/Laws/Registers.lean ====
section
/-!
SUPPORT. Lemmas about the register file: what a write of a register or a field leaves in every other, and that
the register file keeps its canonical form.
-/
namespace Sys2Proof.Machine

/-- Each register has a number of its own. -/
theorem Reg.code_ofNat (r : Reg) : Reg.ofNat r.code = r := by cases r <;> rfl

theorem Reg.code_inj {r q : Reg} (h : r.code = q.code) : r = q := by
  rw [← Reg.code_ofNat r, ← Reg.code_ofNat q, h]

/-- What a register reads as after a register is written. -/
theorem State.reg_setReg (s : State) (r q : Reg) (i j : Nat) (v : RegVal) :
    (s.setReg r i v).reg q j = if q = r ∧ j = i then v else s.reg q j := by
  simp only [State.reg, State.setReg]
  by_cases h : q = r
  · subst h
    rw [look_put_same]
    by_cases hj : j = i
    · subst hj; simp
    · simp [look_put_other _ _ _ _ _ _ hj, hj]
  · have : q.code ≠ r.code := fun e => h (Reg.code_inj e)
    simp [look_put_other _ _ _ _ _ _ this, h]

@[simp] theorem State.reg_setReg_same (s : State) (r : Reg) (i : Nat) (v : RegVal) :
    (s.setReg r i v).reg r i = v := by simp [State.reg_setReg]

/-- The bits of a bit field. -/
theorem getBits_setBits_same (v : RegVal) (lo w x : Nat) (h : lo + w ≤ 512) :
    getBits (setBits v lo w x) lo w = x % 2 ^ w := by
  apply Nat.eq_of_testBit_eq
  intro i
  simp only [getBits, setBits]
  rw [Nat.testBit_mod_two_pow, Nat.testBit_mod_two_pow, Nat.testBit_shiftRight]
  by_cases hi : i < w
  · have hb : lo + i < 512 := by omega
    simp only [hi, decide_true, Bool.true_and, BitVec.testBit_toNat, BitVec.getLsbD_or, BitVec.getLsbD_and,
      BitVec.getLsbD_not, hb, BitVec.getLsbD_ofNat, Nat.testBit_shiftLeft, Nat.testBit_two_pow_sub_one,
      Nat.testBit_mod_two_pow]
    simp [hi]
  · simp [hi]

/-- A bit field that shares no bit with the one written keeps its value. -/
theorem getBits_setBits_other (v : RegVal) (lo w x lo' w' : Nat) (h : lo' + w' ≤ lo ∨ lo + w ≤ lo') :
    getBits (setBits v lo w x) lo' w' = getBits v lo' w' := by
  apply Nat.eq_of_testBit_eq
  intro i
  simp only [getBits, setBits]
  rw [Nat.testBit_mod_two_pow, Nat.testBit_mod_two_pow, Nat.testBit_shiftRight, Nat.testBit_shiftRight]
  by_cases hi : i < w'
  · simp only [hi, decide_true, Bool.true_and, BitVec.testBit_toNat, BitVec.getLsbD_or, BitVec.getLsbD_and,
      BitVec.getLsbD_not, BitVec.getLsbD_ofNat, Nat.testBit_shiftLeft, Nat.testBit_two_pow_sub_one,
      Nat.testBit_mod_two_pow]
    have hc : lo' + i < lo ∨ ¬ lo' + i - lo < w := by omega
    rcases hc with hc | hc
    · have : ¬ lo ≤ lo' + i := by omega
      by_cases hb : lo' + i < 512
      · simp [this, hb]
      · simp [this, hb, BitVec.getLsbD_of_ge v _ (Nat.le_of_not_lt hb)]
    · by_cases hb : lo' + i < 512
      · simp [hc, hb]
      · simp [hc, hb, BitVec.getLsbD_of_ge v _ (Nat.le_of_not_lt hb)]
  · simp [hi]

/-- A field reads as what was written to it. -/
theorem State.fld_setFld_same (s : State) (f : Fld) (i x : Nat) (h : f.lo + f.width ≤ 512) :
    (s.setFld f i x).fld f i = x % 2 ^ f.width := by
  simp [State.fld, State.setFld, getBits_setBits_same _ _ _ _ h]

/-- Every other field, and every other instance, keeps its value. -/
theorem State.fld_setFld_other (s : State) (f g : Fld) (i j x : Nat) (h : f.apart g = true ∨ j ≠ i) :
    (s.setFld f i x).fld g j = s.fld g j := by
  simp only [State.fld, State.setFld, State.reg_setReg]
  split
  · rename_i e
    obtain ⟨er, ej⟩ := e
    subst ej
    rcases h with h | h
    · simp only [Fld.apart, Bool.or_eq_true, decide_eq_true_eq] at h
      rw [er]
      apply getBits_setBits_other
      rcases h with (h | h) | h
      · exact absurd er.symm h
      · exact Or.inl h
      · exact Or.inr h
    · exact absurd rfl h
  · rfl

/-- A write of a field leaves every other register and instance alone. -/
theorem State.reg_setFld_other (s : State) (f : Fld) (i x : Nat) (r : Reg) (j : Nat) (h : r ≠ f.reg ∨ j ≠ i) :
    (s.setFld f i x).reg r j = s.reg r j := by
  rw [State.setFld, State.reg_setReg, if_neg]
  rintro ⟨a, b⟩
  rcases h with h | h <;> contradiction

/-! ### The canonical form of the register file -/

theorem regsWf_nil : Regs.wf [] := ⟨rfl, fun _ => rfl⟩

/-- A write of a register keeps it. -/
theorem regsWf_setReg (s : State) (r : Reg) (i : Nat) (v : RegVal) (h : Regs.wf s.regs) :
    Regs.wf (s.setReg r i v).regs := by
  refine ⟨mapWf_put (fun _ => []) _ _ _ h.1, fun q => ?_⟩
  simp only [State.setReg]
  by_cases e : q = r
  · subst e; rw [look_put_same]; exact mapWf_put q.resetVal _ _ _ (h.2 q)
  · rw [look_put_other _ _ _ _ _ _ fun c => e (Reg.code_inj c)]; exact h.2 q

end Sys2Proof.Machine
end

