-- ==== Sys2Proof/Laws/Memory.lean ====
section
/-!
SUPPORT. What each operation on the on-package memories, their poison tags and host memory leaves at every
address, and that each keeps the canonical form.
-/
namespace Sys2Proof.Machine

/-! ### Bytes -/

/-- A byte written is read back; every other keeps its value. -/
theorem State.byte_setByte (s : State) (a k : Nat) (b : Byte) :
    (s.setByte a b).byte k = if k = a then b else s.byte k := by
  simp only [State.byte, State.setByte, look_put]

/-- Bytes written change the byte memory and nothing else. -/
theorem State.setBytes_eq (bs : Bytes) : ∀ (s : State) (a : Nat), s.setBytes a bs = { s with mem := (s.setBytes a bs).mem } := by
  induction bs with
  | nil => intro s a; rfl
  | cons b bs ih => intro s a; rw [State.setBytes, ih]; rfl

@[simp] theorem State.setBytes_poison (s : State) (a : Nat) (bs : Bytes) : (s.setBytes a bs).poison = s.poison := by
  rw [State.setBytes_eq]

@[simp] theorem State.setBytes_regs (s : State) (a : Nat) (bs : Bytes) : (s.setBytes a bs).regs = s.regs := by
  rw [State.setBytes_eq]

@[simp] theorem State.setBytes_cores (s : State) (a : Nat) (bs : Bytes) : (s.setBytes a bs).cores = s.cores := by
  rw [State.setBytes_eq]

@[simp] theorem State.setBytes_host (s : State) (a : Nat) (bs : Bytes) : (s.setBytes a bs).host = s.host := by
  rw [State.setBytes_eq]

/-- A byte below the bytes written keeps its value. -/
theorem State.byte_setBytes_below (bs : Bytes) : ∀ (s : State) (a k : Nat), k < a → (s.setBytes a bs).byte k = s.byte k := by
  induction bs with
  | nil => intro s a k _; rfl
  | cons b bs ih =>
    intro s a k h
    rw [State.setBytes, ih _ _ _ (by omega), State.byte_setByte, if_neg (by omega)]

/-- What bytes written leave at every address. -/
theorem State.byte_setBytes (bs : Bytes) : ∀ (s : State) (a k : Nat),
    (s.setBytes a bs).byte k = if a ≤ k ∧ k < a + bs.length then bs.getD (k - a) 0 else s.byte k := by
  induction bs with
  | nil => intro s a k; rw [if_neg (by rw [List.length_nil]; omega)]; rfl
  | cons b bs ih =>
    intro s a k
    rw [State.setBytes, ih, State.byte_setByte, List.length_cons]
    by_cases h : k = a
    · subst h
      rw [if_neg (by omega), if_pos rfl, if_pos (by omega)]
      simp
    · by_cases hk : a + 1 ≤ k ∧ k < a + 1 + bs.length
      · rw [if_pos hk, if_pos (by omega)]
        obtain ⟨n, rfl⟩ : ∃ n, k = a + 1 + n := ⟨k - (a + 1), by omega⟩
        simp [show a + 1 + n - a = n + 1 by omega, show a + 1 + n - (a + 1) = n by omega]
      · rw [if_neg hk, if_neg h, if_neg (by omega)]

/-- A range reads as the bytes written to it. -/
theorem State.bytesAt_setBytes (s : State) (a : Nat) (bs : Bytes) : (s.setBytes a bs).bytesAt a bs.length = bs := by
  apply List.ext_getElem
  · simp [State.bytesAt]
  · intro i h _
    have hi : i < bs.length := by simpa [State.bytesAt] using h
    simp [State.bytesAt, State.byte_setBytes, hi]

/-! ### Tags -/

/-- The tag set or cleared is that of the lines that hold the address. -/
theorem State.tagged_setPoison (s : State) (a k : Nat) (t : Bool) :
    (s.setPoison a t).tagged k = if k / 64 = a / 64 then t else s.tagged k := by
  simp only [State.tagged, State.setPoison, look_put]

@[simp] theorem State.byte_setPoison (s : State) (a k : Nat) (t : Bool) : (s.setPoison a t).byte k = s.byte k := rfl

/-- A fold over lines each of which changes only tags changes only tags. -/
theorem foldl_tags {α : Type} (f : State → α → State) (h : ∀ s x, f s x = { s with poison := (f s x).poison }) (l : List α) :
    ∀ s : State, l.foldl f s = { s with poison := (l.foldl f s).poison } := by
  induction l with
  | nil => intro s; rfl
  | cons x l ih => intro s; rw [List.foldl_cons, ih, h]

/-- The tags of a write change only tags. -/
theorem State.tagWrite_eq (s : State) (a n : Nat) (t : Bool) :
    s.tagWrite a n t = { s with poison := (s.tagWrite a n t).poison } := by
  unfold State.tagWrite
  refine foldl_tags _ (fun s i => ?_) _ s
  dsimp only
  split
  · rfl
  · split <;> rfl

@[simp] theorem State.tagWrite_mem (s : State) (a n : Nat) (t : Bool) : (s.tagWrite a n t).mem = s.mem := by
  rw [State.tagWrite_eq]

@[simp] theorem State.tagWrite_regs (s : State) (a n : Nat) (t : Bool) : (s.tagWrite a n t).regs = s.regs := by
  rw [State.tagWrite_eq]

@[simp] theorem State.byte_tagWrite (s : State) (a n k : Nat) (t : Bool) : (s.tagWrite a n t).byte k = s.byte k := by
  simp only [State.byte, State.tagWrite_mem]

/-- The tag of line `i` of those that a write touches. -/
def tagLine (a n : Nat) (t : Bool) (s : State) (i : Nat) : State :=
  let l := (a / 64 + i) * 64
  if t then s.setPoison l true
  else if a ≤ l ∧ l + 64 ≤ a + n then s.setPoison l false
  else s

/-- The tags that the first `m` lines of a write leave. -/
theorem State.tagged_tagLines (s : State) (a n m k : Nat) (t : Bool) :
    ((List.range m).foldl (tagLine a n t) s).tagged k
      = if a / 64 ≤ k / 64 ∧ k / 64 < a / 64 + m then
          (t || (s.tagged k && !(decide (a ≤ k / 64 * 64) && decide (k / 64 * 64 + 64 ≤ a + n))))
        else s.tagged k := by
  induction m with
  | zero => rw [if_neg (by omega)]; rfl
  | succ m ih =>
    rw [List.range_succ, List.foldl_append, List.foldl_cons, List.foldl_nil]
    have line : (a / 64 + m) * 64 / 64 = a / 64 + m := by omega
    generalize (List.range m).foldl (tagLine a n t) s = v at ih ⊢
    by_cases h : k / 64 = a / 64 + m
    · rw [if_neg (by omega)] at ih
      rw [if_pos (by omega), h, ← ih]
      unfold tagLine
      cases t with
      | true => simp [State.tagged_setPoison, line, h]
      | false =>
        by_cases hl : a ≤ (a / 64 + m) * 64 ∧ (a / 64 + m) * 64 + 64 ≤ a + n
        · simp [State.tagged_setPoison, line, h, hl]
        · simp only [Bool.false_eq_true, if_false, if_neg hl, Bool.false_or]
          rw [← Bool.decide_and, decide_eq_false hl]
          simp
    · have keep : (tagLine a n t v m).tagged k = v.tagged k := by
        unfold tagLine
        dsimp only
        split
        · rw [State.tagged_setPoison, line, if_neg h]
        · split
          · rw [State.tagged_setPoison, line, if_neg h]
          · rfl
      have same : (a / 64 ≤ k / 64 ∧ k / 64 < a / 64 + (m + 1)) ↔ (a / 64 ≤ k / 64 ∧ k / 64 < a / 64 + m) := by omega
      rw [keep, ih]
      simp only [same]

/-- What a write leaves as the tag of every line (R186): with the tag each line touched is poisoned; without it a line
written whole is clean, and one written in part keeps its tag. -/
theorem State.tagged_tagWrite (s : State) (a n k : Nat) (t : Bool) :
    (s.tagWrite a n t).tagged k
      = if 0 < n ∧ a / 64 ≤ k / 64 ∧ k / 64 ≤ (a + n - 1) / 64 then
          (t || (s.tagged k && !(decide (a ≤ k / 64 * 64) && decide (k / 64 * 64 + 64 ≤ a + n))))
        else s.tagged k := by
  show ((List.range _).foldl (tagLine a n t) s).tagged k = _
  rw [State.tagged_tagLines]
  by_cases h : n = 0
  · rw [if_pos h, if_neg (by omega), if_neg (by omega)]
  · rw [if_neg h]
    have : a / 64 ≤ (a + n - 1) / 64 := Nat.div_le_div_right (by omega)
    have e : (a / 64 ≤ k / 64 ∧ k / 64 < a / 64 + ((a + n - 1) / 64 - a / 64 + 1))
        ↔ (0 < n ∧ a / 64 ≤ k / 64 ∧ k / 64 ≤ (a + n - 1) / 64) := by omega
    simp only [e]

/-! ### A write, and zeroing -/

/-- A write changes bytes and tags and nothing else. -/
theorem State.writeMem_eq (s : State) (a : Nat) (bs : Bytes) (t : Bool) :
    s.writeMem a bs t = { s with mem := (s.writeMem a bs t).mem, poison := (s.writeMem a bs t).poison } := by
  rw [State.writeMem, State.tagWrite_eq, State.setBytes_eq]

@[simp] theorem State.writeMem_regs (s : State) (a : Nat) (bs : Bytes) (t : Bool) : (s.writeMem a bs t).regs = s.regs := by
  rw [State.writeMem_eq]

@[simp] theorem State.writeMem_cores (s : State) (a : Nat) (bs : Bytes) (t : Bool) : (s.writeMem a bs t).cores = s.cores := by
  rw [State.writeMem_eq]

@[simp] theorem State.writeMem_host (s : State) (a : Nat) (bs : Bytes) (t : Bool) : (s.writeMem a bs t).host = s.host := by
  rw [State.writeMem_eq]

/-- What a write leaves at every address. -/
theorem State.byte_writeMem (s : State) (a k : Nat) (bs : Bytes) (t : Bool) :
    (s.writeMem a bs t).byte k = if a ≤ k ∧ k < a + bs.length then bs.getD (k - a) 0 else s.byte k := by
  rw [State.writeMem, State.byte_tagWrite, State.byte_setBytes]

/-- A range reads as the bytes written to it. -/
theorem State.bytesAt_writeMem (s : State) (a : Nat) (bs : Bytes) (t : Bool) :
    (s.writeMem a bs t).bytesAt a bs.length = bs := by
  refine Eq.trans ?_ (State.bytesAt_setBytes s a bs)
  simp only [State.bytesAt, State.writeMem, State.byte_tagWrite]

/-- What a write leaves as the tag of every line (R186). -/
theorem State.tagged_writeMem (s : State) (a k : Nat) (bs : Bytes) (t : Bool) :
    (s.writeMem a bs t).tagged k
      = if 0 < bs.length ∧ a / 64 ≤ k / 64 ∧ k / 64 ≤ (a + bs.length - 1) / 64 then
          (t || (s.tagged k && !(decide (a ≤ k / 64 * 64) && decide (k / 64 * 64 + 64 ≤ a + bs.length))))
        else s.tagged k := by
  rw [State.writeMem, State.tagged_tagWrite]
  simp only [State.tagged, State.setBytes_poison]

/-- A range zeroed reads as zero, and every other address as before. -/
theorem State.byte_zeroRange (s : State) (a n k : Nat) :
    (s.zeroRange a n).byte k = if a ≤ k ∧ k < a + n then 0 else s.byte k := by
  simp only [State.byte, State.zeroRange, look_dropRange]

/-- Its lines are without poison; `a` and `n` are whole lines. -/
theorem State.tagged_zeroRange (s : State) (a n k : Nat) :
    (s.zeroRange a n).tagged k
      = if a / 64 ≤ k / 64 ∧ k / 64 < a / 64 + n / 64 then false else s.tagged k := by
  simp only [State.tagged, State.zeroRange, look_dropRange]

/-! ### Host memory -/

/-- What bytes placed in host memory leave at every key. -/
theorem look_hostStore (bs : Bytes) : ∀ (m : SMap Byte) (a k : Nat),
    look 0 (hostStore m a bs) k = if a ≤ k ∧ k < a + bs.length then bs.getD (k - a) 0 else look 0 m k := by
  induction bs with
  | nil => intro m a k; rw [if_neg (by rw [List.length_nil]; omega)]; rfl
  | cons b bs ih =>
    intro m a k
    rw [hostStore, ih, look_put, List.length_cons]
    by_cases h : k = a
    · subst h
      rw [if_neg (by omega), if_pos rfl, if_pos (by omega)]
      simp
    · by_cases hk : a + 1 ≤ k ∧ k < a + 1 + bs.length
      · rw [if_pos hk, if_pos (by omega)]
        obtain ⟨n, rfl⟩ : ∃ n, k = a + 1 + n := ⟨k - (a + 1), by omega⟩
        simp [show a + 1 + n - a = n + 1 by omega, show a + 1 + n - (a + 1) = n by omega]
      · rw [if_neg hk, if_neg h, if_neg (by omega)]

/-- A range of host memory that does not wrap reads as the bytes placed in it. -/
theorem State.hostBytes_hostStore (s : State) (pasid : Option Nat) (a : Nat) (bs : Bytes) (h : a + bs.length ≤ 2 ^ 64)
    (e : s.host.mem = hostStore m (hostKey pasid a) bs) : s.hostBytes pasid a bs.length = bs := by
  apply List.ext_getElem
  · simp [State.hostBytes]
  · intro i hi _
    have hi : i < bs.length := by simpa [State.hostBytes] using hi
    have key : hostKey pasid (a + i) = hostKey pasid a + i := by
      unfold hostKey
      rw [Nat.mod_eq_of_lt (by omega), Nat.mod_eq_of_lt (by omega)]
      omega
    simp only [State.hostBytes, State.hostByte, e, key, List.getElem_map, List.getElem_range]
    rw [look_hostStore, if_pos (by omega)]
    simp [hi]

/-! ### The canonical form -/

/-- Every operation on the on-package memories keeps their canonical form and that of their tags. -/
theorem Memory.wf_setByte (s : State) (a : Nat) (b : Byte) (h : Memory.wf s.mem = true) :
    Memory.wf (s.setByte a b).mem = true := mapWf_put (fun _ => 0) s.mem a b h

theorem Memory.wf_setBytes (bs : Bytes) : ∀ (s : State) (a : Nat), Memory.wf s.mem = true →
    Memory.wf (s.setBytes a bs).mem = true := by
  induction bs with
  | nil => intro s a h; exact h
  | cons b bs ih => intro s a h; exact ih _ _ (Memory.wf_setByte s a b h)

theorem Tags.wf_setPoison (s : State) (a : Nat) (t : Bool) (h : Tags.wf s.poison = true) :
    Tags.wf (s.setPoison a t).poison = true := mapWf_put (fun _ => false) s.poison (a / 64) t h

/-- A fold keeps what each of its steps keeps. -/
theorem foldl_keeps {α β : Type} (P : β → Prop) (f : β → α → β) (h : ∀ b x, P b → P (f b x)) (l : List α) :
    ∀ b, P b → P (l.foldl f b) := by
  induction l with
  | nil => intro b hb; exact hb
  | cons x l ih => intro b hb; exact ih _ (h _ _ hb)

theorem Tags.wf_tagWrite (s : State) (a n : Nat) (t : Bool) (h : Tags.wf s.poison = true) :
    Tags.wf (s.tagWrite a n t).poison = true := by
  unfold State.tagWrite
  refine foldl_keeps (fun v : State => Tags.wf v.poison = true) _ (fun v i hv => ?_) _ _ h
  dsimp only
  split
  · exact Tags.wf_setPoison _ _ _ hv
  · split
    · exact Tags.wf_setPoison _ _ _ hv
    · exact hv

theorem Memory.wf_writeMem (s : State) (a : Nat) (bs : Bytes) (t : Bool) (h : Memory.wf s.mem = true) :
    Memory.wf (s.writeMem a bs t).mem = true := by
  rw [State.writeMem, State.tagWrite_mem]
  exact Memory.wf_setBytes _ _ _ h

theorem Tags.wf_writeMem (s : State) (a : Nat) (bs : Bytes) (t : Bool) (h : Tags.wf s.poison = true) :
    Tags.wf (s.writeMem a bs t).poison = true :=
  Tags.wf_tagWrite _ _ _ _ (by rw [State.setBytes_poison]; exact h)

theorem Memory.wf_zeroRange (s : State) (a n : Nat) (h : Memory.wf s.mem = true) :
    Memory.wf (s.zeroRange a n).mem = true := mapWf_dropRange _ _ _ _ h

theorem Tags.wf_zeroRange (s : State) (a n : Nat) (h : Tags.wf s.poison = true) :
    Tags.wf (s.zeroRange a n).poison = true := mapWf_dropRange _ _ _ _ h

theorem Memory.wf_hostStore (bs : Bytes) : ∀ (m : SMap Byte) (k : Nat), Memory.wf m = true →
    Memory.wf (hostStore m k bs) = true := by
  induction bs with
  | nil => intro m k h; exact h
  | cons b bs ih => intro m k h; exact ih _ _ (mapWf_put (fun _ => 0) m k b h)

/-- The memories are in canonical form at reset. -/
theorem reset_memories : Memory.wf State.reset.mem = true ∧ Tags.wf State.reset.poison = true
    ∧ Memory.wf State.reset.host.mem = true ∧ Tags.wf State.reset.host.poison = true := by decide

end Sys2Proof.Machine
end

