-- ==== Sys2Proof/Laws/PerInstr.lean ====
section
/-!
SUPPORT. The family of statements made per command: a well-formed command names only units, slots and windows
that the manual gives the block, each of its operands passing its check.
-/
namespace Sys2Proof.Laws.OperandCheck

/-- Every operand of a well-formed command that names something names something there is. -/
def Statement (i : Instr) : Prop := i.wf = true → ∀ o ∈ i.operands, o.ok = true

theorem of_wf (i : Instr) : Statement i := fun h => List.all_eq_true.mp h

theorem registerWrite (req : Nat) (bar : Bar) (offset : Nat) (size : Nat) (value : Nat) : Statement (.registerWrite req bar offset size value) :=
  of_wf _
theorem rcRead (req : Nat) (bar : Bar) (offset : Nat) (size : Nat) : Statement (.rcRead req bar offset size) :=
  of_wf _
theorem badAccess (req : Nat) (bar : Bar) (offset : Nat) (size : Nat) (write : Bool) : Statement (.badAccess req bar offset size write) :=
  of_wf _
theorem lowHalfRead (req : Nat) (bar : Bar) (offset : Nat) : Statement (.lowHalfRead req bar offset) :=
  of_wf _
theorem lowHalfWrite (req : Nat) (bar : Bar) (offset : Nat) (value : Nat) : Statement (.lowHalfWrite req bar offset value) :=
  of_wf _
theorem highHalfWrite (req : Nat) (bar : Bar) (offset : Nat) (value : Nat) : Statement (.highHalfWrite req bar offset value) :=
  of_wf _
theorem tickBoundary : Statement (.tickBoundary) :=
  of_wf _
theorem garMaxInstrTimeWrite (p : Nat) (value : Nat) : Statement (.garMaxInstrTimeWrite p value) :=
  of_wf _
theorem radioWindowStart (p : Nat) : Statement (.radioWindowStart p) :=
  of_wf _
theorem engineYield (p : Nat) (engine : Nat) (cycle : Nat) : Statement (.engineYield p engine cycle) :=
  of_wf _
theorem yieldOverrun (p : Nat) : Statement (.yieldOverrun p) :=
  of_wf _
theorem radioWindowEnd (p : Nat) : Statement (.radioWindowEnd p) :=
  of_wf _
theorem cutLoad (len : Nat) : Statement (.cutLoad len) :=
  of_wf _
theorem cutCancel : Statement (.cutCancel) :=
  of_wf _
theorem cutCheckEnd : Statement (.cutCheckEnd) :=
  of_wf _
theorem descriptorSubmit (portal : Nat) (slot : Nat) (desc : Bytes) (via : (Option Nat)) : Statement (.descriptorSubmit portal slot desc via) :=
  of_wf _
theorem submissionWindowBadWrite (portal : Nat) : Statement (.submissionWindowBadWrite portal) :=
  of_wf _
theorem commandFetch (p : Nat) (slot : Nat) : Statement (.commandFetch p slot) :=
  of_wf _
theorem signalArrive (idx : Nat) : Statement (.signalArrive idx) :=
  of_wf _
theorem waitTimeout (p : Nat) (slot : Nat) (engine : Nat) : Statement (.waitTimeout p slot engine) :=
  of_wf _
theorem commandComplete (p : Nat) (slot : Nat) (engine : Nat) : Statement (.commandComplete p slot engine) :=
  of_wf _
theorem creditMirrorWrite (portal : Nat) : Statement (.creditMirrorWrite portal) :=
  of_wf _
theorem slcMsgWrite (s : Nat) (m : Nat) (word : Nat) (value : Nat) : Statement (.slcMsgWrite s m word value) :=
  of_wf _
theorem syncObjWrite (n : Nat) (form : ObjWrite) (value : Nat) : Statement (.syncObjWrite n form value) :=
  of_wf _
theorem syncCtlWrite (value : Nat) : Statement (.syncCtlWrite value) :=
  of_wf _
theorem nop (p : Nat) (slot : Nat) : Statement (.nop p slot) :=
  of_wf _
theorem signal (p : Nat) (slot : Nat) : Statement (.signal p slot) :=
  of_wf _
theorem wait (p : Nat) (slot : Nat) : Statement (.wait p slot) :=
  of_wf _
theorem yieldPoint (p : Nat) (slot : Nat) : Statement (.yieldPoint p slot) :=
  of_wf _
theorem handBack (p : Nat) (slot : Nat) : Statement (.handBack p slot) :=
  of_wf _
theorem barrier (p : Nat) (slot : Nat) : Statement (.barrier p slot) :=
  of_wf _
theorem digestMark (p : Nat) (slot : Nat) : Statement (.digestMark p slot) :=
  of_wf _
theorem stepTrigger (p : Nat) (slot : Nat) : Statement (.stepTrigger p slot) :=
  of_wf _
theorem timestamp (p : Nat) (slot : Nat) : Statement (.timestamp p slot) :=
  of_wf _
theorem interrupt (p : Nat) (slot : Nat) : Statement (.interrupt p slot) :=
  of_wf _
theorem hostWrite (p : Nat) (slot : Nat) : Statement (.hostWrite p slot) :=
  of_wf _
theorem gmm (p : Nat) (slot : Nat) : Statement (.gmm p slot) :=
  of_wf _
theorem gdrain (p : Nat) (slot : Nat) : Statement (.gdrain p slot) :=
  of_wf _
theorem gpreload (p : Nat) (slot : Nat) : Statement (.gpreload p slot) :=
  of_wf _
theorem gdcfg (p : Nat) (slot : Nat) : Statement (.gdcfg p slot) :=
  of_wf _
theorem gmode (p : Nat) (slot : Nat) : Statement (.gmode p slot) :=
  of_wf _
theorem gmmLastWavefront (p : Nat) (half : Nat) : Statement (.gmmLastWavefront p half) :=
  of_wf _
theorem drainStart (p : Nat) (half : Nat) : Statement (.drainStart p half) :=
  of_wf _
theorem drainEnd (p : Nat) (half : Nat) : Statement (.drainEnd p half) :=
  of_wf _
theorem preloadEnd (p : Nat) (half : Nat) : Statement (.preloadEnd p half) :=
  of_wf _
theorem garnetFault (p : Nat) (half : Nat) (kind : GarFault) : Statement (.garnetFault p half kind) :=
  of_wf _
theorem ocopy (p : Nat) (slot : Nat) : Statement (.ocopy p slot) :=
  of_wf _
theorem ogather (p : Nat) (slot : Nat) : Statement (.ogather p slot) :=
  of_wf _
theorem oscatter (p : Nat) (slot : Nat) : Statement (.oscatter p slot) :=
  of_wf _
theorem oscatterAdd (p : Nat) (slot : Nat) : Statement (.oscatterAdd p slot) :=
  of_wf _
theorem ofill (p : Nat) (slot : Nat) : Statement (.ofill p slot) :=
  of_wf _
theorem oparityEnc (p : Nat) (slot : Nat) : Statement (.oparityEnc p slot) :=
  of_wf _
theorem oparityRebuild (p : Nat) (slot : Nat) : Statement (.oparityRebuild p slot) :=
  of_wf _
theorem odigest (p : Nat) (slot : Nat) : Statement (.odigest p slot) :=
  of_wf _
theorem opalTransactionDone (p : Nat) (slot : Nat) : Statement (.opalTransactionDone p slot) :=
  of_wf _
theorem orderedAddArrive (idx : Nat) : Statement (.orderedAddArrive idx) :=
  of_wf _
theorem orderedAddRetry (idx : Nat) : Statement (.orderedAddRetry idx) :=
  of_wf _
theorem orderedAddTimeout (line : Nat) : Statement (.orderedAddTimeout line) :=
  of_wf _
theorem vaultLineRead (addr : Nat) (found : LineCheck) : Statement (.vaultLineRead addr found) :=
  of_wf _
theorem vaultLineWrite (addr : Nat) (data : Bytes) (poison : Bool) (found : LineCheck) : Statement (.vaultLineWrite addr data poison found) :=
  of_wf _
theorem vaultScrub (p : Nat) (line : Nat) (found : LineCheck) : Statement (.vaultScrub p line found) :=
  of_wf _
theorem rowCopyEnd (p : Nat) : Statement (.rowCopyEnd p) :=
  of_wf _
theorem bankCopyEnd (p : Nat) : Statement (.bankCopyEnd p) :=
  of_wf _
theorem spmScrub (addr : Nat) (found : LineCheck) : Statement (.spmScrub addr found) :=
  of_wf _
theorem granuleClaimDeferred (p : Nat) (slot : Nat) (engine : Nat) : Statement (.granuleClaimDeferred p slot engine) :=
  of_wf _
theorem remoteSpmRequest (p : Nat) (slot : Nat) (addr : Nat) : Statement (.remoteSpmRequest p slot addr) :=
  of_wf _
theorem granuleZeroEnd (p : Nat) (g : Nat) : Statement (.granuleZeroEnd p g) :=
  of_wf _
theorem clmGranuleZeroEnd (k : Nat) (g : Nat) : Statement (.clmGranuleZeroEnd k g) :=
  of_wf _
theorem coreVaultPageWrite (p : Nat) (page : Nat) (value : Nat) : Statement (.coreVaultPageWrite p page value) :=
  of_wf _
theorem pageZeroEnd (s : Nat) : Statement (.pageZeroEnd s) :=
  of_wf _
theorem ctxEvict (p : Nat) (slot : Nat) : Statement (.ctxEvict p slot) :=
  of_wf _
theorem evictEnd (p : Nat) : Statement (.evictEnd p) :=
  of_wf _
theorem restoreEnd (p : Nat) : Statement (.restoreEnd p) :=
  of_wf _
theorem seqStart (s : Nat) (winSlot : Nat) (cmd : Bytes) (via : (Option Nat)) : Statement (.seqStart s winSlot cmd via) :=
  of_wf _
theorem seqExtend (s : Nat) (winSlot : Nat) (cmd : Bytes) (via : (Option Nat)) : Statement (.seqExtend s winSlot cmd via) :=
  of_wf _
theorem seqCancel (s : Nat) (winSlot : Nat) (cmd : Bytes) (via : (Option Nat)) : Statement (.seqCancel s winSlot cmd via) :=
  of_wf _
theorem seqParams (s : Nat) (winSlot : Nat) (cmd : Bytes) (via : (Option Nat)) : Statement (.seqParams s winSlot cmd via) :=
  of_wf _
theorem seqWindowBadWrite (s : Nat) : Statement (.seqWindowBadWrite s) :=
  of_wf _
theorem ackRecordWrite (s : Nat) : Statement (.ackRecordWrite s) :=
  of_wf _
theorem stepBind (s : Nat) (value : Nat) (via : (Option Nat)) : Statement (.stepBind s value via) :=
  of_wf _
theorem stepBuild (s : Nat) : Statement (.stepBuild s) :=
  of_wf _
theorem stepComplete (s : Nat) : Statement (.stepComplete s) :=
  of_wf _
theorem outputCoalesceTimeout (s : Nat) : Statement (.outputCoalesceTimeout s) :=
  of_wf _
theorem fixedBatchStart (s : Nat) : Statement (.fixedBatchStart s) :=
  of_wf _
theorem allBlocked (p : Nat) : Statement (.allBlocked p) :=
  of_wf _
theorem contextIdleRelease (p : Nat) (slot : Nat) : Statement (.contextIdleRelease p slot) :=
  of_wf _
theorem lampCtxCfgWrite (d : Nat) (value : Nat) : Statement (.lampCtxCfgWrite d value) :=
  of_wf _
theorem bload (p : Nat) (move : BerylMove) : Statement (.bload p move) :=
  of_wf _
theorem bstore (p : Nat) (move : BerylMove) : Statement (.bstore p move) :=
  of_wf _
theorem brun (p : Nat) (slot : Nat) : Statement (.brun p slot) :=
  of_wf _
theorem bsets (p : Nat) (slot : Nat) : Statement (.bsets p slot) :=
  of_wf _
theorem bpclr (p : Nat) (slot : Nat) : Statement (.bpclr p slot) :=
  of_wf _
theorem btrim (p : Nat) (slot : Nat) : Statement (.btrim p slot) :=
  of_wf _
theorem bundle (p : Nat) (bank : Nat) (fetched : LineCheck) (loaded : (List LineCheck × List LineCheck)) :
    Statement (.bundle p bank fetched loaded) :=
  of_wf _
theorem cellStart (cell : Nat) (next : Bool) (atFrame : Nat) : Statement (.cellStart cell next atFrame) :=
  of_wf _
theorem cellStop (cell : Nat) (next : Bool) (atFrame : Nat) : Statement (.cellStop cell next atFrame) :=
  of_wf _
theorem cellReconfig (cell : Nat) (next : Bool) (atFrame : Nat) : Statement (.cellReconfig cell next atFrame) :=
  of_wf _
theorem cellFrameAction (cell : Nat) : Statement (.cellFrameAction cell) :=
  of_wf _
theorem cluLantCtlWrite (k : Nat) (value : Nat) : Statement (.cluLantCtlWrite k value) :=
  of_wf _
theorem lanternFault (k : Nat) : Statement (.lanternFault k) :=
  of_wf _
theorem planRead (cell : Nat) : Statement (.planRead cell) :=
  of_wf _
theorem prachOccasion (cell : Nat) (frame : Nat) (slot : Nat) (occ : Nat) : Statement (.prachOccasion cell frame slot occ) :=
  of_wf _
theorem noisePeriodEnd (cell : Nat) (period : Nat) : Statement (.noisePeriodEnd cell period) :=
  of_wf _
theorem uplinkResult (cell : Nat) (entry : UplinkEntry) : Statement (.uplinkResult cell entry) :=
  of_wf _
theorem jobRingProdWrite (k : Nat) (j : Nat) (prod : Nat) : Statement (.jobRingProdWrite k j prod) :=
  of_wf _
theorem ldpcDecode (k : Nat) (e : Nat) (j : Nat) : Statement (.ldpcDecode k e j) :=
  of_wf _
theorem ldpcEncode (k : Nat) (e : Nat) (j : Nat) : Statement (.ldpcEncode k e j) :=
  of_wf _
theorem polarDecode (k : Nat) (e : Nat) (j : Nat) : Statement (.polarDecode k e j) :=
  of_wf _
theorem polarEncode (k : Nat) (e : Nat) (j : Nat) : Statement (.polarEncode k e j) :=
  of_wf _
theorem turboDecode (k : Nat) (e : Nat) (j : Nat) : Statement (.turboDecode k e j) :=
  of_wf _
theorem turboEncode (k : Nat) (e : Nat) (j : Nat) : Statement (.turboEncode k e j) :=
  of_wf _
theorem tbccDecode (k : Nat) (e : Nat) (j : Nat) : Statement (.tbccDecode k e j) :=
  of_wf _
theorem tbccEncode (k : Nat) (e : Nat) (j : Nat) : Statement (.tbccEncode k e j) :=
  of_wf _
theorem codeBlockEnd (k : Nat) (e : Nat) : Statement (.codeBlockEnd k e) :=
  of_wf _
theorem jasperFault (k : Nat) (e : Nat) : Statement (.jasperFault k e) :=
  of_wf _
theorem frameReceive (i : Nat) (frame : Bytes) (fcsOk : Bool) : Statement (.frameReceive i frame fcsOk) :=
  of_wf _
theorem fifoDropRest (f : Nat) : Statement (.fifoDropRest f) :=
  of_wf _
theorem pop (f : Nat) (parityBad : Bool) : Statement (.pop f parityBad) :=
  of_wf _
theorem hubPacketMove (f : Nat) (parityBad : (List Nat)) : Statement (.hubPacketMove f parityBad) :=
  of_wf _
theorem egressPacketRead (f : Nat) (parityBad : (List Nat)) : Statement (.egressPacketRead f parityBad) :=
  of_wf _
theorem frameSelect (i : Nat) : Statement (.frameSelect i) :=
  of_wf _
theorem shaperRefill : Statement (.shaperRefill) :=
  of_wf _
theorem fhShaperWrite (fn : Nat) (node : Nat) (value : Nat) : Statement (.fhShaperWrite fn node value) :=
  of_wf _
theorem gateCommit (i : Nat) : Statement (.gateCommit i) :=
  of_wf _
theorem gateCancel (i : Nat) : Statement (.gateCancel i) :=
  of_wf _
theorem gateListStart (i : Nat) : Statement (.gateListStart i) :=
  of_wf _
theorem gateEntryAdvance (i : Nat) : Statement (.gateEntryAdvance i) :=
  of_wf _
theorem histogramSample : Statement (.histogramSample) :=
  of_wf _
theorem histogramClear (queue : Nat) : Statement (.histogramClear queue) :=
  of_wf _
theorem hostTxPost (i : Nat) (head : Nat) : Statement (.hostTxPost i head) :=
  of_wf _
theorem serdesFail (u : Nat) : Statement (.serdesFail u) :=
  of_wf _
theorem timeNowLowRead (req : Nat) (pps : Bool) : Statement (.timeNowLowRead req pps) :=
  of_wf _
theorem timeNowHighRead (req : Nat) (pps : Bool) : Statement (.timeNowHighRead req pps) :=
  of_wf _
theorem timeIncrementWrite (value : Nat) : Statement (.timeIncrementWrite value) :=
  of_wf _
theorem timeAdjAdd : Statement (.timeAdjAdd) :=
  of_wf _
theorem timeAdjSubtract : Statement (.timeAdjSubtract) :=
  of_wf _
theorem timeAdjSet : Statement (.timeAdjSet) :=
  of_wf _
theorem pllLock : Statement (.pllLock) :=
  of_wf _
theorem pllLockLoss : Statement (.pllLockLoss) :=
  of_wf _
theorem ppsOutPulse : Statement (.ppsOutPulse) :=
  of_wf _
theorem ppsInEdge : Statement (.ppsInEdge) :=
  of_wf _
theorem quiesce (s : Nat) : Statement (.quiesce s) :=
  of_wf _
theorem resume (s : Nat) : Statement (.resume s) :=
  of_wf _
theorem reset (s : Nat) : Statement (.reset s) :=
  of_wf _
theorem freeze (s : Nat) : Statement (.freeze s) :=
  of_wf _
theorem save (s : Nat) (saveVault : Bool) : Statement (.save s saveVault) :=
  of_wf _
theorem restore (s : Nat) : Statement (.restore s) :=
  of_wf _
theorem logStart (s : Nat) : Statement (.logStart s) :=
  of_wf _
theorem logStop (s : Nat) : Statement (.logStop s) :=
  of_wf _
theorem logFlush (s : Nat) : Statement (.logFlush s) :=
  of_wf _
theorem quiesceComplete (s : Nat) : Statement (.quiesceComplete s) :=
  of_wf _
theorem resetEnd (s : Nat) : Statement (.resetEnd s) :=
  of_wf _
theorem freezeComplete (s : Nat) : Statement (.freezeComplete s) :=
  of_wf _
theorem sliceCommandEnd (s : Nat) : Statement (.sliceCommandEnd s) :=
  of_wf _
theorem pageRequestResponse (s : Nat) (page : Nat) (code : PriCode) : Statement (.pageRequestResponse s page code) :=
  of_wf _
theorem atsInvalidation (s : Nat) (lo : Nat) (hi : Nat) : Statement (.atsInvalidation s lo hi) :=
  of_wf _
theorem creditLimitWrite (s : Nat) (value : Nat) : Statement (.creditLimitWrite s value) :=
  of_wf _
theorem tdispLockInterface (s : Nat) (stream : Nat) : Statement (.tdispLockInterface s stream) :=
  of_wf _
theorem tdispStartInterface (s : Nat) : Statement (.tdispStartInterface s) :=
  of_wf _
theorem tdispStopInterface (s : Nat) : Statement (.tdispStopInterface s) :=
  of_wf _
theorem ideIntegrityFailure (stream : Nat) : Statement (.ideIntegrityFailure stream) :=
  of_wf _
theorem pf0Flr : Statement (.pf0Flr) :=
  of_wf _
theorem pf1Flr : Statement (.pf1Flr) :=
  of_wf _
theorem busMasterEnable (fn : Nat) : Statement (.busMasterEnable fn) :=
  of_wf _
theorem heldRequestTimeout : Statement (.heldRequestTimeout) :=
  of_wf _
theorem ndClear (s : Nat) : Statement (.ndClear s) :=
  of_wf _
theorem groupBarrierAdd (c : Nat) (member : Nat) (n : Nat) (target : Nat) : Statement (.groupBarrierAdd c member n target) :=
  of_wf _
theorem groupReleaseReceive (c : Nat) (n : Nat) (value : Nat) (broken : Bool) (refused : Bool) (start : Nat) : Statement (.groupReleaseReceive c n value broken refused start) :=
  of_wf _
theorem groupBarrierRelease (n : Nat) : Statement (.groupBarrierRelease n) :=
  of_wf _
theorem heartbeatReceive (c : Nat) (beat : Heartbeat) : Statement (.heartbeatReceive c beat) :=
  of_wf _
theorem helloReceive (c : Nat) (member : Nat) : Statement (.helloReceive c member) :=
  of_wf _
theorem timeMessageReceive (c : Nat) (t1 : Int) (t2 : Int) (t3 : Int) (t4 : Int) : Statement (.timeMessageReceive c t1 t2 t3 t4) :=
  of_wf _
theorem flitCrcFail (c : Nat) : Statement (.flitCrcFail c) :=
  of_wf _
theorem clinkLinkDown (c : Nat) : Statement (.clinkLinkDown c) :=
  of_wf _
theorem clinkLinkUp (c : Nat) : Statement (.clinkLinkUp c) :=
  of_wf _
theorem xqProducerAdvance (c : Nat) (q : Nat) : Statement (.xqProducerAdvance c q) :=
  of_wf _
theorem transferWrite (c : Nat) (q : Nat) : Statement (.transferWrite c q) :=
  of_wf _
theorem transferLand (c : Nat) (xfer : Landing) : Statement (.transferLand c xfer) :=
  of_wf _
theorem transferAck (c : Nat) (q : Nat) (outcome : Nat) (code : Nat) : Statement (.transferAck c q outcome code) :=
  of_wf _
theorem mirrorReceive (c : Nat) (item : MirrorItem) : Statement (.mirrorReceive c item) :=
  of_wf _
theorem mirrorDump (c : Nat) (addr4k : Nat) : Statement (.mirrorDump c addr4k) :=
  of_wf _
theorem handover (c : Nat) : Statement (.handover c) :=
  of_wf _
theorem healthPoll (unanswered : (List Nat)) : Statement (.healthPoll unanswered) :=
  of_wf _
theorem softRetirement (u : Nat) : Statement (.softRetirement u) :=
  of_wf _
theorem vaultCopyEnd (p : Nat) : Statement (.vaultCopyEnd p) :=
  of_wf _
theorem vigilTest (run : VigilRun) : Statement (.vigilTest run) :=
  of_wf _
theorem vigilRequest (value : Nat) : Statement (.vigilRequest value) :=
  of_wf _
theorem vigilCancel : Statement (.vigilCancel) :=
  of_wf _
theorem vigilStale (u : Nat) : Statement (.vigilStale u) :=
  of_wf _
theorem startupVigilPass (runs : (List VigilRun)) : Statement (.startupVigilPass runs) :=
  of_wf _
theorem monitorSample (temps : (List Int)) (volts : (List Nat)) (procs : (List Nat)) : Statement (.monitorSample temps volts procs) :=
  of_wf _
theorem powerSample (watts : Nat) : Statement (.powerSample watts) :=
  of_wf _
theorem pwrbrkAssert : Statement (.pwrbrkAssert) :=
  of_wf _
theorem pwrbrkRelease : Statement (.pwrbrkRelease) :=
  of_wf _
theorem powerLimitSet (watts : Nat) : Statement (.powerLimitSet watts) :=
  of_wf _
theorem railUndervoltage (rail : Rail) : Statement (.railUndervoltage rail) :=
  of_wf _
theorem vddAuxOn (sbMode : Bool) (sbAddr : Nat) (trefSel : Bool) : Statement (.vddAuxOn sbMode sbAddr trefSel) :=
  of_wf _
theorem hotReset : Statement (.hotReset) :=
  of_wf _
theorem hostReadError (pasid : (Option Nat)) (addr : Nat) (len : Nat) : Statement (.hostReadError pasid addr len) :=
  of_wf _
theorem deviceReset : Statement (.deviceReset) :=
  of_wf _
theorem devReset (key : Nat) : Statement (.devReset key) :=
  of_wf _
theorem romInitDone : Statement (.romInitDone) :=
  of_wf _
theorem bootGo (len : Nat) : Statement (.bootGo len) :=
  of_wf _
theorem verifyEnd : Statement (.verifyEnd) :=
  of_wf _
theorem svnCommit : Statement (.svnCommit) :=
  of_wf _
theorem enrol : Statement (.enrol) :=
  of_wf _
theorem enrolEnd : Statement (.enrolEnd) :=
  of_wf _
theorem spdmMessage (sideband : Bool) (request : SpdmRequest) : Statement (.spdmMessage sideband request) :=
  of_wf _
theorem measurements (sideband : Bool) (indices : (List Nat)) : Statement (.measurements sideband indices) :=
  of_wf _
theorem ideKmKey (stream : Nat) (key : Nat) : Statement (.ideKmKey stream key) :=
  of_wf _
theorem mctpMessage (request : MctpRequest) : Statement (.mctpMessage request) :=
  of_wf _
theorem jtagInstructionLoad (instr : JtagInstr) : Statement (.jtagInstructionLoad instr) :=
  of_wf _
theorem msixUnmask (fn : Nat) (vector : Nat) : Statement (.msixUnmask fn vector) :=
  of_wf _
theorem pllRelock : Statement (.pllRelock) :=
  of_wf _
theorem fhLinkDown (i : Nat) : Statement (.fhLinkDown i) :=
  of_wf _
theorem fhLinkUp (i : Nat) : Statement (.fhLinkUp i) :=
  of_wf _
theorem railRestore : Statement (.railRestore) :=
  of_wf _
theorem vddAuxOff : Statement (.vddAuxOff) :=
  of_wf _
theorem perstNDeassert : Statement (.perstNDeassert) :=
  of_wf _
theorem thermtripRelease : Statement (.thermtripRelease) :=
  of_wf _
theorem powerStateChange (fn : Nat) (d3 : Bool) : Statement (.powerStateChange fn d3) :=
  of_wf _
theorem pcieLinkUp : Statement (.pcieLinkUp) :=
  of_wf _
theorem translationCompletion (s : Nat) (page : Nat) (result : AtsResult) : Statement (.translationCompletion s page result) :=
  of_wf _
theorem mirrorAck (c : Nat) : Statement (.mirrorAck c) :=
  of_wf _
theorem handoverReceive (c : Nat) (frame : Nat) (cells : (List Nat)) : Statement (.handoverReceive c frame cells) :=
  of_wf _
theorem handoverReplyReceive (c : Nat) (cell : Nat) (accepted : Bool) : Statement (.handoverReplyReceive c cell accepted) :=
  of_wf _

end Sys2Proof.Laws.OperandCheck
end

