-- ==== Sys2Proof/Laws/Records.lean ====
section
/-!
SUPPORT. What a write of a field, of a core, of a context or of a slice leaves in each of them.
-/
namespace Sys2Proof.Machine

/-- A write of a field leaves every other field and register. -/
theorem fldKept_setFld (s : State) (f : Fld) (i x : Nat) : fldKept s (s.setFld f i x) f i :=
  ⟨fun _ _ h => State.reg_setFld_other _ _ _ _ _ _ h, fun _ h => State.fld_setFld_other _ _ _ _ _ _ (Or.inl h)⟩

theorem regKept_setFld (s : State) (f : Fld) (i x : Nat) : regKept s (s.setFld f i x) f.reg i :=
  (fldKept_setFld s f i x).1

theorem regKept_setReg (s : State) (r : Reg) (i : Nat) (v : RegVal) : regKept s (s.setReg r i v) r i := by
  intro q j h
  rw [State.reg_setReg, if_neg]
  rintro ⟨a, b⟩
  rcases h with h | h <;> contradiction

theorem regKept_trans {s t u : State} {r : Reg} {i : Nat} (h : regKept s t r i) (k : regKept t u r i) :
    regKept s u r i := fun q j hq => (k q j hq).trans (h q j hq)

/-- The register file decides the registers. -/
theorem State.reg_congr {s t : State} (h : s.regs = t.regs) (r : Reg) (i : Nat) : s.reg r i = t.reg r i := by
  simp only [State.reg, h]

theorem State.fld_congr {s t : State} (h : s.regs = t.regs) (f : Fld) (i : Nat) : s.fld f i = t.fld f i := by
  simp only [State.fld, State.reg_congr h]

@[simp] theorem State.core_setCore (s : State) (p q : Nat) (c : Core) :
    (s.setCore p c).core q = if q = p then c else s.core q := by
  simp only [State.core, State.setCore, look_put]

@[simp] theorem State.slice_setSlice (s : State) (i j : Nat) (r : SliceRec) :
    (s.setSlice i r).slice j = if j = i then r else s.slice j := by
  simp only [State.slice, State.setSlice, look_put]

@[simp] theorem State.lampSlice_setLamp (s : State) (i j : Nat) (r : LampSlice) :
    (s.setLamp i r).lampSlice j = if j = i then r else s.lampSlice j := by
  simp only [State.lampSlice, State.setLamp, look_put]

/-- A context is changed in its slot and in no other. -/
theorem State.ctx_setCtx (s : State) (p slot q sl : Nat) (x : Option Ctx) :
    (s.setCtx p slot x).ctx q sl = if q = p ∧ sl = slot then x else s.ctx q sl := by
  simp only [State.ctx, State.setCtx, State.core_setCore]
  by_cases h : q = p
  · subst h; simp [look_put]
  · simp [h]

theorem State.core_setCtx (s : State) (p slot q : Nat) (x : Option Ctx) :
    (s.setCtx p slot x).core q = if q = p then { s.core p with ctx := put none (s.core p).ctx slot x } else s.core q := by
  simp only [State.setCtx, State.core_setCore]

@[simp] theorem State.xq_setXq (s : State) (c q d j : Nat) (r : XqRec) :
    (s.setXq c q r).xq d j = if d * 16 + j = c * 16 + q then r else s.xq d j := by
  simp only [State.xq, State.setXq, look_put]

@[simp] theorem State.onHealth_regs (s : State) (f : HealthBlk → HealthBlk) : (s.onHealth f).regs = s.regs := rfl
@[simp] theorem State.onHealth_cores (s : State) (f : HealthBlk → HealthBlk) : (s.onHealth f).cores = s.cores := rfl
@[simp] theorem State.onHealth_mem (s : State) (f : HealthBlk → HealthBlk) : (s.onHealth f).mem = s.mem := rfl
@[simp] theorem State.onHealth_health (s : State) (f : HealthBlk → HealthBlk) : (s.onHealth f).health = f s.health := rfl
@[simp] theorem State.onTwin_regs (s : State) (f : TwinBlk → TwinBlk) : (s.onTwin f).regs = s.regs := rfl
@[simp] theorem State.onTwin_cells (s : State) (f : TwinBlk → TwinBlk) : (s.onTwin f).cells = s.cells := rfl
@[simp] theorem State.onTwin_twin (s : State) (f : TwinBlk → TwinBlk) : (s.onTwin f).clink.twin = f s.clink.twin := rfl

/-- A change of a core that keeps its contexts changes none. -/
theorem State.ctx_setCore (s : State) (p q sl : Nat) (c : Core) (h : c.ctx = (s.core p).ctx) :
    (s.setCore p c).ctx q sl = s.ctx q sl := by
  simp only [State.ctx, State.core_setCore]
  by_cases e : q = p
  · subst e; simp [h]
  · simp [e]

end Sys2Proof.Machine
end

