-- ==== Sys2Proof/Laws/State.lean ====
section
/-!
SUPPORT. What each plain update of the state leaves unchanged, field by field.
-/
namespace Sys2Proof.Machine

/-! ### setReg -/

@[simp] theorem State.setReg_pending (s : State) (r : Reg) (i : Nat) (v : RegVal) : (s.setReg r i v).pending = s.pending := rfl
@[simp] theorem State.setReg_time (s : State) (r : Reg) (i : Nat) (v : RegVal) : (s.setReg r i v).time = s.time := rfl
@[simp] theorem State.setReg_host (s : State) (r : Reg) (i : Nat) (v : RegVal) : (s.setReg r i v).host = s.host := rfl
@[simp] theorem State.setReg_mem (s : State) (r : Reg) (i : Nat) (v : RegVal) : (s.setReg r i v).mem = s.mem := rfl
@[simp] theorem State.setReg_poison (s : State) (r : Reg) (i : Nat) (v : RegVal) : (s.setReg r i v).poison = s.poison := rfl
@[simp] theorem State.setReg_cores (s : State) (r : Reg) (i : Nat) (v : RegVal) : (s.setReg r i v).cores = s.cores := rfl
@[simp] theorem State.setReg_signals (s : State) (r : Reg) (i : Nat) (v : RegVal) : (s.setReg r i v).signals = s.signals := rfl
@[simp] theorem State.setReg_adds (s : State) (r : Reg) (i : Nat) (v : RegVal) : (s.setReg r i v).adds = s.adds := rfl
@[simp] theorem State.setReg_refused (s : State) (r : Reg) (i : Nat) (v : RegVal) : (s.setReg r i v).refused = s.refused := rfl
@[simp] theorem State.setReg_ordered (s : State) (r : Reg) (i : Nat) (v : RegVal) : (s.setReg r i v).ordered = s.ordered := rfl
@[simp] theorem State.setReg_cut (s : State) (r : Reg) (i : Nat) (v : RegVal) : (s.setReg r i v).cut = s.cut := rfl
@[simp] theorem State.setReg_slices (s : State) (r : Reg) (i : Nat) (v : RegVal) : (s.setReg r i v).slices = s.slices := rfl
@[simp] theorem State.setReg_lamp (s : State) (r : Reg) (i : Nat) (v : RegVal) : (s.setReg r i v).lamp = s.lamp := rfl
@[simp] theorem State.setReg_seqs (s : State) (r : Reg) (i : Nat) (v : RegVal) : (s.setReg r i v).seqs = s.seqs := rfl
@[simp] theorem State.setReg_corrected (s : State) (r : Reg) (i : Nat) (v : RegVal) : (s.setReg r i v).corrected = s.corrected := rfl
@[simp] theorem State.setReg_jasper (s : State) (r : Reg) (i : Nat) (v : RegVal) : (s.setReg r i v).jasper = s.jasper := rfl
@[simp] theorem State.setReg_cells (s : State) (r : Reg) (i : Nat) (v : RegVal) : (s.setReg r i v).cells = s.cells := rfl
@[simp] theorem State.setReg_health (s : State) (r : Reg) (i : Nat) (v : RegVal) : (s.setReg r i v).health = s.health := rfl
@[simp] theorem State.setReg_fh (s : State) (r : Reg) (i : Nat) (v : RegVal) : (s.setReg r i v).fh = s.fh := rfl
@[simp] theorem State.setReg_clink (s : State) (r : Reg) (i : Nat) (v : RegVal) : (s.setReg r i v).clink = s.clink := rfl
@[simp] theorem State.setReg_power (s : State) (r : Reg) (i : Nat) (v : RegVal) : (s.setReg r i v).power = s.power := rfl
@[simp] theorem State.setReg_boot (s : State) (r : Reg) (i : Nat) (v : RegVal) : (s.setReg r i v).boot = s.boot := rfl
@[simp] theorem State.setReg_pins (s : State) (r : Reg) (i : Nat) (v : RegVal) : (s.setReg r i v).pins = s.pins := rfl
@[simp] theorem State.setReg_lastRead (s : State) (r : Reg) (i : Nat) (v : RegVal) : (s.setReg r i v).lastRead = s.lastRead := rfl
@[simp] theorem State.setReg_lastPoison (s : State) (r : Reg) (i : Nat) (v : RegVal) : (s.setReg r i v).lastPoison = s.lastPoison := rfl
@[simp] theorem State.setReg_freeCtr (s : State) (r : Reg) (i : Nat) (v : RegVal) : (s.setReg r i v).freeCtr = s.freeCtr := rfl

/-! ### setFld -/

@[simp] theorem State.setFld_pending (s : State) (f : Fld) (i x : Nat) : (s.setFld f i x).pending = s.pending := rfl
@[simp] theorem State.setFld_time (s : State) (f : Fld) (i x : Nat) : (s.setFld f i x).time = s.time := rfl
@[simp] theorem State.setFld_host (s : State) (f : Fld) (i x : Nat) : (s.setFld f i x).host = s.host := rfl
@[simp] theorem State.setFld_mem (s : State) (f : Fld) (i x : Nat) : (s.setFld f i x).mem = s.mem := rfl
@[simp] theorem State.setFld_poison (s : State) (f : Fld) (i x : Nat) : (s.setFld f i x).poison = s.poison := rfl
@[simp] theorem State.setFld_cores (s : State) (f : Fld) (i x : Nat) : (s.setFld f i x).cores = s.cores := rfl
@[simp] theorem State.setFld_signals (s : State) (f : Fld) (i x : Nat) : (s.setFld f i x).signals = s.signals := rfl
@[simp] theorem State.setFld_adds (s : State) (f : Fld) (i x : Nat) : (s.setFld f i x).adds = s.adds := rfl
@[simp] theorem State.setFld_refused (s : State) (f : Fld) (i x : Nat) : (s.setFld f i x).refused = s.refused := rfl
@[simp] theorem State.setFld_ordered (s : State) (f : Fld) (i x : Nat) : (s.setFld f i x).ordered = s.ordered := rfl
@[simp] theorem State.setFld_cut (s : State) (f : Fld) (i x : Nat) : (s.setFld f i x).cut = s.cut := rfl
@[simp] theorem State.setFld_slices (s : State) (f : Fld) (i x : Nat) : (s.setFld f i x).slices = s.slices := rfl
@[simp] theorem State.setFld_lamp (s : State) (f : Fld) (i x : Nat) : (s.setFld f i x).lamp = s.lamp := rfl
@[simp] theorem State.setFld_seqs (s : State) (f : Fld) (i x : Nat) : (s.setFld f i x).seqs = s.seqs := rfl
@[simp] theorem State.setFld_corrected (s : State) (f : Fld) (i x : Nat) : (s.setFld f i x).corrected = s.corrected := rfl
@[simp] theorem State.setFld_jasper (s : State) (f : Fld) (i x : Nat) : (s.setFld f i x).jasper = s.jasper := rfl
@[simp] theorem State.setFld_cells (s : State) (f : Fld) (i x : Nat) : (s.setFld f i x).cells = s.cells := rfl
@[simp] theorem State.setFld_health (s : State) (f : Fld) (i x : Nat) : (s.setFld f i x).health = s.health := rfl
@[simp] theorem State.setFld_fh (s : State) (f : Fld) (i x : Nat) : (s.setFld f i x).fh = s.fh := rfl
@[simp] theorem State.setFld_clink (s : State) (f : Fld) (i x : Nat) : (s.setFld f i x).clink = s.clink := rfl
@[simp] theorem State.setFld_power (s : State) (f : Fld) (i x : Nat) : (s.setFld f i x).power = s.power := rfl
@[simp] theorem State.setFld_boot (s : State) (f : Fld) (i x : Nat) : (s.setFld f i x).boot = s.boot := rfl
@[simp] theorem State.setFld_pins (s : State) (f : Fld) (i x : Nat) : (s.setFld f i x).pins = s.pins := rfl
@[simp] theorem State.setFld_lastRead (s : State) (f : Fld) (i x : Nat) : (s.setFld f i x).lastRead = s.lastRead := rfl
@[simp] theorem State.setFld_lastPoison (s : State) (f : Fld) (i x : Nat) : (s.setFld f i x).lastPoison = s.lastPoison := rfl
@[simp] theorem State.setFld_freeCtr (s : State) (f : Fld) (i x : Nat) : (s.setFld f i x).freeCtr = s.freeCtr := rfl

/-! ### count -/

@[simp] theorem State.count_pending (s : State) (f : Fld) (i n : Nat) : (s.count f i n).pending = s.pending := rfl
@[simp] theorem State.count_time (s : State) (f : Fld) (i n : Nat) : (s.count f i n).time = s.time := rfl
@[simp] theorem State.count_host (s : State) (f : Fld) (i n : Nat) : (s.count f i n).host = s.host := rfl
@[simp] theorem State.count_mem (s : State) (f : Fld) (i n : Nat) : (s.count f i n).mem = s.mem := rfl
@[simp] theorem State.count_poison (s : State) (f : Fld) (i n : Nat) : (s.count f i n).poison = s.poison := rfl
@[simp] theorem State.count_cores (s : State) (f : Fld) (i n : Nat) : (s.count f i n).cores = s.cores := rfl
@[simp] theorem State.count_signals (s : State) (f : Fld) (i n : Nat) : (s.count f i n).signals = s.signals := rfl
@[simp] theorem State.count_adds (s : State) (f : Fld) (i n : Nat) : (s.count f i n).adds = s.adds := rfl
@[simp] theorem State.count_refused (s : State) (f : Fld) (i n : Nat) : (s.count f i n).refused = s.refused := rfl
@[simp] theorem State.count_ordered (s : State) (f : Fld) (i n : Nat) : (s.count f i n).ordered = s.ordered := rfl
@[simp] theorem State.count_cut (s : State) (f : Fld) (i n : Nat) : (s.count f i n).cut = s.cut := rfl
@[simp] theorem State.count_slices (s : State) (f : Fld) (i n : Nat) : (s.count f i n).slices = s.slices := rfl
@[simp] theorem State.count_lamp (s : State) (f : Fld) (i n : Nat) : (s.count f i n).lamp = s.lamp := rfl
@[simp] theorem State.count_seqs (s : State) (f : Fld) (i n : Nat) : (s.count f i n).seqs = s.seqs := rfl
@[simp] theorem State.count_corrected (s : State) (f : Fld) (i n : Nat) : (s.count f i n).corrected = s.corrected := rfl
@[simp] theorem State.count_jasper (s : State) (f : Fld) (i n : Nat) : (s.count f i n).jasper = s.jasper := rfl
@[simp] theorem State.count_cells (s : State) (f : Fld) (i n : Nat) : (s.count f i n).cells = s.cells := rfl
@[simp] theorem State.count_health (s : State) (f : Fld) (i n : Nat) : (s.count f i n).health = s.health := rfl
@[simp] theorem State.count_fh (s : State) (f : Fld) (i n : Nat) : (s.count f i n).fh = s.fh := rfl
@[simp] theorem State.count_clink (s : State) (f : Fld) (i n : Nat) : (s.count f i n).clink = s.clink := rfl
@[simp] theorem State.count_power (s : State) (f : Fld) (i n : Nat) : (s.count f i n).power = s.power := rfl
@[simp] theorem State.count_boot (s : State) (f : Fld) (i n : Nat) : (s.count f i n).boot = s.boot := rfl
@[simp] theorem State.count_pins (s : State) (f : Fld) (i n : Nat) : (s.count f i n).pins = s.pins := rfl
@[simp] theorem State.count_lastRead (s : State) (f : Fld) (i n : Nat) : (s.count f i n).lastRead = s.lastRead := rfl
@[simp] theorem State.count_lastPoison (s : State) (f : Fld) (i n : Nat) : (s.count f i n).lastPoison = s.lastPoison := rfl
@[simp] theorem State.count_freeCtr (s : State) (f : Fld) (i n : Nat) : (s.count f i n).freeCtr = s.freeCtr := rfl

/-! ### countWrap -/

@[simp] theorem State.countWrap_pending (s : State) (f : Fld) (i n : Nat) : (s.countWrap f i n).pending = s.pending := rfl
@[simp] theorem State.countWrap_time (s : State) (f : Fld) (i n : Nat) : (s.countWrap f i n).time = s.time := rfl
@[simp] theorem State.countWrap_host (s : State) (f : Fld) (i n : Nat) : (s.countWrap f i n).host = s.host := rfl
@[simp] theorem State.countWrap_mem (s : State) (f : Fld) (i n : Nat) : (s.countWrap f i n).mem = s.mem := rfl
@[simp] theorem State.countWrap_poison (s : State) (f : Fld) (i n : Nat) : (s.countWrap f i n).poison = s.poison := rfl
@[simp] theorem State.countWrap_cores (s : State) (f : Fld) (i n : Nat) : (s.countWrap f i n).cores = s.cores := rfl
@[simp] theorem State.countWrap_signals (s : State) (f : Fld) (i n : Nat) : (s.countWrap f i n).signals = s.signals := rfl
@[simp] theorem State.countWrap_adds (s : State) (f : Fld) (i n : Nat) : (s.countWrap f i n).adds = s.adds := rfl
@[simp] theorem State.countWrap_refused (s : State) (f : Fld) (i n : Nat) : (s.countWrap f i n).refused = s.refused := rfl
@[simp] theorem State.countWrap_ordered (s : State) (f : Fld) (i n : Nat) : (s.countWrap f i n).ordered = s.ordered := rfl
@[simp] theorem State.countWrap_cut (s : State) (f : Fld) (i n : Nat) : (s.countWrap f i n).cut = s.cut := rfl
@[simp] theorem State.countWrap_slices (s : State) (f : Fld) (i n : Nat) : (s.countWrap f i n).slices = s.slices := rfl
@[simp] theorem State.countWrap_lamp (s : State) (f : Fld) (i n : Nat) : (s.countWrap f i n).lamp = s.lamp := rfl
@[simp] theorem State.countWrap_seqs (s : State) (f : Fld) (i n : Nat) : (s.countWrap f i n).seqs = s.seqs := rfl
@[simp] theorem State.countWrap_corrected (s : State) (f : Fld) (i n : Nat) : (s.countWrap f i n).corrected = s.corrected := rfl
@[simp] theorem State.countWrap_jasper (s : State) (f : Fld) (i n : Nat) : (s.countWrap f i n).jasper = s.jasper := rfl
@[simp] theorem State.countWrap_cells (s : State) (f : Fld) (i n : Nat) : (s.countWrap f i n).cells = s.cells := rfl
@[simp] theorem State.countWrap_health (s : State) (f : Fld) (i n : Nat) : (s.countWrap f i n).health = s.health := rfl
@[simp] theorem State.countWrap_fh (s : State) (f : Fld) (i n : Nat) : (s.countWrap f i n).fh = s.fh := rfl
@[simp] theorem State.countWrap_clink (s : State) (f : Fld) (i n : Nat) : (s.countWrap f i n).clink = s.clink := rfl
@[simp] theorem State.countWrap_power (s : State) (f : Fld) (i n : Nat) : (s.countWrap f i n).power = s.power := rfl
@[simp] theorem State.countWrap_boot (s : State) (f : Fld) (i n : Nat) : (s.countWrap f i n).boot = s.boot := rfl
@[simp] theorem State.countWrap_pins (s : State) (f : Fld) (i n : Nat) : (s.countWrap f i n).pins = s.pins := rfl
@[simp] theorem State.countWrap_lastRead (s : State) (f : Fld) (i n : Nat) : (s.countWrap f i n).lastRead = s.lastRead := rfl
@[simp] theorem State.countWrap_lastPoison (s : State) (f : Fld) (i n : Nat) : (s.countWrap f i n).lastPoison = s.lastPoison := rfl
@[simp] theorem State.countWrap_freeCtr (s : State) (f : Fld) (i n : Nat) : (s.countWrap f i n).freeCtr = s.freeCtr := rfl

/-! ### lower -/

@[simp] theorem State.lower_pending (s : State) (f : Fld) (i n : Nat) : (s.lower f i n).pending = s.pending := rfl
@[simp] theorem State.lower_time (s : State) (f : Fld) (i n : Nat) : (s.lower f i n).time = s.time := rfl
@[simp] theorem State.lower_host (s : State) (f : Fld) (i n : Nat) : (s.lower f i n).host = s.host := rfl
@[simp] theorem State.lower_mem (s : State) (f : Fld) (i n : Nat) : (s.lower f i n).mem = s.mem := rfl
@[simp] theorem State.lower_poison (s : State) (f : Fld) (i n : Nat) : (s.lower f i n).poison = s.poison := rfl
@[simp] theorem State.lower_cores (s : State) (f : Fld) (i n : Nat) : (s.lower f i n).cores = s.cores := rfl
@[simp] theorem State.lower_signals (s : State) (f : Fld) (i n : Nat) : (s.lower f i n).signals = s.signals := rfl
@[simp] theorem State.lower_adds (s : State) (f : Fld) (i n : Nat) : (s.lower f i n).adds = s.adds := rfl
@[simp] theorem State.lower_refused (s : State) (f : Fld) (i n : Nat) : (s.lower f i n).refused = s.refused := rfl
@[simp] theorem State.lower_ordered (s : State) (f : Fld) (i n : Nat) : (s.lower f i n).ordered = s.ordered := rfl
@[simp] theorem State.lower_cut (s : State) (f : Fld) (i n : Nat) : (s.lower f i n).cut = s.cut := rfl
@[simp] theorem State.lower_slices (s : State) (f : Fld) (i n : Nat) : (s.lower f i n).slices = s.slices := rfl
@[simp] theorem State.lower_lamp (s : State) (f : Fld) (i n : Nat) : (s.lower f i n).lamp = s.lamp := rfl
@[simp] theorem State.lower_seqs (s : State) (f : Fld) (i n : Nat) : (s.lower f i n).seqs = s.seqs := rfl
@[simp] theorem State.lower_corrected (s : State) (f : Fld) (i n : Nat) : (s.lower f i n).corrected = s.corrected := rfl
@[simp] theorem State.lower_jasper (s : State) (f : Fld) (i n : Nat) : (s.lower f i n).jasper = s.jasper := rfl
@[simp] theorem State.lower_cells (s : State) (f : Fld) (i n : Nat) : (s.lower f i n).cells = s.cells := rfl
@[simp] theorem State.lower_health (s : State) (f : Fld) (i n : Nat) : (s.lower f i n).health = s.health := rfl
@[simp] theorem State.lower_fh (s : State) (f : Fld) (i n : Nat) : (s.lower f i n).fh = s.fh := rfl
@[simp] theorem State.lower_clink (s : State) (f : Fld) (i n : Nat) : (s.lower f i n).clink = s.clink := rfl
@[simp] theorem State.lower_power (s : State) (f : Fld) (i n : Nat) : (s.lower f i n).power = s.power := rfl
@[simp] theorem State.lower_boot (s : State) (f : Fld) (i n : Nat) : (s.lower f i n).boot = s.boot := rfl
@[simp] theorem State.lower_pins (s : State) (f : Fld) (i n : Nat) : (s.lower f i n).pins = s.pins := rfl
@[simp] theorem State.lower_lastRead (s : State) (f : Fld) (i n : Nat) : (s.lower f i n).lastRead = s.lastRead := rfl
@[simp] theorem State.lower_lastPoison (s : State) (f : Fld) (i n : Nat) : (s.lower f i n).lastPoison = s.lastPoison := rfl
@[simp] theorem State.lower_freeCtr (s : State) (f : Fld) (i n : Nat) : (s.lower f i n).freeCtr = s.freeCtr := rfl

/-! ### badAccess -/

@[simp] theorem State.badAccess_pending (s : State) (b o : Nat) : (s.badAccess b o).pending = s.pending := rfl
@[simp] theorem State.badAccess_time (s : State) (b o : Nat) : (s.badAccess b o).time = s.time := rfl
@[simp] theorem State.badAccess_host (s : State) (b o : Nat) : (s.badAccess b o).host = s.host := rfl
@[simp] theorem State.badAccess_mem (s : State) (b o : Nat) : (s.badAccess b o).mem = s.mem := rfl
@[simp] theorem State.badAccess_poison (s : State) (b o : Nat) : (s.badAccess b o).poison = s.poison := rfl
@[simp] theorem State.badAccess_cores (s : State) (b o : Nat) : (s.badAccess b o).cores = s.cores := rfl
@[simp] theorem State.badAccess_signals (s : State) (b o : Nat) : (s.badAccess b o).signals = s.signals := rfl
@[simp] theorem State.badAccess_adds (s : State) (b o : Nat) : (s.badAccess b o).adds = s.adds := rfl
@[simp] theorem State.badAccess_refused (s : State) (b o : Nat) : (s.badAccess b o).refused = s.refused := rfl
@[simp] theorem State.badAccess_ordered (s : State) (b o : Nat) : (s.badAccess b o).ordered = s.ordered := rfl
@[simp] theorem State.badAccess_cut (s : State) (b o : Nat) : (s.badAccess b o).cut = s.cut := rfl
@[simp] theorem State.badAccess_slices (s : State) (b o : Nat) : (s.badAccess b o).slices = s.slices := rfl
@[simp] theorem State.badAccess_lamp (s : State) (b o : Nat) : (s.badAccess b o).lamp = s.lamp := rfl
@[simp] theorem State.badAccess_seqs (s : State) (b o : Nat) : (s.badAccess b o).seqs = s.seqs := rfl
@[simp] theorem State.badAccess_corrected (s : State) (b o : Nat) : (s.badAccess b o).corrected = s.corrected := rfl
@[simp] theorem State.badAccess_jasper (s : State) (b o : Nat) : (s.badAccess b o).jasper = s.jasper := rfl
@[simp] theorem State.badAccess_cells (s : State) (b o : Nat) : (s.badAccess b o).cells = s.cells := rfl
@[simp] theorem State.badAccess_health (s : State) (b o : Nat) : (s.badAccess b o).health = s.health := rfl
@[simp] theorem State.badAccess_fh (s : State) (b o : Nat) : (s.badAccess b o).fh = s.fh := rfl
@[simp] theorem State.badAccess_clink (s : State) (b o : Nat) : (s.badAccess b o).clink = s.clink := rfl
@[simp] theorem State.badAccess_power (s : State) (b o : Nat) : (s.badAccess b o).power = s.power := rfl
@[simp] theorem State.badAccess_boot (s : State) (b o : Nat) : (s.badAccess b o).boot = s.boot := rfl
@[simp] theorem State.badAccess_pins (s : State) (b o : Nat) : (s.badAccess b o).pins = s.pins := rfl
@[simp] theorem State.badAccess_lastRead (s : State) (b o : Nat) : (s.badAccess b o).lastRead = s.lastRead := rfl
@[simp] theorem State.badAccess_lastPoison (s : State) (b o : Nat) : (s.badAccess b o).lastPoison = s.lastPoison := rfl
@[simp] theorem State.badAccess_freeCtr (s : State) (b o : Nat) : (s.badAccess b o).freeCtr = s.freeCtr := rfl

/-! ### setByte -/

@[simp] theorem State.setByte_pending (s : State) (a : Nat) (b : Byte) : (s.setByte a b).pending = s.pending := rfl
@[simp] theorem State.setByte_regs (s : State) (a : Nat) (b : Byte) : (s.setByte a b).regs = s.regs := rfl
@[simp] theorem State.setByte_time (s : State) (a : Nat) (b : Byte) : (s.setByte a b).time = s.time := rfl
@[simp] theorem State.setByte_host (s : State) (a : Nat) (b : Byte) : (s.setByte a b).host = s.host := rfl
@[simp] theorem State.setByte_poison (s : State) (a : Nat) (b : Byte) : (s.setByte a b).poison = s.poison := rfl
@[simp] theorem State.setByte_cores (s : State) (a : Nat) (b : Byte) : (s.setByte a b).cores = s.cores := rfl
@[simp] theorem State.setByte_signals (s : State) (a : Nat) (b : Byte) : (s.setByte a b).signals = s.signals := rfl
@[simp] theorem State.setByte_adds (s : State) (a : Nat) (b : Byte) : (s.setByte a b).adds = s.adds := rfl
@[simp] theorem State.setByte_refused (s : State) (a : Nat) (b : Byte) : (s.setByte a b).refused = s.refused := rfl
@[simp] theorem State.setByte_ordered (s : State) (a : Nat) (b : Byte) : (s.setByte a b).ordered = s.ordered := rfl
@[simp] theorem State.setByte_cut (s : State) (a : Nat) (b : Byte) : (s.setByte a b).cut = s.cut := rfl
@[simp] theorem State.setByte_slices (s : State) (a : Nat) (b : Byte) : (s.setByte a b).slices = s.slices := rfl
@[simp] theorem State.setByte_lamp (s : State) (a : Nat) (b : Byte) : (s.setByte a b).lamp = s.lamp := rfl
@[simp] theorem State.setByte_seqs (s : State) (a : Nat) (b : Byte) : (s.setByte a b).seqs = s.seqs := rfl
@[simp] theorem State.setByte_corrected (s : State) (a : Nat) (b : Byte) : (s.setByte a b).corrected = s.corrected := rfl
@[simp] theorem State.setByte_jasper (s : State) (a : Nat) (b : Byte) : (s.setByte a b).jasper = s.jasper := rfl
@[simp] theorem State.setByte_cells (s : State) (a : Nat) (b : Byte) : (s.setByte a b).cells = s.cells := rfl
@[simp] theorem State.setByte_health (s : State) (a : Nat) (b : Byte) : (s.setByte a b).health = s.health := rfl
@[simp] theorem State.setByte_fh (s : State) (a : Nat) (b : Byte) : (s.setByte a b).fh = s.fh := rfl
@[simp] theorem State.setByte_clink (s : State) (a : Nat) (b : Byte) : (s.setByte a b).clink = s.clink := rfl
@[simp] theorem State.setByte_power (s : State) (a : Nat) (b : Byte) : (s.setByte a b).power = s.power := rfl
@[simp] theorem State.setByte_boot (s : State) (a : Nat) (b : Byte) : (s.setByte a b).boot = s.boot := rfl
@[simp] theorem State.setByte_pins (s : State) (a : Nat) (b : Byte) : (s.setByte a b).pins = s.pins := rfl
@[simp] theorem State.setByte_lastRead (s : State) (a : Nat) (b : Byte) : (s.setByte a b).lastRead = s.lastRead := rfl
@[simp] theorem State.setByte_lastPoison (s : State) (a : Nat) (b : Byte) : (s.setByte a b).lastPoison = s.lastPoison := rfl
@[simp] theorem State.setByte_freeCtr (s : State) (a : Nat) (b : Byte) : (s.setByte a b).freeCtr = s.freeCtr := rfl

/-! ### setPoison -/

@[simp] theorem State.setPoison_pending (s : State) (a : Nat) (b : Bool) : (s.setPoison a b).pending = s.pending := rfl
@[simp] theorem State.setPoison_regs (s : State) (a : Nat) (b : Bool) : (s.setPoison a b).regs = s.regs := rfl
@[simp] theorem State.setPoison_time (s : State) (a : Nat) (b : Bool) : (s.setPoison a b).time = s.time := rfl
@[simp] theorem State.setPoison_host (s : State) (a : Nat) (b : Bool) : (s.setPoison a b).host = s.host := rfl
@[simp] theorem State.setPoison_mem (s : State) (a : Nat) (b : Bool) : (s.setPoison a b).mem = s.mem := rfl
@[simp] theorem State.setPoison_cores (s : State) (a : Nat) (b : Bool) : (s.setPoison a b).cores = s.cores := rfl
@[simp] theorem State.setPoison_signals (s : State) (a : Nat) (b : Bool) : (s.setPoison a b).signals = s.signals := rfl
@[simp] theorem State.setPoison_adds (s : State) (a : Nat) (b : Bool) : (s.setPoison a b).adds = s.adds := rfl
@[simp] theorem State.setPoison_refused (s : State) (a : Nat) (b : Bool) : (s.setPoison a b).refused = s.refused := rfl
@[simp] theorem State.setPoison_ordered (s : State) (a : Nat) (b : Bool) : (s.setPoison a b).ordered = s.ordered := rfl
@[simp] theorem State.setPoison_cut (s : State) (a : Nat) (b : Bool) : (s.setPoison a b).cut = s.cut := rfl
@[simp] theorem State.setPoison_slices (s : State) (a : Nat) (b : Bool) : (s.setPoison a b).slices = s.slices := rfl
@[simp] theorem State.setPoison_lamp (s : State) (a : Nat) (b : Bool) : (s.setPoison a b).lamp = s.lamp := rfl
@[simp] theorem State.setPoison_seqs (s : State) (a : Nat) (b : Bool) : (s.setPoison a b).seqs = s.seqs := rfl
@[simp] theorem State.setPoison_corrected (s : State) (a : Nat) (b : Bool) : (s.setPoison a b).corrected = s.corrected := rfl
@[simp] theorem State.setPoison_jasper (s : State) (a : Nat) (b : Bool) : (s.setPoison a b).jasper = s.jasper := rfl
@[simp] theorem State.setPoison_cells (s : State) (a : Nat) (b : Bool) : (s.setPoison a b).cells = s.cells := rfl
@[simp] theorem State.setPoison_health (s : State) (a : Nat) (b : Bool) : (s.setPoison a b).health = s.health := rfl
@[simp] theorem State.setPoison_fh (s : State) (a : Nat) (b : Bool) : (s.setPoison a b).fh = s.fh := rfl
@[simp] theorem State.setPoison_clink (s : State) (a : Nat) (b : Bool) : (s.setPoison a b).clink = s.clink := rfl
@[simp] theorem State.setPoison_power (s : State) (a : Nat) (b : Bool) : (s.setPoison a b).power = s.power := rfl
@[simp] theorem State.setPoison_boot (s : State) (a : Nat) (b : Bool) : (s.setPoison a b).boot = s.boot := rfl
@[simp] theorem State.setPoison_pins (s : State) (a : Nat) (b : Bool) : (s.setPoison a b).pins = s.pins := rfl
@[simp] theorem State.setPoison_lastRead (s : State) (a : Nat) (b : Bool) : (s.setPoison a b).lastRead = s.lastRead := rfl
@[simp] theorem State.setPoison_lastPoison (s : State) (a : Nat) (b : Bool) : (s.setPoison a b).lastPoison = s.lastPoison := rfl
@[simp] theorem State.setPoison_freeCtr (s : State) (a : Nat) (b : Bool) : (s.setPoison a b).freeCtr = s.freeCtr := rfl

/-! ### zeroRange -/

@[simp] theorem State.zeroRange_pending (s : State) (a n : Nat) : (s.zeroRange a n).pending = s.pending := rfl
@[simp] theorem State.zeroRange_regs (s : State) (a n : Nat) : (s.zeroRange a n).regs = s.regs := rfl
@[simp] theorem State.zeroRange_time (s : State) (a n : Nat) : (s.zeroRange a n).time = s.time := rfl
@[simp] theorem State.zeroRange_host (s : State) (a n : Nat) : (s.zeroRange a n).host = s.host := rfl
@[simp] theorem State.zeroRange_cores (s : State) (a n : Nat) : (s.zeroRange a n).cores = s.cores := rfl
@[simp] theorem State.zeroRange_signals (s : State) (a n : Nat) : (s.zeroRange a n).signals = s.signals := rfl
@[simp] theorem State.zeroRange_adds (s : State) (a n : Nat) : (s.zeroRange a n).adds = s.adds := rfl
@[simp] theorem State.zeroRange_refused (s : State) (a n : Nat) : (s.zeroRange a n).refused = s.refused := rfl
@[simp] theorem State.zeroRange_ordered (s : State) (a n : Nat) : (s.zeroRange a n).ordered = s.ordered := rfl
@[simp] theorem State.zeroRange_cut (s : State) (a n : Nat) : (s.zeroRange a n).cut = s.cut := rfl
@[simp] theorem State.zeroRange_slices (s : State) (a n : Nat) : (s.zeroRange a n).slices = s.slices := rfl
@[simp] theorem State.zeroRange_lamp (s : State) (a n : Nat) : (s.zeroRange a n).lamp = s.lamp := rfl
@[simp] theorem State.zeroRange_seqs (s : State) (a n : Nat) : (s.zeroRange a n).seqs = s.seqs := rfl
@[simp] theorem State.zeroRange_corrected (s : State) (a n : Nat) : (s.zeroRange a n).corrected = s.corrected := rfl
@[simp] theorem State.zeroRange_jasper (s : State) (a n : Nat) : (s.zeroRange a n).jasper = s.jasper := rfl
@[simp] theorem State.zeroRange_cells (s : State) (a n : Nat) : (s.zeroRange a n).cells = s.cells := rfl
@[simp] theorem State.zeroRange_health (s : State) (a n : Nat) : (s.zeroRange a n).health = s.health := rfl
@[simp] theorem State.zeroRange_fh (s : State) (a n : Nat) : (s.zeroRange a n).fh = s.fh := rfl
@[simp] theorem State.zeroRange_clink (s : State) (a n : Nat) : (s.zeroRange a n).clink = s.clink := rfl
@[simp] theorem State.zeroRange_power (s : State) (a n : Nat) : (s.zeroRange a n).power = s.power := rfl
@[simp] theorem State.zeroRange_boot (s : State) (a n : Nat) : (s.zeroRange a n).boot = s.boot := rfl
@[simp] theorem State.zeroRange_pins (s : State) (a n : Nat) : (s.zeroRange a n).pins = s.pins := rfl
@[simp] theorem State.zeroRange_lastRead (s : State) (a n : Nat) : (s.zeroRange a n).lastRead = s.lastRead := rfl
@[simp] theorem State.zeroRange_lastPoison (s : State) (a n : Nat) : (s.zeroRange a n).lastPoison = s.lastPoison := rfl
@[simp] theorem State.zeroRange_freeCtr (s : State) (a n : Nat) : (s.zeroRange a n).freeCtr = s.freeCtr := rfl

/-! ### setCore -/

@[simp] theorem State.setCore_pending (s : State) (p : Nat) (c : Core) : (s.setCore p c).pending = s.pending := rfl
@[simp] theorem State.setCore_regs (s : State) (p : Nat) (c : Core) : (s.setCore p c).regs = s.regs := rfl
@[simp] theorem State.setCore_time (s : State) (p : Nat) (c : Core) : (s.setCore p c).time = s.time := rfl
@[simp] theorem State.setCore_host (s : State) (p : Nat) (c : Core) : (s.setCore p c).host = s.host := rfl
@[simp] theorem State.setCore_mem (s : State) (p : Nat) (c : Core) : (s.setCore p c).mem = s.mem := rfl
@[simp] theorem State.setCore_poison (s : State) (p : Nat) (c : Core) : (s.setCore p c).poison = s.poison := rfl
@[simp] theorem State.setCore_signals (s : State) (p : Nat) (c : Core) : (s.setCore p c).signals = s.signals := rfl
@[simp] theorem State.setCore_adds (s : State) (p : Nat) (c : Core) : (s.setCore p c).adds = s.adds := rfl
@[simp] theorem State.setCore_refused (s : State) (p : Nat) (c : Core) : (s.setCore p c).refused = s.refused := rfl
@[simp] theorem State.setCore_ordered (s : State) (p : Nat) (c : Core) : (s.setCore p c).ordered = s.ordered := rfl
@[simp] theorem State.setCore_cut (s : State) (p : Nat) (c : Core) : (s.setCore p c).cut = s.cut := rfl
@[simp] theorem State.setCore_slices (s : State) (p : Nat) (c : Core) : (s.setCore p c).slices = s.slices := rfl
@[simp] theorem State.setCore_lamp (s : State) (p : Nat) (c : Core) : (s.setCore p c).lamp = s.lamp := rfl
@[simp] theorem State.setCore_seqs (s : State) (p : Nat) (c : Core) : (s.setCore p c).seqs = s.seqs := rfl
@[simp] theorem State.setCore_corrected (s : State) (p : Nat) (c : Core) : (s.setCore p c).corrected = s.corrected := rfl
@[simp] theorem State.setCore_jasper (s : State) (p : Nat) (c : Core) : (s.setCore p c).jasper = s.jasper := rfl
@[simp] theorem State.setCore_cells (s : State) (p : Nat) (c : Core) : (s.setCore p c).cells = s.cells := rfl
@[simp] theorem State.setCore_health (s : State) (p : Nat) (c : Core) : (s.setCore p c).health = s.health := rfl
@[simp] theorem State.setCore_fh (s : State) (p : Nat) (c : Core) : (s.setCore p c).fh = s.fh := rfl
@[simp] theorem State.setCore_clink (s : State) (p : Nat) (c : Core) : (s.setCore p c).clink = s.clink := rfl
@[simp] theorem State.setCore_power (s : State) (p : Nat) (c : Core) : (s.setCore p c).power = s.power := rfl
@[simp] theorem State.setCore_boot (s : State) (p : Nat) (c : Core) : (s.setCore p c).boot = s.boot := rfl
@[simp] theorem State.setCore_pins (s : State) (p : Nat) (c : Core) : (s.setCore p c).pins = s.pins := rfl
@[simp] theorem State.setCore_lastRead (s : State) (p : Nat) (c : Core) : (s.setCore p c).lastRead = s.lastRead := rfl
@[simp] theorem State.setCore_lastPoison (s : State) (p : Nat) (c : Core) : (s.setCore p c).lastPoison = s.lastPoison := rfl
@[simp] theorem State.setCore_freeCtr (s : State) (p : Nat) (c : Core) : (s.setCore p c).freeCtr = s.freeCtr := rfl

/-! ### setCtx -/

@[simp] theorem State.setCtx_pending (s : State) (p slot : Nat) (x : Option Ctx) : (s.setCtx p slot x).pending = s.pending := rfl
@[simp] theorem State.setCtx_regs (s : State) (p slot : Nat) (x : Option Ctx) : (s.setCtx p slot x).regs = s.regs := rfl
@[simp] theorem State.setCtx_time (s : State) (p slot : Nat) (x : Option Ctx) : (s.setCtx p slot x).time = s.time := rfl
@[simp] theorem State.setCtx_host (s : State) (p slot : Nat) (x : Option Ctx) : (s.setCtx p slot x).host = s.host := rfl
@[simp] theorem State.setCtx_mem (s : State) (p slot : Nat) (x : Option Ctx) : (s.setCtx p slot x).mem = s.mem := rfl
@[simp] theorem State.setCtx_poison (s : State) (p slot : Nat) (x : Option Ctx) : (s.setCtx p slot x).poison = s.poison := rfl
@[simp] theorem State.setCtx_signals (s : State) (p slot : Nat) (x : Option Ctx) : (s.setCtx p slot x).signals = s.signals := rfl
@[simp] theorem State.setCtx_adds (s : State) (p slot : Nat) (x : Option Ctx) : (s.setCtx p slot x).adds = s.adds := rfl
@[simp] theorem State.setCtx_refused (s : State) (p slot : Nat) (x : Option Ctx) : (s.setCtx p slot x).refused = s.refused := rfl
@[simp] theorem State.setCtx_ordered (s : State) (p slot : Nat) (x : Option Ctx) : (s.setCtx p slot x).ordered = s.ordered := rfl
@[simp] theorem State.setCtx_cut (s : State) (p slot : Nat) (x : Option Ctx) : (s.setCtx p slot x).cut = s.cut := rfl
@[simp] theorem State.setCtx_slices (s : State) (p slot : Nat) (x : Option Ctx) : (s.setCtx p slot x).slices = s.slices := rfl
@[simp] theorem State.setCtx_lamp (s : State) (p slot : Nat) (x : Option Ctx) : (s.setCtx p slot x).lamp = s.lamp := rfl
@[simp] theorem State.setCtx_seqs (s : State) (p slot : Nat) (x : Option Ctx) : (s.setCtx p slot x).seqs = s.seqs := rfl
@[simp] theorem State.setCtx_corrected (s : State) (p slot : Nat) (x : Option Ctx) : (s.setCtx p slot x).corrected = s.corrected := rfl
@[simp] theorem State.setCtx_jasper (s : State) (p slot : Nat) (x : Option Ctx) : (s.setCtx p slot x).jasper = s.jasper := rfl
@[simp] theorem State.setCtx_cells (s : State) (p slot : Nat) (x : Option Ctx) : (s.setCtx p slot x).cells = s.cells := rfl
@[simp] theorem State.setCtx_health (s : State) (p slot : Nat) (x : Option Ctx) : (s.setCtx p slot x).health = s.health := rfl
@[simp] theorem State.setCtx_fh (s : State) (p slot : Nat) (x : Option Ctx) : (s.setCtx p slot x).fh = s.fh := rfl
@[simp] theorem State.setCtx_clink (s : State) (p slot : Nat) (x : Option Ctx) : (s.setCtx p slot x).clink = s.clink := rfl
@[simp] theorem State.setCtx_power (s : State) (p slot : Nat) (x : Option Ctx) : (s.setCtx p slot x).power = s.power := rfl
@[simp] theorem State.setCtx_boot (s : State) (p slot : Nat) (x : Option Ctx) : (s.setCtx p slot x).boot = s.boot := rfl
@[simp] theorem State.setCtx_pins (s : State) (p slot : Nat) (x : Option Ctx) : (s.setCtx p slot x).pins = s.pins := rfl
@[simp] theorem State.setCtx_lastRead (s : State) (p slot : Nat) (x : Option Ctx) : (s.setCtx p slot x).lastRead = s.lastRead := rfl
@[simp] theorem State.setCtx_lastPoison (s : State) (p slot : Nat) (x : Option Ctx) : (s.setCtx p slot x).lastPoison = s.lastPoison := rfl
@[simp] theorem State.setCtx_freeCtr (s : State) (p slot : Nat) (x : Option Ctx) : (s.setCtx p slot x).freeCtr = s.freeCtr := rfl

/-! ### setSlice -/

@[simp] theorem State.setSlice_pending (s : State) (i : Nat) (r : SliceRec) : (s.setSlice i r).pending = s.pending := rfl
@[simp] theorem State.setSlice_regs (s : State) (i : Nat) (r : SliceRec) : (s.setSlice i r).regs = s.regs := rfl
@[simp] theorem State.setSlice_time (s : State) (i : Nat) (r : SliceRec) : (s.setSlice i r).time = s.time := rfl
@[simp] theorem State.setSlice_host (s : State) (i : Nat) (r : SliceRec) : (s.setSlice i r).host = s.host := rfl
@[simp] theorem State.setSlice_mem (s : State) (i : Nat) (r : SliceRec) : (s.setSlice i r).mem = s.mem := rfl
@[simp] theorem State.setSlice_poison (s : State) (i : Nat) (r : SliceRec) : (s.setSlice i r).poison = s.poison := rfl
@[simp] theorem State.setSlice_cores (s : State) (i : Nat) (r : SliceRec) : (s.setSlice i r).cores = s.cores := rfl
@[simp] theorem State.setSlice_signals (s : State) (i : Nat) (r : SliceRec) : (s.setSlice i r).signals = s.signals := rfl
@[simp] theorem State.setSlice_adds (s : State) (i : Nat) (r : SliceRec) : (s.setSlice i r).adds = s.adds := rfl
@[simp] theorem State.setSlice_refused (s : State) (i : Nat) (r : SliceRec) : (s.setSlice i r).refused = s.refused := rfl
@[simp] theorem State.setSlice_ordered (s : State) (i : Nat) (r : SliceRec) : (s.setSlice i r).ordered = s.ordered := rfl
@[simp] theorem State.setSlice_cut (s : State) (i : Nat) (r : SliceRec) : (s.setSlice i r).cut = s.cut := rfl
@[simp] theorem State.setSlice_lamp (s : State) (i : Nat) (r : SliceRec) : (s.setSlice i r).lamp = s.lamp := rfl
@[simp] theorem State.setSlice_seqs (s : State) (i : Nat) (r : SliceRec) : (s.setSlice i r).seqs = s.seqs := rfl
@[simp] theorem State.setSlice_corrected (s : State) (i : Nat) (r : SliceRec) : (s.setSlice i r).corrected = s.corrected := rfl
@[simp] theorem State.setSlice_jasper (s : State) (i : Nat) (r : SliceRec) : (s.setSlice i r).jasper = s.jasper := rfl
@[simp] theorem State.setSlice_cells (s : State) (i : Nat) (r : SliceRec) : (s.setSlice i r).cells = s.cells := rfl
@[simp] theorem State.setSlice_health (s : State) (i : Nat) (r : SliceRec) : (s.setSlice i r).health = s.health := rfl
@[simp] theorem State.setSlice_fh (s : State) (i : Nat) (r : SliceRec) : (s.setSlice i r).fh = s.fh := rfl
@[simp] theorem State.setSlice_clink (s : State) (i : Nat) (r : SliceRec) : (s.setSlice i r).clink = s.clink := rfl
@[simp] theorem State.setSlice_power (s : State) (i : Nat) (r : SliceRec) : (s.setSlice i r).power = s.power := rfl
@[simp] theorem State.setSlice_boot (s : State) (i : Nat) (r : SliceRec) : (s.setSlice i r).boot = s.boot := rfl
@[simp] theorem State.setSlice_pins (s : State) (i : Nat) (r : SliceRec) : (s.setSlice i r).pins = s.pins := rfl
@[simp] theorem State.setSlice_lastRead (s : State) (i : Nat) (r : SliceRec) : (s.setSlice i r).lastRead = s.lastRead := rfl
@[simp] theorem State.setSlice_lastPoison (s : State) (i : Nat) (r : SliceRec) : (s.setSlice i r).lastPoison = s.lastPoison := rfl
@[simp] theorem State.setSlice_freeCtr (s : State) (i : Nat) (r : SliceRec) : (s.setSlice i r).freeCtr = s.freeCtr := rfl

/-! ### setLamp -/

@[simp] theorem State.setLamp_pending (s : State) (i : Nat) (r : LampSlice) : (s.setLamp i r).pending = s.pending := rfl
@[simp] theorem State.setLamp_regs (s : State) (i : Nat) (r : LampSlice) : (s.setLamp i r).regs = s.regs := rfl
@[simp] theorem State.setLamp_time (s : State) (i : Nat) (r : LampSlice) : (s.setLamp i r).time = s.time := rfl
@[simp] theorem State.setLamp_host (s : State) (i : Nat) (r : LampSlice) : (s.setLamp i r).host = s.host := rfl
@[simp] theorem State.setLamp_mem (s : State) (i : Nat) (r : LampSlice) : (s.setLamp i r).mem = s.mem := rfl
@[simp] theorem State.setLamp_poison (s : State) (i : Nat) (r : LampSlice) : (s.setLamp i r).poison = s.poison := rfl
@[simp] theorem State.setLamp_cores (s : State) (i : Nat) (r : LampSlice) : (s.setLamp i r).cores = s.cores := rfl
@[simp] theorem State.setLamp_signals (s : State) (i : Nat) (r : LampSlice) : (s.setLamp i r).signals = s.signals := rfl
@[simp] theorem State.setLamp_adds (s : State) (i : Nat) (r : LampSlice) : (s.setLamp i r).adds = s.adds := rfl
@[simp] theorem State.setLamp_refused (s : State) (i : Nat) (r : LampSlice) : (s.setLamp i r).refused = s.refused := rfl
@[simp] theorem State.setLamp_ordered (s : State) (i : Nat) (r : LampSlice) : (s.setLamp i r).ordered = s.ordered := rfl
@[simp] theorem State.setLamp_cut (s : State) (i : Nat) (r : LampSlice) : (s.setLamp i r).cut = s.cut := rfl
@[simp] theorem State.setLamp_slices (s : State) (i : Nat) (r : LampSlice) : (s.setLamp i r).slices = s.slices := rfl
@[simp] theorem State.setLamp_seqs (s : State) (i : Nat) (r : LampSlice) : (s.setLamp i r).seqs = s.seqs := rfl
@[simp] theorem State.setLamp_corrected (s : State) (i : Nat) (r : LampSlice) : (s.setLamp i r).corrected = s.corrected := rfl
@[simp] theorem State.setLamp_jasper (s : State) (i : Nat) (r : LampSlice) : (s.setLamp i r).jasper = s.jasper := rfl
@[simp] theorem State.setLamp_cells (s : State) (i : Nat) (r : LampSlice) : (s.setLamp i r).cells = s.cells := rfl
@[simp] theorem State.setLamp_health (s : State) (i : Nat) (r : LampSlice) : (s.setLamp i r).health = s.health := rfl
@[simp] theorem State.setLamp_fh (s : State) (i : Nat) (r : LampSlice) : (s.setLamp i r).fh = s.fh := rfl
@[simp] theorem State.setLamp_clink (s : State) (i : Nat) (r : LampSlice) : (s.setLamp i r).clink = s.clink := rfl
@[simp] theorem State.setLamp_power (s : State) (i : Nat) (r : LampSlice) : (s.setLamp i r).power = s.power := rfl
@[simp] theorem State.setLamp_boot (s : State) (i : Nat) (r : LampSlice) : (s.setLamp i r).boot = s.boot := rfl
@[simp] theorem State.setLamp_pins (s : State) (i : Nat) (r : LampSlice) : (s.setLamp i r).pins = s.pins := rfl
@[simp] theorem State.setLamp_lastRead (s : State) (i : Nat) (r : LampSlice) : (s.setLamp i r).lastRead = s.lastRead := rfl
@[simp] theorem State.setLamp_lastPoison (s : State) (i : Nat) (r : LampSlice) : (s.setLamp i r).lastPoison = s.lastPoison := rfl
@[simp] theorem State.setLamp_freeCtr (s : State) (i : Nat) (r : LampSlice) : (s.setLamp i r).freeCtr = s.freeCtr := rfl

/-! ### setMsix -/

@[simp] theorem State.setMsix_pending (s : State) (fn v : Nat) (e : MsixEntry) : (s.setMsix fn v e).pending = s.pending := rfl
@[simp] theorem State.setMsix_regs (s : State) (fn v : Nat) (e : MsixEntry) : (s.setMsix fn v e).regs = s.regs := rfl
@[simp] theorem State.setMsix_time (s : State) (fn v : Nat) (e : MsixEntry) : (s.setMsix fn v e).time = s.time := rfl
@[simp] theorem State.setMsix_mem (s : State) (fn v : Nat) (e : MsixEntry) : (s.setMsix fn v e).mem = s.mem := rfl
@[simp] theorem State.setMsix_poison (s : State) (fn v : Nat) (e : MsixEntry) : (s.setMsix fn v e).poison = s.poison := rfl
@[simp] theorem State.setMsix_cores (s : State) (fn v : Nat) (e : MsixEntry) : (s.setMsix fn v e).cores = s.cores := rfl
@[simp] theorem State.setMsix_signals (s : State) (fn v : Nat) (e : MsixEntry) : (s.setMsix fn v e).signals = s.signals := rfl
@[simp] theorem State.setMsix_adds (s : State) (fn v : Nat) (e : MsixEntry) : (s.setMsix fn v e).adds = s.adds := rfl
@[simp] theorem State.setMsix_refused (s : State) (fn v : Nat) (e : MsixEntry) : (s.setMsix fn v e).refused = s.refused := rfl
@[simp] theorem State.setMsix_ordered (s : State) (fn v : Nat) (e : MsixEntry) : (s.setMsix fn v e).ordered = s.ordered := rfl
@[simp] theorem State.setMsix_cut (s : State) (fn v : Nat) (e : MsixEntry) : (s.setMsix fn v e).cut = s.cut := rfl
@[simp] theorem State.setMsix_slices (s : State) (fn v : Nat) (e : MsixEntry) : (s.setMsix fn v e).slices = s.slices := rfl
@[simp] theorem State.setMsix_lamp (s : State) (fn v : Nat) (e : MsixEntry) : (s.setMsix fn v e).lamp = s.lamp := rfl
@[simp] theorem State.setMsix_seqs (s : State) (fn v : Nat) (e : MsixEntry) : (s.setMsix fn v e).seqs = s.seqs := rfl
@[simp] theorem State.setMsix_corrected (s : State) (fn v : Nat) (e : MsixEntry) : (s.setMsix fn v e).corrected = s.corrected := rfl
@[simp] theorem State.setMsix_jasper (s : State) (fn v : Nat) (e : MsixEntry) : (s.setMsix fn v e).jasper = s.jasper := rfl
@[simp] theorem State.setMsix_cells (s : State) (fn v : Nat) (e : MsixEntry) : (s.setMsix fn v e).cells = s.cells := rfl
@[simp] theorem State.setMsix_health (s : State) (fn v : Nat) (e : MsixEntry) : (s.setMsix fn v e).health = s.health := rfl
@[simp] theorem State.setMsix_fh (s : State) (fn v : Nat) (e : MsixEntry) : (s.setMsix fn v e).fh = s.fh := rfl
@[simp] theorem State.setMsix_clink (s : State) (fn v : Nat) (e : MsixEntry) : (s.setMsix fn v e).clink = s.clink := rfl
@[simp] theorem State.setMsix_power (s : State) (fn v : Nat) (e : MsixEntry) : (s.setMsix fn v e).power = s.power := rfl
@[simp] theorem State.setMsix_boot (s : State) (fn v : Nat) (e : MsixEntry) : (s.setMsix fn v e).boot = s.boot := rfl
@[simp] theorem State.setMsix_pins (s : State) (fn v : Nat) (e : MsixEntry) : (s.setMsix fn v e).pins = s.pins := rfl
@[simp] theorem State.setMsix_lastRead (s : State) (fn v : Nat) (e : MsixEntry) : (s.setMsix fn v e).lastRead = s.lastRead := rfl
@[simp] theorem State.setMsix_lastPoison (s : State) (fn v : Nat) (e : MsixEntry) : (s.setMsix fn v e).lastPoison = s.lastPoison := rfl
@[simp] theorem State.setMsix_freeCtr (s : State) (fn v : Nat) (e : MsixEntry) : (s.setMsix fn v e).freeCtr = s.freeCtr := rfl

end Sys2Proof.Machine
end

