-- ==== Sys2Proof/Tests/Slice0.lean ====
section
/-!
SUPPORT. Tests: ill-formed commands that the check refuses, the vectors of the manual, and for each statement of
Certificates/Slice0/Obligations.lean with hypotheses a state and operands that meet them, clause by clause.
-/
namespace Sys2Proof.Tests
open Sys2Proof Sys2Proof.Machine

set_option Elab.async false

/-! ### Worlds -/

/-- An entry of the active cut. -/
def wEntry (ty key v : Nat) : Nat × Option Nat := (ty * 2 ^ 24 + key, some v)

/-- Core 0 is a radio core of cluster 0, core 1 the member of partition 3, to which slices 2 and 3 are bound; slice 4
exists and is unbound. -/
def wCut : SMap (Option Nat) :=
  [wEntry 1 0 (2 * 2 ^ 32 + 2 * 2 ^ 40),
   wEntry 2 0 (2 ^ 32 + 4 * 2 ^ 34 + 100 * 2 ^ 46 + 2 ^ 58 + 8 * 2 ^ 80 + 8 * 2 ^ 88 + 4 * 2 ^ 96), wEntry 2 1 0,
   wEntry 3 0 (3 * 2 ^ 32 + 16 * 2 ^ 40),
   wEntry 4 0 (2 ^ 48 + 2 * 2 ^ 56),
   wEntry 5 3 (4 * 2 ^ 48 + 2 ^ 73 + 2 ^ 257),
   wEntry 6 2 (7 * 2 ^ 32 + 3 * 2 ^ 52 + 2 ^ 64), wEntry 6 3 (8 * 2 ^ 32 + 3 * 2 ^ 52 + 2 ^ 64),
   wEntry 6 4 (9 * 2 ^ 32 + 0x1FF * 2 ^ 52 + 2 ^ 64),
   wEntry 7 0 (2 ^ 32 + 64 * 2 ^ 96), wEntry 7 1 (2 * 2 ^ 32 + 512 * 2 ^ 64 + 512 * 2 ^ 96)]

/-- A device that runs with that cut, before any command. -/
def wOn : State :=
  let s : State := { State.reset with
    time := { State.reset.time with running := true, lastTick := some 0 }
    host := { State.reset.host with pf0 := ⟨true, false, 0, 0⟩, pf1 := ⟨true, false, 0, 0⟩, linkUp := true }
    pins := { State.reset.pins with perst := true, auxOn := true }
    cut := { State.reset.cut with active := wCut } }
  let s := (s.setFld F.DEV_STATUS_boot_state 0 5).setFld F.DEV_STATUS_ready 0 1
  let s := (s.setFld F.SLC_STATE_state 2 2).setFld F.SLC_CFG_credit_limit 2 4
  let s := (s.setFld F.SLC_STATE_state 3 2).setFld F.SLC_STATE_state 4 1
  ((s.setFld F.SYNC_OBJ_owner 5 2).setFld F.SYNC_OBJ_owner 6 256).setFld F.CORE_LEASE_STATUS_rental_slot 1 1

/-- A descriptor of `n` commands at a device address. -/
def wDesc (core list n : Nat) : Desc :=
  { kind := 1, flags := 0, target := core, count := n, listAddr := list, doneAddr := 0, tag := 9, doneSync := 0,
    doneValue := 0, bufCount := 0, bufTable := 0, rest := 0 }

/-- Its bytes. -/
def wBytes (d : Desc) : Bytes :=
  leBytes 1 d.kind ++ leBytes 1 d.flags ++ leBytes 2 d.target ++ leBytes 4 d.count ++ leBytes 8 d.listAddr
    ++ leBytes 8 d.doneAddr ++ leBytes 4 d.tag ++ leBytes 2 d.doneSync ++ leBytes 2 0 ++ leBytes 4 d.doneValue
    ++ leBytes 4 d.bufCount ++ leBytes 8 d.bufTable ++ leBytes 16 0

/-- A list of a context with its table of buffers. -/
def wList (owner : Nat) (d : Desc) (fetched : Nat) : CList :=
  { no := 0, desc := d, portal := owner, fetched := fetched, done := 0, status := 0, flagged := 0,
    bufBase := d.bufTable, bufCount := d.bufs, step := none, hostSince := none }

/-- A queued command of list 0: engine, opcode, the other header bits, and payload. -/
def wCmd (seq eng op header pay : Nat) : QCmd :=
  { QCmd.fresh seq (BitVec.ofNat 256 (op + eng * 2 ^ 8 + header + pay * 2 ^ 128)) 0 seq with since := some 0, waitOk := true }

/-- A context with a list and queued commands. -/
def wCtx (owner : Nat) (d : Desc) (cs : List QCmd) : Ctx :=
  { Ctx.init owner 0 0 with queue := cs, lists := [wList owner d cs.length], nextSeq := cs.length, nextList := 1,
                            bufBase := d.bufTable, bufCount := d.bufs }

/-- The state with a context in a slot of a core. -/
def wPut (s : State) (p slot : Nat) (x : Ctx) : State :=
  s.setCore p { s.core p with ctx := put none (s.core p).ctx slot (some x) }

/-- A rental core 1 whose slice 2 holds slot 1 with one command at the head. -/
def wRental (c : QCmd) : State := wPut wOn 1 1 (wCtx 2 (wDesc 1 0x100 1) [c])

/-- A radio core 0 with one command at the head, in a radio lease. -/
def wRadio (c : QCmd) : State :=
  let s := (wPut wOn 0 0 (wCtx 256 (wDesc 0 0x100 1) [c])).setFld F.CORE_LEASE_STATUS_phase 0 2
  s.setCore 0 { s.core 0 with yielded := 15, windowOpen := true }

/-- An access that names a register with a property. -/
theorem wReg {s : State} {b : Bar} {off i byte : Nat} {P : Place → Prop} [DecidablePred P]
    (h : (match s.target b off with
      | .reg q j k => decide (j = i ∧ k = byte ∧ P q)
      | _ => false) = true) : ∃ q, s.target b off = .reg q i byte ∧ P q := by
  split at h
  · rename_i q j k e
    have ⟨h1, h2, h3⟩ := of_decide_eq_true h
    exact ⟨q, h1 ▸ h2 ▸ e, h3⟩
  · cases h

/-- A device buffer entry, read and write. -/
def wBuf (base len : Nat) : Bytes :=
  leBytes 1 1 ++ leBytes 1 3 ++ leBytes 6 0 ++ leBytes 8 base ++ leBytes 8 len ++ leBytes 40 0

/-- A tensor entry. -/
def wTensor (fmt buf off : Nat) (extent stride : List Nat) : Bytes :=
  leBytes 1 3 ++ leBytes 1 fmt ++ leBytes 1 extent.length ++ leBytes 1 0 ++ leBytes 2 buf ++ leBytes 2 0
    ++ leBytes 8 off ++ (List.range 5).flatMap (fun i => leBytes 4 (extent.getD i 0))
    ++ (List.range 5).flatMap (fun i => leBytes 5 (stride.getD i 0)) ++ leBytes 3 0

/-- A buffer table: a scratchpad buffer of core 1, tensors of one line of bytes at 0 and at 64, one of two
32-bit elements at 128, one of rows of 64 bytes, an index tensor, and four shards. -/
def wTable : Bytes :=
  wBuf (spmAddr 1 0) 0x10000 ++ wTensor 7 0 0 [64] [1] ++ wTensor 7 0 64 [64] [1] ++ wTensor 9 0 128 [16] [1]
    ++ wTensor 9 0 0 [16, 2] [1, 16] ++ wTensor 9 0 0x400 [2] [1] ++ wTensor 7 0 0x800 [64, 4] [1, 64]
    ++ wTensor 9 0 0x200 [16, 2] [1, 16]

/-- The descriptor of a list with that table. -/
def wDescT : Desc := { wDesc 1 0x100 1 with bufCount := 8, bufTable := vaultAddr 1 0x1000 }

/-- The rental core with that table and one command. -/
def wMover (c : QCmd) : State :=
  { wPut wOn 1 1 (wCtx 2 wDescT [c]) with
    mem := (wTable.zipIdx.filter fun q => q.1 ≠ 0).map fun q => (vaultAddr 1 0x1000 + q.2, q.1) }

/-- A check that passes. -/
theorem wOk {ε α : Type} {e : Except ε α} (h : e.toBool = true) : ∃ v, e = .ok v := by
  cases e with
  | ok v => exact ⟨v, rfl⟩
  | error f => cases h

/-- A check without a value that passes. -/
theorem wOkU {ε : Type} {e : Except ε Unit} (h : e.toBool = true) : e = .ok () := by
  cases e with
  | ok v => rfl
  | error f => cases h

/-! ### Witnesses of the statements: for each clause, a state and operands that meet its hypotheses -/

theorem test_witness_StepKeepsCanonicalForm : State.reset.canonical := by
  refine ⟨by decide, by decide, by decide, by decide, by decide, fun r => ?_⟩
  cases r <;> decide +kernel

theorem test_witness_PlainWriteActsByAccessType :
    (∃ q, wOn.target .pf0Bar0 0x0010_0028 = .reg q 0 0 ∧ q.view = .own ∧ q.reg ∉ commandRegs ∧ q.reg.width = 32)
    ∧ (∃ q, wOn.target .pf0Bar0 0x00B0_0108 = .reg q 0 8 ∧ q.view = .own ∧ q.reg ∉ commandRegs ∧ q.reg.width ≠ 32)
    ∧ ∃ q, wOn.target .pf0Bar0 0x20 = .reg q 0 0 ∧ q.view = .own ∧ q.reg ∉ commandRegs ∧ q.reg.width ≠ 32 :=
  ⟨wReg (by decide +kernel), wReg (by decide +kernel), wReg (by decide +kernel)⟩

theorem test_witness_ReadsAnswerTheRegister :
    (∃ q, wOn.target .pf0Bar0 0 = .reg q 0 0 ∧ q.reg ≠ .TIME_NOW ∧ q.reg ≠ .TIME_PPS_IN ∧ q.reg.width ≠ 32)
    ∧ (∃ q, wOn.target .pf0Bar0 0x0010_0028 = .reg q 0 0 ∧ q.reg ≠ .TIME_NOW ∧ q.reg ≠ .TIME_PPS_IN ∧ q.reg.width = 32)
    ∧ let h : HalfWord := ⟨0, .pf0Bar0, 4, 9⟩
      let s : State := { wOn with host := { wOn.host with latched := [h] } }
      (∃ q, s.target .pf0Bar0 4 = .reg q 0 4 ∧ q.reg.width ≠ 32) ∧ s.latchOf 0 .pf0Bar0 4 = some h :=
  ⟨wReg (by decide +kernel), wReg (by decide +kernel), wReg (by decide +kernel), by decide +kernel⟩

theorem test_witness_BadAccessesAreCounted :
    (wOn.target .pf0Bar0 0x28 = .reserved ∧ wOn.target .pf0Bar0 0x2C = .reserved ∧ aligned 0x28 8 = true)
    ∧ ((∃ q, wOn.target .pf0Bar0 0x12 = .reg q 0 2 ∧ q = q) ∧ aligned 0x12 2 = false)
    ∧ (wOn.isBad .pf0Bar0 0x28 4 = true)
    ∧ ∃ q, wOn.target .pf1Bar0 0x0030_0000 = .reg q 0 0 ∧ (q.view = .mirror ∨ q.view = .leaseMirror) :=
  ⟨by decide +kernel, ⟨wReg (by decide +kernel), by decide⟩, by decide +kernel, wReg (by decide +kernel)⟩

theorem test_witness_WriteHalvesActTogether :
    (∃ q, wOn.target .pf0Bar0 0x20 = .reg q 0 0 ∧ q.readOnly = false ∧ q.reg.width ≠ 32 ∧ q.reg ≠ .SYNC_OBJ)
    ∧ (∃ q, wOn.target .pf0Bar0 0x24 = .reg q 0 4 ∧ q = q)
    ∧ wOn.heldLow 0 .pf0Bar0 0x20 = none
    ∧ (∃ q, wOn.target .pf0Bar0 0x20 = .reg q 0 0 ∧ q.reg.highWritable 0 = true)
    ∧ (∃ q, wOn.target .pf0Bar0 0x420000 = .reg q 0 0 ∧ q.readOnly = false ∧ q.reg.width ≠ 32 ∧ q.reg ≠ .SYNC_OBJ
        ∧ q.reg.highWritable 0 = false)
    ∧ ∃ q, wOn.target .pf0Bar0 0x420004 = .reg q 0 4 ∧ q = q :=
  ⟨wReg (by decide +kernel), wReg (by decide +kernel), by decide +kernel, wReg (by decide +kernel),
    wReg (by decide +kernel), wReg (by decide +kernel)⟩

theorem test_witness_TimeIsKept :
    (let s := wOn.setFld F.TIME_ADJ_VALUE_ns 0 1000000000
     1000000000 ≤ s.fld F.TIME_ADJ_VALUE_ns 0)
    ∧ (let s := wOn.setFld F.TIME_ADJ_VALUE_ns 0 999999999
       s.cycle.total < s.fld F.TIME_ADJ_VALUE_ns 0)
    ∧ (wOn.fld F.TIME_ADJ_VALUE_ns 0 < 1000000000
        ∧ wOn.cycle.total + wOn.fld F.TIME_ADJ_VALUE_seconds 0 * 1000000000 < 8796093022208000000
        ∧ wOn.time.running = true)
    ∧ (let s : State := { State.reset with pins := { State.reset.pins with perst := true } }
       s.pins.perst = true ∧ s.time.running = false ∧ s.power.tripped = false ∧ s.power.down = [])
    ∧ (wOn.setFld F.TIME_STATUS_ref_lock 0 1).fld F.TIME_STATUS_ref_lock 0 = 1
    ∧ wOn.fld F.TIME_STATUS_ref_lock 0 = 0
    ∧ (let s := wOn.setFld F.TIME_PPS_CTL_out_en 0 1
       let s : State := { s with time := { s.time with second := true } }
       s.time.running = true ∧ s.fld F.TIME_PPS_CTL_out_en 0 = 1 ∧ s.time.second = true ∧ s.time.ppsOut = false)
    ∧ wOn.time.second = false
    ∧ (wOn.setFld F.TIME_PPS_CTL_in_en 0 1).fld F.TIME_PPS_CTL_in_en 0 = 1
    ∧ wOn.fld F.TIME_PPS_CTL_in_en 0 = 0 := by
  decide +kernel

theorem test_witness_TickBoundaries :
    (let s : State := { wOn with time := { wOn.time with lastTick := none } }
     s.tickDue = some 0)
    ∧ (wOn.time.running = true ∧ wOn.time.skip = none ∧ wOn.time.lastTick = some 0 ∧ wOn.tickDue = none)
    ∧ (let s : State := { wOn with time := { wOn.time with ns := 500000, skip := some 6, clk := 7 } }
       s.time.skip = some 6 ∧ 6 < s.time.clk ∧ s.tickDue = some 4 ∧ s.nextTick = 1)
    ∧ (let s : State := { wOn with time := { wOn.time with ns := 125000 } }
       s.tickDue = some 1 ∧ (0 : Nat) < s.tickAt s.total) := by
  decide +kernel

/-- The radio core 0 when its window is due, 1 us after the boundary. -/
def wWindow : State :=
  let s := wPut wOn 0 0 (wCtx 256 (wDesc 0 0x100 1) [])
  { s with time := { s.time with ns := 1000 } }

theorem test_witness_RadioWindows :
    (wWindow.time.running = true ∧ wWindow.windowDue 0 = true ∧ wWindow.fld F.CORE_LEASE_STATUS_phase 0 = 0)
    ∧ (let s := (wPut wOn 0 0 (wCtx 256 (wDesc 0 0x100 1) [wCmd 0 3 0 0 0])).setFld F.CORE_LEASE_STATUS_phase 0 2
       let s := s.setCore 0 { s.core 0 with windowOpen := true }
       let s : State := { s with time := { s.time with ns := 26000 } }
       (s.core 0).windowOpen = true ∧ s.windowTo 0 < s.period
        ∧ s.tickInstant s.tickNo + s.windowTo 0 ≤ s.total ∧ s.fld F.CORE_LEASE_STATUS_phase 0 ≠ 0
        ∧ s.radioPending 0 = true)
    ∧ (let s := wOn.setFld F.CORE_LEASE_STATUS_phase 0 1
       s.fld F.CORE_LEASE_STATUS_phase 0 = 1 ∧ bitOf (s.core 0).yielded 3 = false ∧ s.canYield 0 3 = true
        ∧ s.canYield 0 0 = true)
    ∧ (let s := wOn.setCore 0 { wOn.core 0 with yielded := 8 }
       bitOf (s.core 0).yielded 3 = true) := by
  decide +kernel

theorem test_witness_SignalsAndObjects :
    (let g : Signal := ⟨5, false, 1, 0, 2⟩
     let s : State := { wOn with signals := [g, g] }
     s.signals[0]? = some g ∧ (¬ ∃ h ∈ s.signals.take 0, h.src = g.src ∧ h.obj = g.obj)
      ∧ s.signals[1]? = some g ∧ ∃ h ∈ s.signals.take 1, h.src = g.src ∧ h.obj = g.obj)
    ∧ wOn.tdiLocked (wOn.fld F.SYNC_OBJ_owner 32767) = false
    ∧ (let s := wOn.setFld F.SLC_STATE_tdi_state 2 1
       s.tdiLocked (s.fld F.SYNC_OBJ_owner 5) = true) := by
  decide +kernel

/-- A rental command that waits on object 5 for the value 1. -/
def wWaiting : State :=
  let c := wCmd 0 3 0 (5 * 2 ^ 10 + 2 ^ 40 + 2 ^ 41 + 5 * 2 ^ 25 + 2 ^ 64) 0
  (wRental { c with waitOk := false }).setFld F.SYNC_CTL_wait_limit_ms 0 1

theorem test_witness_WaitsTimeOut :
    (∃ x, wWaiting.ctx 1 1 = some x ∧ (x.waiting 3).any (fun w => w.2.1 = 5 ∧ w.2.2 = 0) = true)
    ∧ (let s : State := { wWaiting with time := { wWaiting.time with clk := 1000000 } }
       s.overdue 0 = false)
    ∧ (let s : State := { wWaiting with time := { wWaiting.time with clk := 1000001 } }
       s.overdue 0 = true) :=
  ⟨⟨_, rfl, by decide +kernel⟩, by decide +kernel, by decide +kernel⟩

theorem test_witness_SubmissionsTurnedAway :
    (wOn.fld F.SLC_STATE_state 3 ≠ 0 ∧ wOn.viaOk 3 none = true ∧ wOn.available 3 = 0)
    ∧ wOn.pf1Ready = true
    ∧ (wBytes (wDesc 1 0x100 1)).length = 64
    ∧ wOn.target .pf0Bar2 0x3_0040 = .submission 3 0x40 := by
  decide +kernel

theorem test_witness_DescriptorsArrive :
    (let d := wDesc 1 (vaultAddr 1 0) 1
     wOn.fld F.SLC_STATE_state 2 ≠ 0 ∧ wOn.viaOk 2 none = true ∧ Desc.ofBytes (wBytes d) = d
      ∧ wOn.available 2 ≠ 0 ∧ wOn.descCheck 2 d = none ∧ wOn.physOf d.core = some 1 ∧ wOn.coreDown 1 = false
      ∧ wOn.behindHeld 1 2 = false ∧ 0 < d.cmds ∧ wOn.slotOf 1 2 = none ∧ wOn.freeSlot 1 2 = some 1
      ∧ (wOn.setCore 1 { wOn.core 1 with held := [⟨2, d, none⟩] }).behindHeld 1 2 = true
      ∧ (wOn.setFld F.HLTH_UNIT_state 1 3).coreDown 1 = true
      ∧ let s := wRental (wCmd 0 3 0 0 0)
        s.slotOf 1 2 = some 1 ∧ (s.ctx 1 1).any (fun x => x.lists.all fun l => decide (l.done < l.desc.cmds)) = true
      ∧ let s := wPut (wPut (wPut wOn 1 1 (wCtx 3 d [])) 1 2 (wCtx 5 d [])) 1 3 (wCtx 6 d [])
        s.descCheck 2 d = none ∧ s.slotOf 1 2 = none ∧ s.freeSlot 1 2 = none)
    ∧ wOn.descCheck 2 (Desc.ofBytes (wBytes (wDesc 1 (vaultAddr 1 1) 1))) = some eAlign := by
  decide +kernel

/-- A context of slice 2 with one command fetched and one still to come. -/
def wFetching : State :=
  let x := wCtx 2 (wDesc 1 (vaultAddr 1 0) 2) [wCmd 0 3 0 0 0]
  wPut wOn 1 1 x

theorem test_witness_CommandsAreFetchedAndComplete :
    (∃ x l, wFetching.ctx 1 1 = some x ∧ x.evicted = false ∧ x.frozen = false ∧ x.lists = [l]
      ∧ l.fetched + 1 = l.desc.cmds ∧ wFetching.fetchWaits 2 l = false ∧ (wFetching.fetchBytes 2 l).2 = false
      ∧ wFetching.fetchLost l = false
      ∧ (x.queueOf 3).length < 64)
    ∧ (let c := { wCmd 0 3 1 (2 ^ 41 + 5 * 2 ^ 25) (5 + 2 ^ 15) with phase := .worked }
       let s := wRental c
       (∃ x, s.ctx 1 1 = some x ∧ x.queueOf 3 = [c]) ∧ s.unfinished 1 1 0 = false ∧ c.err = 0 ∧ c.digests = []
        ∧ c.opcode ≠ 6)
    ∧ (let c := wCmd 0 3 1 0 0
       (∃ x, (wRental c).ctx 1 1 = some x ∧ x.queueOf 3 = [c]) ∧ c.phase ≠ .worked)
    ∧ (let c := { wCmd 0 3 2 0 0 with phase := .worked }
       let s := wRental c
       let t := s.setFld F.CORE_LEASE_STATUS_phase 1 1
       (∃ x, s.ctx 1 1 = some x ∧ x.queueOf 3 = [c] ∧ x.evicted = false) ∧ c.isWait = true ∧ s.engineServes 1 1 3 = true
        ∧ c.noSignal = false ∧ (∃ x, t.ctx 1 1 = some x ∧ x.queueOf 3 = [c]) ∧ t.engineServes 1 1 3 = false) := by
  refine ⟨⟨_, _, rfl, ?_, ?_, rfl, ?_⟩, ⟨⟨_, rfl, ?_⟩, ?_⟩, ⟨⟨_, rfl, ?_⟩, ?_⟩,
    ⟨⟨_, rfl, ?_⟩, ?_, ?_, ?_, ⟨_, rfl, ?_⟩, ?_⟩⟩ <;> decide +kernel

theorem test_witness_PortalMessages :
    (let s := (wOn.setSlice 2 { wOn.slice 2 with mirrorAt := some 0 }).setFld F.PORTAL_CREDIT_MIRROR_enable 2 1
     (s.slice 2).mirrorAt = some 0 ∧ s.time.clk = 0 ∧ s.fld F.PORTAL_CREDIT_MIRROR_enable 2 = 1
      ∧ (s.slice 2).rise = false ∧ (s.slice 2).fenced = false ∧ s.canIssue 0 = true ∧ s.host.held = []
      ∧ s.fld F.SLC_CFG_ats_en 2 = 0)
    ∧ (let s := wOn.setSlice 2 { wOn.slice 2 with mirrorAt := some 1 }
       s.time.clk < 1 ∧ (s.slice 2).mirrorAt = some 1)
    ∧ (wOn.setFld F.SLC_STATE_tdi_state 2 2).tdiLocked 2 = true
    ∧ wOn.tdiLocked 255 = false
    ∧ (wOn.setFld F.SLC_MSG_pending (2 * 8 + 7) 1).fld F.SLC_MSG_pending (2 * 8 + 7) = 1 := by
  decide +kernel

theorem test_witness_ControlCommands :
    (let c := wCmd 0 3 0 0 0
     (wRental c).startOp 1 1 3 0 = some (wCtx 2 (wDesc 1 0x100 1) [c], c) ∧ c.pay 0 128 = 0)
    ∧ (let c := wCmd 0 3 1 0 (5 + 2 ^ 15 + 2 ^ 32)
       (wRental c).startOp 1 1 3 1 = some (wCtx 2 (wDesc 1 0x100 1) [c], c) ∧ c.pay 17 15 = 0 ∧ c.pay 81 15 = 0
        ∧ (c.entry 0).enable = true ∧ (wRental c).permitted (c.entry 0).id 2 = true ∧ (c.entry 1).enable = false)
    ∧ (let c := wCmd 0 3 6 0 0xFFFFFFFF
       (wRental c).startOp 1 1 3 6 = some (wCtx 2 (wDesc 1 0x100 1) [c], c) ∧ c.pay 32 96 = 0)
    ∧ (let c := wCmd 0 3 2 0 (5 + 2 ^ 15)
       (wRental c).startOp 1 1 3 2 = some (wCtx 2 (wDesc 1 0x100 1) [c], c) ∧ c.pay 16 16 = 0 ∧ c.pay 80 16 = 0
        ∧ (wRental c).permitted (c.entry 0).id 2 = true)
    ∧ (let c := wCmd 0 3 8 0 (vaultAddr 1 0x1FFFF0)
       (wRental c).startOp 1 1 3 8 = some (wCtx 2 (wDesc 1 0x100 1) [c], c) ∧ c.pay 44 84 = 0
        ∧ (wRental c).claimable 1 1 2 [] (clmNamed (c.pay 0 44) 16) = true ∧ (wRental c).rangeHeld (c.pay 0 44) 16 = false
        ∧ ((wRental c).setFld F.HLTH_UNIT_state 1 3).rangeHeld (c.pay 0 44) 16 = true
        ∧ ∃ v, (wRental c).addressCheck 2 1 (c.pay 0 44) 16 16 true = .ok v)
    ∧ (let c := wCmd 0 3 8 0 (clmAddr 0 0x7F0000)
       (wRental c).startOp 1 1 3 8 = some (wCtx 2 (wDesc 1 0x100 1) [c], c) ∧ c.pay 44 84 = 0
        ∧ clmNamed (c.pay 0 44) 16 ≠ [] ∧ (wRental c).claimable 1 1 2 [] (clmNamed (c.pay 0 44) 16) = true
        ∧ ∃ v, (wRental c).addressCheck 2 1 (c.pay 0 44) 16 16 true = .ok v) := by
  refine ⟨?_, ?_, ?_, ?_, ⟨?_, ?_, ?_, ?_, ?_, wOk ?_⟩, ⟨?_, ?_, ?_, ?_, wOk ?_⟩⟩ <;> decide +kernel

theorem test_witness_ControlOfTheCore :
    (let c := wCmd 0 3 3 0 1
     (wRental c).startOp 1 1 3 3 = some (wCtx 2 (wDesc 1 0x100 1) [c], c) ∧ c.pay 1 127 = 0
      ∧ (wRental c).best 1 1 = none
      ∧ let s := wPut (wRental c) 1 2 (wCtx 3 (wDesc 1 0x100 1) [c])
        s.startOp 1 1 3 3 = some (wCtx 2 (wDesc 1 0x100 1) [c], c) ∧ s.best 1 1 = some 2)
    ∧ (let c := wCmd 0 3 4 0 0
       (wRadio c).handBackDue 0 0 = some (wCtx 256 (wDesc 0 0x100 1) [c], c) ∧ c.pay 0 128 = 0
        ∧ (wRadio c).fld F.CORE_LEASE_STATUS_phase 0 ≠ 0
        ∧ (wRental c).startOp 1 1 3 4 = some (wCtx 2 (wDesc 1 0x100 1) [c], c))
    ∧ (let c := wCmd 0 3 9 0 255
       (wRadio c).startOp 0 0 3 9 = some (wCtx 256 (wDesc 0 0x100 1) [c], c) ∧ c.pay 8 125 = 0)
    ∧ (let c := wCmd 0 3 9 0 7
       let s := (wRental c).setFld F.SLC_MSG_mask (2 * 8 + 7) 0
       s.startOp 1 1 3 9 = some (wCtx 2 (wDesc 1 0x100 1) [c], c) ∧ c.pay 3 125 = 0
        ∧ s.fld F.SLC_MSG_mask (2 * 8 + 7) = 0 ∧ (s.slice 2).fenced = false
        ∧ (s.setFld F.SLC_MSG_mask (2 * 8 + 7) 1).fld F.SLC_MSG_mask (2 * 8 + 7) = 1)
    ∧ (let c := wCmd 0 3 10 0 (8 + 5 * 2 ^ 64)
       (wRental c).startOp 1 1 3 10 = some (wCtx 2 (wDesc 1 0x100 1) [c], c) ∧ c.pay 0 64 % 8 = 0
        ∧ (wRental c).canIssue (fnOf 2) = true ∧ (wRental c).fld F.SLC_CFG_ats_en 2 = 0 ∧ wOn.host.held = []
        ∧ (wRadio c).startOp 0 0 3 10 = some (wCtx 256 (wDesc 0 0x100 1) [c], c)
        ∧ let s : State := { wRental c with host := { wOn.host with pf0 := ⟨false, false, 0, 0⟩ } }
          s.startOp 1 1 3 10 = some (wCtx 2 (wDesc 1 0x100 1) [c], c) ∧ s.canIssue (fnOf 2) = false) := by
  refine ⟨?_, ?_, ?_, ?_, ?_⟩ <;> decide +kernel

theorem test_witness_FailedChecks :
    (wRental (wCmd 0 3 0 0 1)).ctx 1 1 = some (wCtx 2 (wDesc 1 0x100 1) [wCmd 0 3 0 0 1])
    ∧ (wRadio (wCmd 0 3 0 (2 ^ 41 + 6 * 2 ^ 25) 1)).ctx 0 0
        = some (wCtx 256 (wDesc 0 0x100 1) [wCmd 0 3 0 (2 ^ 41 + 6 * 2 ^ 25) 1])
    ∧ 6 ∈ wOn.breaks (wCmd 0 3 0 (2 ^ 41 + 6 * 2 ^ 25) 1) ∧ wOn.permitted 6 256 = true := by
  decide +kernel

/-- A rental GMM of one step of BF16 operands into bank 0, with `drain` above bit 77. -/
def wGmm (drain : Nat) : QCmd :=
  wCmd 0 0 1 0 (2 ^ 39 + 2 ^ 54 + 2 ^ 77 + drain + 0xFFFF * 2 ^ 82 + 0xFFFF * 2 ^ 98)

theorem test_witness_GmmIssues :
    garnetReady (wMover (wGmm 0)) 1 1 1 (wCtx 2 wDescT [wGmm 0]) (wGmm 0) 1 (wList 2 wDescT 1)
      (((wMover (wGmm 0)).core 1).gmmHolds 1 0 0)
      ((wMover (wGmm 0)).gmmCheck 1 1 1 (wCtx 2 wDescT [wGmm 0]) (wGmm 0) (wList 2 wDescT 1))
      ((wMover (wGmm 0)).gmmAllSpans (wCtx 2 wDescT [wGmm 0]) (wGmm 0) (wList 2 wDescT 1))
    ∧ (let s := wMover (wGmm 0)
       let c := { wGmm 0 with plan := some (spanPlan (s.gmmAllSpans (wCtx 2 wDescT [wGmm 0]) (wGmm 0) (wList 2 wDescT 1))) }
       (wMover c).issuable 1 1 1 = some (wCtx 2 wDescT [c], c) ∧ ((wMover c).core 1).gmmHolds 1 0 0 = false) := by
  refine ⟨⟨?_, ?_, ?_, .inr ⟨?_, ?_, ?_, fun _ => ?_, wOkU ?_, fun _ => ?_⟩⟩, ?_⟩ <;> decide +kernel

/-- The core with a GMM in the array. -/
def wArray (drain : Option Nat) : State :=
  let s := wMover (wGmm 0)
  s.setCore 1 { s.core 1 with array := [⟨1, 1, 0, 0, 0, drain, 0, true, false⟩] }

/-- The core with two requests at the drain port. -/
def wPort (a b : PortReq) : State :=
  let s := wMover (wGmm 0)
  s.setCore 1 { s.core 1 with port := [a, b] }

/-- A GDRAIN of bank 0 as FP32 rows of 256 bytes, and a GPRELOAD of one row of FP32. -/
def wDrain : QCmd := wCmd 0 0 2 0 (8 * 2 ^ 34)
def wPre : QCmd := wCmd 0 0 3 0 (2 ^ 32)

theorem test_witness_GmmLeavesTheArray :
    (((wArray (some 0)).core 1).array.find? fun a => a.half = 0) = some ⟨1, 1, 0, 0, 0, some 0, 0, true, false⟩
    ∧ (((wArray none).core 1).array.find? fun a => a.half = 0) = some ⟨1, 1, 0, 0, 0, none, 0, true, false⟩
    ∧ garnetReady (wMover wDrain) 1 1 2 (wCtx 2 wDescT [wDrain]) wDrain 1 (wList 2 wDescT 1)
      (((wMover wDrain).core 1).portHolds 1 0 0)
      ((wMover wDrain).gdrainCheck 1 1 1 (wCtx 2 wDescT [wDrain]) wDrain (wList 2 wDescT 1))
      ((wMover wDrain).drainSpans wDrain (wList 2 wDescT 1) (DrainCfg.ofBits (wDrain.pay 0 128) 0) 64)
    ∧ garnetReady (wMover wPre) 1 1 3 (wCtx 2 wDescT [wPre]) wPre 1 (wList 2 wDescT 1)
      (((wMover wPre).core 1).portHolds 1 0 0)
      ((wMover wPre).preloadCheck 1 1 (wCtx 2 wDescT [wPre]) wPre (wList 2 wDescT 1))
      [(wMover wPre).preSpan (wList 2 wDescT 1) wPre] := by
  refine ⟨?_, ?_, ⟨?_, ?_, ?_, .inr ⟨?_, ?_, ?_, fun _ => ?_, wOkU ?_, fun _ => ?_⟩⟩,
    ⟨?_, ?_, ?_, .inr ⟨?_, ?_, ?_, fun _ => ?_, wOkU ?_, fun _ => ?_⟩⟩⟩ <;> decide +kernel

theorem test_witness_DrainPortWorks :
    (let a : PortReq := ⟨1, 1, 0, 0, 1, false, 0, 0, true⟩
     let b : PortReq := ⟨1, 1, 0, 0, 2, false, 0, 0, false⟩
     let s := wPort a b
     (s.core 1).port.zipIdx.find? (fun r => !r.1.started && r.1.half = 2) = some (b, 1)
      ∧ portFree (s.core 1).port 1 2 = true
      ∧ (s.core 1).port.find? (fun r => r.started && !r.preload && r.half = 1) = some a)
    ∧ (let a : PortReq := ⟨1, 1, 0, 0, 0, true, 0, 0, true⟩
       let b : PortReq := ⟨1, 1, 0, 1, 0, false, 0, 0, false⟩
       let s := wPort a b
       (s.core 1).port.zipIdx.find? (fun r => !r.1.started && r.1.half = 0) = some (b, 1)
        ∧ portFree (s.core 1).port 1 0 = false
        ∧ (s.core 1).port.find? (fun r => r.preload && r.half = 0) = some a)
    ∧ (let s := wMover (wGmm 0)
       let b := (s.core 1).bank 0 0
       let t := s.setCore 1 { s.core 1 with banks := put BankHalf.init (s.core 1).banks 0 { b with state := .draining, slot := 1 } }
       t.startOp 1 1 0 1 = some (wCtx 2 wDescT [wGmm 0], wGmm 0) ∧ t.logicalOf 1 = some 1
        ∧ (wCtx 2 wDescT [wGmm 0]).listOf (wGmm 0) = some (wList 2 wDescT 1)
        ∧ t.fld F.GAR_ISSUE_CTL_rental_hold 1 ≠ 1 ∧ t.issuable 1 1 1 = none
        ∧ (t.core 1).gmmHolds 1 ((wGmm 0).pay 74 1) ((wGmm 0).pay 75 2) = true
        ∧ (∃ v, t.gmmCheck 1 1 1 (wCtx 2 wDescT [wGmm 0]) (wGmm 0) (wList 2 wDescT 1) = .ok v)
        ∧ claimsFree t 1 1 1 (wCtx 2 wDescT [wGmm 0]) (t.gmmAllSpans (wCtx 2 wDescT [wGmm 0]) (wGmm 0) (wList 2 wDescT 1))) := by
  refine ⟨?_, ?_, ?_, ?_, ?_, ?_, ?_, ?_, wOk ?_, fun _ => ?_⟩ <;> decide +kernel

theorem test_witness_GarnetConfiguresAndFaults :
    (let c := wCmd 0 0 4 0 (8 * 2 ^ 34 + 7 * 2 ^ 106)
     let s := wMover c
     garnetReady s 1 1 4 (wCtx 2 wDescT [c]) c 1 (wList 2 wDescT 1) false
      (s.gdcfgCheck 1 1 (wCtx 2 wDescT [c]) c (wList 2 wDescT 1))
      (s.drainSpans c (wList 2 wDescT 1) (DrainCfg.ofBits (c.pay 0 128) 0) 64))
    ∧ (let c := wCmd 0 0 5 0 1
       let s := wMover c
       s.startOp 1 1 0 5 = some (wCtx 2 wDescT [c], c) ∧ s.logicalOf 1 = some 1
        ∧ (wCtx 2 wDescT [c]).listOf c = some (wList 2 wDescT 1) ∧ s.fld F.GAR_ISSUE_CTL_rental_hold 1 ≠ 1
        ∧ ((wCtx 2 wDescT [c]).queueOf 0).head?.map (·.seq) = some c.seq ∧ (wCtx 2 wDescT [c]).issuing = none
        ∧ c.pay 1 127 = 0 ∧ s.bankOk 1 1 0 = true)
    ∧ (let s := (wArray none).setFld F.CORE_LEASE_STATUS_phase 1 1
       (s.core 1).array.find? (fun a => a.half = 0) = some ⟨1, 1, 0, 0, 0, none, 0, true, false⟩
        ∧ (s.core 1).array[0]? = some ⟨1, 1, 0, 0, 0, none, 0, true, false⟩
        ∧ (s.core 1).offender = some (1, 1, 0) ∧ (s.ctx 1 1).isSome = true ∧ s.fld F.CORE_LEASE_STATUS_phase 1 = 1
        ∧ bitOf (s.core 1).yielded 0 = false ∧ s.cutBits 6 2 80 1 = 0) := by
  refine ⟨⟨?_, ?_, ?_, .inr ⟨?_, ?_, ?_, fun _ => ?_, wOkU ?_, fun _ => ?_⟩⟩, ?_, ?_⟩ <;> decide +kernel

/-- An Opal command that may start on core 1, and its plan has a property. -/
def wOpalOk (s : State) (c : QCmd) (op : Nat)
    (plan : Nat → Ctx → QCmd → CList → Except Fail OpalPlan) (P : OpalPlan → Bool) : Bool :=
  match plan 1 (wCtx 2 wDescT [c]) c (wList 2 wDescT 1) with
  | .error _ => false
  | .ok d =>
    ((s.planCheck c d).toBool && s.readsClear 1 1 d.reads && match s.hostWait 2 c d.reads with
      | .ready false => true
      | _ => false)
    && decide (s.startOp 1 1 2 op = some (wCtx 2 wDescT [c], c)
      ∧ s.logicalOf 1 = some 1 ∧ (wCtx 2 wDescT [c]).listOf c = some (wList 2 wDescT 1) ∧ c.fault = none ∧ c.reserved = 0
      ∧ (wCtx 2 wDescT [c]).opalConflict c.seq d.reads d.writes = false ∧ d.waits s = false
      ∧ s.claimable 1 1 2 (d.claims 1).1 (d.claims 1).2 = true)
    && P d

/-- Such a command meets `opalReady`. -/
theorem wOpal {s : State} {c : QCmd} {op : Nat} {plan : Nat → Ctx → QCmd → CList → Except Fail OpalPlan}
    {P : OpalPlan → Bool}
    (h : wOpalOk s c op plan P = true) :
    ∃ d, opalReady s 1 1 op (wCtx 2 wDescT [c]) c 1 (wList 2 wDescT 1) d plan ∧ P d = true := by
  unfold wOpalOk at h
  split at h
  · cases h
  · rename_i d e
    simp only [Bool.and_eq_true, decide_eq_true_eq] at h
    obtain ⟨⟨⟨⟨h1, hr⟩, h2⟩, h3, h4, h5, h6, h6r, h7, h8, h9⟩, hp⟩ := h
    refine ⟨d, ⟨h3, h4, h5, h6, h6r, e, wOkU h1, h7, h8, fun _ => h9, hr, .inr ?_⟩, hp⟩
    show s.hostWait 2 c d.reads = .ready false
    revert h2
    cases s.hostWait 2 c d.reads with
    | ready b => cases b <;> simp
    | held => simp
    | pages l => simp

/-- OCOPY of entry 1 to entry 2, OFILL and ODIGEST of entry 1, OGATHER of entry 7 through entry 5 into entry 4,
OSCATTER of entry 4 through entry 5 into entry 7, OSCATTER_ADD of entry 3 on itself, and the parity commands on
the four shards of entry 6. -/
def wCopy : QCmd := wCmd 0 2 1 0 (1 + 2 * 2 ^ 12 + 0xFFF * 2 ^ 30 + 0xFFF * 2 ^ 42)
def wFill : QCmd := wCmd 0 2 5 0 (1 + 0x80 * 2 ^ 32)
def wDigest : QCmd := wCmd 0 2 8 0 (1 + spmAddr 1 0x100 * 2 ^ 12)
def wGather : QCmd := wCmd 0 2 2 0 (7 + 4 * 2 ^ 12 + 5 * 2 ^ 24 + 2 ^ 36)
def wScatter : QCmd := wCmd 0 2 3 0 (4 + 7 * 2 ^ 12 + 5 * 2 ^ 24 + 2 ^ 36)
def wAdd (ordered : Nat) : QCmd := wCmd 0 2 4 0 (3 + 3 * 2 ^ 12 + 0xFFF * 2 ^ 24 + ordered)
def wEnc : QCmd := wCmd 0 2 6 0 (6 + 2 * 2 ^ 12)
def wRebuild : QCmd := wCmd 0 2 7 0 (6 + 2 * 2 ^ 12 + 2 ^ 16 + 2 ^ 20 + 3 * 2 ^ 21 + 2 ^ 25)

theorem test_witness_CopiesMoveElements :
    (∃ d, opalReady (wMover wCopy) 1 1 1 (wCtx 2 wDescT [wCopy]) wCopy 1 (wList 2 wDescT 1) d (wMover wCopy).copyPlan
      ∧ decide (2 ≤ (d.os.map (·.t)).length) = true)
    ∧ (255 : Nat) < 2 ^ (4 * elemNibs 7) :=
  ⟨wOpal (by decide +kernel), by decide⟩

theorem test_witness_FillAndDigest :
    (∃ d, opalReady (wMover wFill) 1 1 5 (wCtx 2 wDescT [wFill]) wFill 1 (wList 2 wDescT 1) d (wMover wFill).fillPlan
      ∧ decide ((d.os.map (·.t)).length = 1) = true)
    ∧ ∃ d, opalReady (wMover wDigest) 1 1 8 (wCtx 2 wDescT [wDigest]) wDigest 1 (wList 2 wDescT 1) d
        (wMover wDigest).digestPlan ∧ decide ((d.os.map (·.t)).length = 1) = true :=
  ⟨wOpal (by decide +kernel), wOpal (by decide +kernel)⟩

/-- What a gather and a scatter need of the tensors of their plan. -/
def wIndexed (s : State) (along : Nat) (oob bad : Bool) (d : OpalPlan) : Bool :=
  match d.os.map (·.t) with
  | [src, dst, idx] =>
    let es := s.indexEntries (s.pasidOf 2) idx
    es.any (·.2) == bad && decide (idx.pieces ≠ [])
      && (decide (firstOob ((if along = 0 then src else dst).extent.getD 1 1) es < es.length) == oob)
  | _ => false

/-- The same with an index entry of 3, out of bounds of two rows. -/
def wOob (c : QCmd) : State := { wMover c with mem := (spmAddr 1 0x400, 3) :: (wMover c).mem }

/-- The same with a poisoned index line. -/
def wBad (c : QCmd) : State := { wMover c with poison := [(spmAddr 1 0x400 / 64, true)] }

theorem test_witness_GatherAndScatter :
    (∃ d, opalReady (wMover wGather) 1 1 2 (wCtx 2 wDescT [wGather]) wGather 1 (wList 2 wDescT 1) d
        ((wMover wGather).indexPlan true) ∧ wIndexed (wMover wGather) 0 false false d = true)
    ∧ (∃ d, opalReady (wOob wGather) 1 1 2 (wCtx 2 wDescT [wGather]) wGather 1 (wList 2 wDescT 1) d
        ((wOob wGather).indexPlan true) ∧ wIndexed (wOob wGather) 0 true false d = true)
    ∧ (∃ d, opalReady (wBad wGather) 1 1 2 (wCtx 2 wDescT [wGather]) wGather 1 (wList 2 wDescT 1) d
        ((wBad wGather).indexPlan true) ∧ wIndexed (wBad wGather) 0 false true d = true)
    ∧ ∃ d, opalReady (wMover wScatter) 1 1 3 (wCtx 2 wDescT [wScatter]) wScatter 1 (wList 2 wDescT 1) d
        ((wMover wScatter).indexPlan false)
        ∧ (wIndexed (wMover wScatter) 1 false false d && !(wMover wScatter).steady 2) = true :=
  ⟨wOpal (by decide +kernel), wOpal (by decide +kernel), wOpal (by decide +kernel), wOpal (by decide +kernel)⟩

/-- The rental core with partition 3 in steady mode. -/
def wSteady (c : QCmd) : State :=
  let s := wMover c
  { s with cut := { s.cut with active := put none s.cut.active (5 * 2 ^ 24 + 3) (some (4 * 2 ^ 48 + 2 ^ 72 + 2 ^ 73)) } }

/-- OSCATTER_ADD of entry 4 through entry 5 into entry 7. -/
def wAddIdx : QCmd := wCmd 0 2 4 0 (4 + 7 * 2 ^ 12 + 5 * 2 ^ 24 + 2 ^ 36)

/-- An ordered add, and what its line holds of it. -/
def wOrd (n : Nat) : OrdAdd := ⟨spmAddr 1 0 / 64, n, 2, 9, [(60, 5)], false, 2, 1, 1, 0, 0⟩

/-- The rental core whose table has a buffer of host memory in place of its scratchpad buffer. -/
def wHostMover (c : QCmd) : State :=
  let t : Bytes := leBytes 1 2 ++ wTable.drop 1
  { wMover c with mem := (t.zipIdx.filter fun q => q.1 ≠ 0).map fun q => (vaultAddr 1 0x1000 + q.2, q.1) }

/-- A state in which logical core 1 has no physical core. -/
def wUnmapped (s : State) : State := s.setSlotMap 0 1 15

/-- A state whose core 1 has a write of an ended context to the line of an address in flight. -/
def wLoose (s : State) (a : Nat) : State :=
  s.setCore 1 { s.core 1 with loose := [⟨1, 0, 2, 0, [⟨a / 64, [(a, 7)], none⟩]⟩] }

/-- Such a state has a premise of the ordered adds. -/
theorem wFaultless {s : State} {a : OrdAdd}
    (h : (match s.ctx a.core a.slot with
      | some x => decide (∀ c, x.cmd a.seq = some c → c.fault = none)
      | none => true) = true) : s.faultless a := by
  intro x c hx hc
  rw [hx] at h
  exact of_decide_eq_true h c hc

theorem test_witness_OrderedAdds :
    ((∃ d, opalReady (wMover (wAdd 0)) 1 1 4 (wCtx 2 wDescT [wAdd 0]) (wAdd 0) 1 (wList 2 wDescT 1) d
        (wMover (wAdd 0)).addPlan ∧ decide ((d.os.map (·.t)).length = 2) = true)
      ∧ (wAdd 0).pay 39 4 = 0
      ∧ (∃ d, opalReady (wSteady (wAdd (2 ^ 39))) 1 1 4 (wCtx 2 wDescT [wAdd (2 ^ 39)]) (wAdd (2 ^ 39)) 1
          (wList 2 wDescT 1) d (wSteady (wAdd (2 ^ 39))).addPlan ∧ decide ((d.os.map (·.t)).length = 2) = true)
      ∧ (wAdd (2 ^ 39)).pay 39 4 ≠ 0 ∧ (wMover (wAdd 0)).steady 2 = false
      ∧ (wSteady (wAdd 0)).steady 2 = true
      ∧ (∃ d, opalReady (wMover wAddIdx) 1 1 4 (wCtx 2 wDescT [wAddIdx]) wAddIdx 1 (wList 2 wDescT 1) d
          (wMover wAddIdx).addPlan ∧ wIndexed (wMover wAddIdx) 1 false false d = true)
      ∧ (∃ d, opalReady (wHostMover (wAdd 0)) 1 1 4 (wCtx 2 wDescT [wAdd 0]) (wAdd 0) 1 (wList 2 wDescT 1) d
          (wHostMover (wAdd 0)).addPlan ∧ (decide ((d.os.map (·.t)).length = 2) && d.os.all fun o => o.t.buf.host) = true)
      ∧ ∃ d, opalReady (wHostMover wAddIdx) 1 1 4 (wCtx 2 wDescT [wAddIdx]) wAddIdx 1 (wList 2 wDescT 1) d
          (wHostMover wAddIdx).addPlan
          ∧ (wIndexed (wHostMover wAddIdx) 1 false false d && d.os.all fun o => o.t.buf.host) = true)
    ∧ (let s : State := { wOn with adds := [wOrd 0, wOrd 1], refused := [wOrd 1] }
       let t : State := { wOn with adds := [wOrd 0] }
       let l : OrdLine := ⟨spmAddr 1 0 / 64, 1, [wOrd 2], 0, none⟩
       let u : State := { (wOn.setFld F.SYNC_CTL_wait_limit_ms 0 1) with
         ordered := [l], time := { wOn.time with clk := 1000000 } }
       s.adds[1]? = some (wOrd 1)
        ∧ ((s.adds.take 1 ++ s.refused).any fun b => b.core = (wOrd 1).core ∧ b.line = (wOrd 1).line) = true
        ∧ t.adds[0]? = some (wOrd 0)
        ∧ ((t.adds.take 0 ++ t.refused).any fun b => b.core = (wOrd 0).core ∧ b.line = (wOrd 0).line) = false
        ∧ t.inOrder 1 0 [(wOrd 0).line] = true ∧ t.rangeHeld ((wOrd 0).line * 64) 64 = false
        ∧ t.rangeLost ((wOrd 0).line * 64) 64 = false
        ∧ ((wUnmapped t).rangeLost ((wOrd 0).line * 64) 64 = true ∧ (wUnmapped t).rangeHeld ((wOrd 0).line * 64) 64 = false
          ∧ (t.setFld F.HLTH_UNIT_state 1 3).rangeHeld ((wOrd 0).line * 64) 64 = true)
        ∧ t.ordered = [] ∧ wOn.orderedWait (wOn.homeOf (wOrd 1).line) < 1024
        ∧ s.refused[0]? = some (wOrd 1)
        ∧ u.ordered.find? (fun q => q.line = l.line) = some l ∧ u.fld F.SYNC_CTL_wait_limit_ms 0 ≠ 0 ∧ l.waiting ≠ []
        ∧ l.late = none ∧ l.since + u.fld F.SYNC_CTL_wait_limit_ms 0 * 1000000 ≤ u.time.clk
        ∧ wOn.ctx 1 1 = none ∧ (wMover wCopy).faultless (wOrd 0) ∧ (wOrd 0).elems = [(60, 5)])
    ∧ (let c := { wCopy with phase := .started, toIssue := 2, inFlight := 1 }
       let tr : List LineOut := [⟨spmAddr 1 0 / 64, [(spmAddr 1 0, 7)], none⟩]
       let r := { c with readsLeft := 1 }
       let w := { c with todo := [tr], stamps := [0] }
       let s := wLoose wOn (spmAddr 1 0)
       let at0 (u : State) : Option Nat :=
         (u.core 1).loose.findIdx? fun f => f.slot = 1 && u.landable 1 7 f.seq f.stamp f.lines
       let mine (u : State) : Option Nat :=
         (w.issued.zip w.stamps).findIdx? fun t => u.landable 1 1 w.seq t.2 t.1
       let held (s : State) : State := s.setFld F.HLTH_UNIT_state 1 3
       (∃ x, (wMover r).ctx 1 1 = some x ∧ x.moving = some r ∧ 0 < r.inFlight ∧ x.cmd r.seq = some r ∧ r.fault = none
          ∧ 0 < r.readsLeft)
        ∧ (∃ x, (wMover w).ctx 1 1 = some x ∧ x.moving = some w ∧ 0 < w.inFlight ∧ x.cmd w.seq = some w ∧ w.fault = none
          ∧ w.readsLeft = 0 ∧ w.todo = [tr])
        ∧ (∃ x, (held (wMover w)).ctx 1 1 = some x ∧ x.moving = some w ∧ x.cmd w.seq = some w)
        ∧ (at0 s = some 0 ∧ (s.core 1).loose.length = 1 ∧ at0 (wUnmapped s) = some 0
          ∧ (s.core 1).loose.all (fun f => !s.transLost f.lines && (wUnmapped s).transLost f.lines) = true
          ∧ at0 (wMover w) = none ∧ at0 (wMover r) = none ∧ at0 (held (wMover w)) = none)
        ∧ (mine (wMover w) = some 0 ∧ (wMover w).transLost tr = false ∧ mine (held (wMover w)) = none)
        ∧ (let o : LineOut := ⟨spmAddr 1 0 / 64, [], some { wOrd 0 with contribs := 1 }⟩
           o.ordered = none)
        ∧ ∀ o ∈ tr, o.line * 64 < 2 ^ 70 ∧ (wMover w).rangeHeld (o.line * 64) 64 = false
          ∧ (∀ m ∈ coresAt (o.line * 64) 64, ((wMover w).physOf m).isSome = true)
          ∧ (held (wMover w)).rangeHeld (o.line * 64) 64 = true ∧ (o.bytes.map (·.1)).Nodup) := by
  refine ⟨⟨wOpal ?_, ?_, wOpal ?_, ?_, ?_, ?_, wOpal ?_, wOpal ?_, wOpal ?_⟩,
    ⟨?_, ?_, ?_, ?_, ?_, ?_, ?_, ?_, ?_, ?_, ?_, ?_, ?_, ?_, ?_, ?_, ?_, wFaultless ?_, ?_⟩,
    ⟨_, rfl, ?_⟩, ⟨_, rfl, ?_⟩, ⟨_, rfl, ?_⟩, ?_, ?_, ?_, ?_⟩ <;> decide +kernel

theorem test_witness_ParityRebuildsTwoLostBytes :
    parityRebuild 2 [0x01, 0x02, 0x03, 0x05] [] = [1, 2] ++ [parityP [1, 2], parityQ [1, 2]]
    ∧ parityRebuild 2 [9, 9, 0x03, 0x05] [0, 1] = [1, 2] ++ [parityP [1, 2], parityQ [1, 2]]
    ∧ parityRebuild 2 [1, 9, 0x03, 9] [1, 3] = [1, 2] ++ [parityP [1, 2], parityQ [1, 2]] := by
  decide +kernel

theorem test_witness_ParityCommands :
    (∃ d, opalReady (wMover wEnc) 1 1 6 (wCtx 2 wDescT [wEnc]) wEnc 1 (wList 2 wDescT 1) d
        ((wMover wEnc).parityPlan true) ∧ decide ((d.os.map (·.t)).length = 1) = true)
    ∧ ∃ d, opalReady (wMover wRebuild) 1 1 7 (wCtx 2 wDescT [wRebuild]) wRebuild 1 (wList 2 wDescT 1) d
        ((wMover wRebuild).parityPlan false) ∧ decide ((d.os.map (·.t)).length = 1) = true :=
  ⟨wOpal (by decide +kernel), wOpal (by decide +kernel)⟩

/-- The rows of bank 127 are being copied. -/
def wCopying : State :=
  let z := wOn.core 1
  wOn.setCore 1 { z with spares := { z.spares with rowCopies := [⟨vaultBank 0x40, 4607⟩], bankCopies := [⟨127, 0⟩] } }

theorem test_witness_VaultLines :
    locate (vaultAddr 1 0x40) = .vault 1 0x40 ∧ wOn.physOf 1 = some 1
    ∧ locate (vaultAddr 1 0x7F) = .vault 1 0x7F ∧ vaultAddr 1 0x7F % 64 + [(7 : Byte)].length ≤ 64
    ∧ wOn.vaultWaits 1 0x40 = false ∧ wOn.vaultWaits 1 0x7F = false
    ∧ (wUnmapped wOn).physOf 1 = none
    ∧ wCopying.physOf 1 = some 1 ∧ wCopying.vaultWaits 1 0x40 = true ∧ (wOn.setFld F.HLTH_UNIT_state 1 3).vaultWaits 1 0x40 = true := by
  decide +kernel

theorem test_witness_ScrubbingAndSparing :
    wOn.logicalOf 1 = some 1
    ∧ locate (spmAddr 1 0) = .spm 1 0 ∧ wOn.physOf 1 = some 1 ∧ locate (clmAddr 31 0x7FFFFF) = .clm 31 0x7FFFFF
    ∧ (wCopying.core 1).spares.rowCopies = [⟨vaultBank 0x40, 4607⟩] ∧ (wCopying.core 1).spares.bankCopies = [⟨127, 0⟩]
    ∧ (wCopying.core 1).memHeld = [] ∧ wCopying.coreDown 1 = false := by
  decide +kernel

/-- A command held by its claim of granule 63 of its scratchpad and granule 1 of a cluster memory. -/
def wHeld : QCmd := { wCopy with claim := true, needs := [63], needsClm := [1] }

theorem test_witness_GranulesAndRemoteRequests :
    (let s := wOn.setCore 1 { wOn.core 1 with zeroing := 2 ^ 63 }
     bitOf (s.core 1).zeroing 63 = true ∧ s.logicalOf 1 = some 1 ∧ (s.core 1).lastDrains = false
      ∧ s.looseMeets (granuleAddr 1 63) 0x10000 = false ∧ (wLoose s (granuleAddr 1 63)).looseMeets (granuleAddr 1 63) 0x10000 = true)
    ∧ (wOn.looseMeets (clmAddr 31 (127 * 0x10000)) 0x10000 = false
      ∧ (wLoose wOn (clmAddr 31 (127 * 0x10000))).looseMeets (clmAddr 31 (127 * 0x10000)) 0x10000 = true)
    ∧ (wOn.setFld F.CLU_CLM_GRANULE_zeroing (31 * 128 + 127) 1).fld F.CLU_CLM_GRANULE_zeroing (31 * 128 + 127) ≠ 0
    ∧ (let s := wMover wHeld
       (∃ x, s.ctx 1 1 = some x ∧ x.head 2 = some wHeld) ∧ wHeld.claim = true
        ∧ (s.setFld F.CLU_CLM_GRANULE_owner 1 0x1FF).claimable 1 1 2 [63] [1] = true
        ∧ (s.setCore 1 { s.core 1 with zeroing := 2 ^ 63 }).claimable 1 1 2 [63] [1] = false)
    ∧ (let c := { wCopy with phase := .started }
       let s := wMover c
       locate (spmAddr 2 0) = .spm 2 0 ∧ (∃ x, s.ctx 1 1 = some x ∧ x.queueOf 2 = [c]) ∧ s.logicalOf 1 = some 1
        ∧ s.mayReach 2 1 (spmAddr 2 0) 1 false = false ∧ locate (spmAddr 1 0) = .spm 1 0 ∧ s.physOf 2 = some 2 ∧ s.coreDown 2 = false
        ∧ s.physOf 1 = some 1 ∧ s.coreDown 1 = false ∧ (s.setFld F.HLTH_UNIT_state 1 3).coreDown 1 = true) := by
  refine ⟨?_, ?_, ?_, ⟨⟨_, rfl, ?_⟩, ?_⟩, ⟨?_, ⟨_, rfl, ?_⟩, ?_⟩⟩ <;> decide +kernel

theorem test_witness_VaultPages :
    (let i := 287 * 576 + 575
     let l := (wOn.setFld F.CORE_VAULT_PAGE_owner i 2).setFld F.SLC_STATE_tdi_state 2 2
     l.tdiLocked (l.fld F.CORE_VAULT_PAGE_owner i) = true
      ∧ wOn.tdiLocked (wOn.fld F.CORE_VAULT_PAGE_owner i) = false ∧ wOn.zeroingPage i = none
      ∧ (wOn.setSlice 3 { wOn.slice 3 with zeroPages := [i] }).zeroingPage i = some 3)
    ∧ (let s := wOn.setSlice 3 { wOn.slice 3 with zeroPages := [576 + 4], deferred := some 5, release := true }
       (s.slice 3).zeroPages = [576 + 4] ∧ s.logicalOf ((576 + 4) / 576) = some 1) := by
  decide +kernel

/-- The rental core whose context's record is zeros, as its save area. -/
def wZeros (restore : Bool) : State :=
  let s := wPut wOn 1 1 { wCtx 2 wDescT [wCopy] with record := List.replicate 0x4000 0 }
  s.setCore 1 { s.core 1 with evict := some ⟨1, restore⟩ }

/-- Memory with nothing listed reads as zeros. -/
theorem wBlankMem {s : State} (h : s.mem = []) (a n : Nat) : s.bytesAt a n = List.replicate n 0 := by
  simp [State.bytesAt, State.byte, h, look, List.map_const']

theorem test_witness_EvictionAndRestore :
    (wOn.setFld F.CORE_CTX_CMD_busy 1 1).fld F.CORE_CTX_CMD_busy 1 = 1
    ∧ wOn.fld F.CORE_CTX_CMD_busy 1 = 0 ∧ wOn.evictable 1 1 = false ∧ (wMover wCopy).evictable 1 1 = true
    ∧ ((wZeros false).logicalOf 1 = some 1 ∧ ((wZeros false).ctx 1 1).isSome = true
        ∧ ((wZeros false).core 1).evict = some ⟨1, false⟩ ∧ (wZeros false).spillReady 1 1 1 = true
        ∧ (∀ r ∈ ((wZeros false).core 1).port, r.slot ≠ 1) ∧ (wZeros false).fld F.CORE_LEASE_STATUS_rental_slot 1 = 1)
    ∧ (((wZeros true).core 1).evict = some ⟨1, true⟩ ∧ (wZeros true).fld F.CORE_LEASE_STATUS_phase 1 = 0
        ∧ (∀ r ∈ (wZeros true).spillRanges 1 1 1, (wZeros true).rangeHeld r.1 r.2 = false)
        ∧ (wZeros true).anyPoison (vaultAddr 1 (saveArea 1)) 0x4000 = false)
    ∧ ∃ x, (wZeros true).ctx 1 1 = some x ∧ (wZeros true).bytesAt (vaultAddr 1 (saveArea 1)) 0x4000 = x.record := by
  refine ⟨?_, ?_, ?_, ?_, ?_, ?_, ⟨_, rfl, wBlankMem ?_ _ _⟩⟩ <;> decide +kernel

/-- A step template of one member at 0x10000 of the vault of core 1, with a step buffer of 8 rows at 0x20000. -/
def wTemplate : Bytes :=
  leBytes 4 0x32544E46 ++ leBytes 2 1 ++ leBytes 2 1 ++ leBytes 8 (vaultAddr 1 0x20000) ++ leBytes 4 8 ++ leBytes 4 4
    ++ leBytes 1 4 ++ leBytes 7 0 ++ leBytes 4 1000 ++ leBytes 28 0 ++ wBytes (wDesc 1 (vaultAddr 1 0x3000) 1)

/-- A sequence of slice 2. -/
def wSeq : Seq :=
  { state := 2, keep := false, inStep := false, cancelPending := false, outStall := false, slice := 2, seqId := 7, n := 4,
    pending := some 9, maxLen := 100, promptLeft := 0, tokAddr := 0x8000, kvDir := vaultAddr 1 0x40000,
    seed := 0, temperature := 0, topP := 0x3F800000, topK := 1, draftMax := 1, stopCount := 0, stopIds := [], tree := [],
    lastStep := 0, commitMask := 0, commitBase := 0, emitted := 0, order := 0 }

/-- The device with that template bound by slice 2, an output ring of 64 records, and a list of sequences. -/
def wLamp (qs : List Seq) : State :=
  let s := ((wOn.setFld F.PORTAL_STEP_BIND_table 2 (vaultAddr 1 0x10000 / 64)).setFld
    F.PORTAL_OUT_RING_size_code 2 1).setFld F.LAMP_SLICE_CFG_seq_limit 2 16
  { s.setFld F.PORTAL_SEQ_CREDITS_seq_available 2 16 with
    mem := (wTemplate.zipIdx.filter fun q => q.1 ≠ 0).map fun q => (vaultAddr 1 0x10000 + q.2, q.1)
    seqs := qs.zipIdx.map fun q => (q.2, some q.1) }

/-- A sequence command. -/
def wSeqCmd (op flags seqId tokCount : Nat) : Bytes :=
  leBytes 1 op ++ leBytes 1 flags ++ leBytes 2 0 ++ leBytes 4 seqId ++ leBytes 8 0x8000 ++ leBytes 4 tokCount
    ++ leBytes 4 100 ++ leBytes 8 (vaultAddr 1 0x40000) ++ leBytes 8 0 ++ leBytes 4 0 ++ leBytes 4 0x3F800000
    ++ leBytes 2 1 ++ leBytes 1 1 ++ leBytes 77 0

theorem test_witness_SequencesAndTheirRecords :
    (wOn.fld F.SLC_STATE_state 2 ≠ 0 ∧ wOn.viaOk 2 none = true ∧ (wSeqCmd 1 0 8 4).length = 128)
    ∧ ((wLamp []).seqOpen 2 = true ∧ 0 < (wLamp []).fld F.PORTAL_SEQ_CREDITS_seq_available 2
      ∧ (wOn.setFld F.PORTAL_SEQ_CREDITS_seq_available 2 0).fld F.PORTAL_SEQ_CREDITS_seq_available 2 = 0)
    ∧ ((wLamp []).seqStatus 2 (SeqCmd.ofBytes (wSeqCmd 0 0 8 4)) ≠ 0)
    ∧ ((wLamp []).seqStatus 2 (SeqCmd.ofBytes (wSeqCmd 1 0 8 4)) = 0
      ∧ (wLamp []).freeSeq ((wLamp []).lampDie 2) = some 0)
    ∧ (let s := wLamp [{ wSeq with state := 3 }]
       s.seqStatus 2 (SeqCmd.ofBytes (wSeqCmd 2 0 7 4)) = 0 ∧ s.findSeq 2 7 = some (0, { wSeq with state := 3 }))
    ∧ (let s := wLamp [wSeq]
       s.seqStatus 2 (SeqCmd.ofBytes (wSeqCmd 3 0 7 4)) = 0 ∧ s.seqStatus 2 (SeqCmd.ofBytes (wSeqCmd 4 1 7 4)) = 0
        ∧ bitOf (SeqCmd.ofBytes (wSeqCmd 4 1 7 4)).flags 3 = false ∧ s.outRoom 2 = true ∧ (s.lampSlice 2).out = [])
    ∧ (let s := (wLamp []).setLamp 2 { LampSlice.init with acks := [⟨1, 0, 7⟩], firstAt := some 0 }
       (s.lampSlice 2).acks = [⟨1, 0, 7⟩] ∧ (s.lampSlice 2).out = [] ∧ s.outRoom 2 = true
        ∧ ((s.slice 2).fenced = false ∧ s.fld F.SLC_CFG_ats_en 2 = 0 ∧ s.canIssue (fnOf 2) = true
          ∧ ∀ h ∈ s.host.held, h.who ≠ 2)
        ∧ (s.setFld F.PORTAL_OUT_PTR_head 2 64).outRoom 2 = false
        ∧ let u := (s.setFld F.PORTAL_OUT_COAL_coal_us 2 1)
          let u : State := { u with time := { u.time with clk := 1000 } }
          (u.lampSlice 2).firstAt = some 0 ∧ 0 + u.fld F.PORTAL_OUT_COAL_coal_us 2 * 1000 ≤ u.time.clk)
    ∧ ((wLamp []).lampSlice 2).firstAt = none := by
  decide +kernel

/-- The template that slice 2 has bound. -/
def wBound : Template := ⟨vaultAddr 1 0x10000, 1, vaultAddr 1 0x20000, 8, 4, 4, 1000⟩

/-- The same with slice 2 in fixed-batch mode and a STEP_TRIGGER at the head of its slot. -/
def wTrigger (c : QCmd) : State :=
  let s := wPut (wLamp []) 1 1 (wCtx 2 (wDesc 1 0x100 1) [c])
  { s with cut := { s.cut with
      active := put none s.cut.active (6 * 2 ^ 24 + 2) (some (7 * 2 ^ 32 + 3 * 2 ^ 52 + 2 ^ 64 + 2 ^ 81)) } }

theorem test_witness_StepsStart :
    (wOn.fld F.SLC_STATE_state 2 ≠ 0 ∧ wOn.viaOk 2 none = true ∧ wOn.mayStep 3 = true ∧ wOn.mayStep 4 = false)
    ∧ (let s := wLamp [wSeq]
       s.mayStep 2 = true ∧ s.bindHeld 2 = false ∧ (s.setFld F.HLTH_UNIT_state 1 3).bindHeld 2 = true
        ∧ s.cutBits 6 2 81 1 = 0 ∧ ((s.reportBind 2).unstall 2).binding 2 = some wBound
        ∧ (((s.reportBind 2).unstall 2).gather 2 wBound).2.rows = 1
        ∧ ((((wLamp []).reportBind 2).unstall 2).gather 2 wBound).2.rows = 0
        ∧ (((wLamp []).reportBind 2).unstall 2).binding 2 = some wBound)
    ∧ (let s := (wLamp []).setLamp 2 { LampSlice.init with batches := [(5, true, 1)] }
       (s.lampSlice 2).batches = [(5, true, 1)] ∧ s.binding 2 = some wBound ∧ s.mayStep 2 = true
        ∧ s.bindHeld 2 = false ∧ (s.setFld F.HLTH_UNIT_state 1 3).bindHeld 2 = true
        ∧ (s.setFld F.SLC_STATE_state 2 1).mayStep 2 = false)
    ∧ (let c := wCmd 0 3 7 0 (3 + 5 * 2 ^ 8 + 2 ^ 23)
       let s := wTrigger c
       s.startOp 1 1 3 7 = some (wCtx 2 (wDesc 1 0x100 1) [c], c) ∧ s.cutBits 6 2 81 1 = 1
        ∧ s.partitionOf 2 = some (c.pay 0 8) ∧ (s.binding 2).isSome = true ∧ s.permitted (c.pay 8 15) 2 = true
        ∧ c.pay 56 72 = 0 ∧ (s.lampSlice 2).batches.length < 4) := by
  decide +kernel

/-- A step of slice 2 over the entries `es`, with what it waits for and the statuses that have come. -/
def wRun (es : List StepEntry) (waiting : List Nat) (status : List (Nat × Nat)) (fixed : Bool) : StepRun :=
  { number := 1, entries := es, reserved := 0, waiting := waiting, status := status, fixed := fixed, doneId := 5, doneEn := true,
    doneValue := 1, stepBuf := vaultAddr 1 0x20000, rowsMax := 8, draftCap := 4, vocab := 1000 }

theorem test_witness_StepsComplete :
    (let t := wRun [] [1] [] true
     (((wLamp []).setLamp 2 { LampSlice.init with step := some t }).lampSlice 2).step = some t ∧ t.waiting ≠ [])
    ∧ (let t := wRun [] [] [(1, 0)] true
       t.waiting = [] ∧ wOn.fld F.SLC_STATE_state 2 ≠ 5 ∧ wOn.rangeHeld t.stepBuf (0x40 + 592 * t.rowsMax) = false
        ∧ (wOn.setFld F.SLC_STATE_state 2 5).fld F.SLC_STATE_state 2 = 5
        ∧ (wOn.setFld F.HLTH_UNIT_state 1 3).rangeHeld t.stepBuf (0x40 + 592 * t.rowsMax) = true)
    ∧ ((wRun [] [] [(1, 0)] true).failure = 0 ∧ (wRun [] [] [(1, 9)] true).failure ≠ 0
      ∧ (wLamp []).permitted 5 2 = true)
    ∧ (let e : StepEntry := ⟨0, 2, 0, 1⟩
       let t := wRun [e] [] [(1, 0)] false
       let s := (wLamp [wSeq]).setLamp 2 { LampSlice.init with step := some t }
       (s.lampSlice 2).step = some t ∧ t.entries = [e] ∧ look none s.seqs 0 = some wSeq ∧ wSeq.state ≠ 4 ∧ wSeq.slice = 2
        ∧ t.failure = 0 ∧ s.stepPoison t = false ∧ wSeq.n + 1 < wSeq.maxLen
        ∧ (wSeq.cut wSeq.n (s.walk t e.firstRow wSeq.rowsTree 64 0)).2 = 0)
    ∧ (let e : StepEntry := ⟨0, 1, 0, 4⟩
       let q := { wSeq with state := 1, promptLeft := 6 }
       let t := wRun [e] [] [(1, 0)] false
       let s := (wLamp [q]).setLamp 2 { LampSlice.init with step := some t }
       look none s.seqs 0 = some q ∧ t.failure = 0 ∧ s.stepPoison t = false ∧ e.kind ≠ 2 ∧ e.rows < q.promptLeft ∧ q.n + e.rows + 1 < q.maxLen) := by
  decide +kernel

/-- Core 1 with a context evicted from slot 1 that wants its granules back, a blocked one in slot 2, and a blocked
spell of 1 us. -/
def wBlocked : State :=
  let c := wCmd 0 3 0 (5 * 2 ^ 10 + 2 ^ 40 + 2 ^ 41 + 5 * 2 ^ 25 + 2 ^ 64) 0
  let x := { wCtx 2 (wDesc 1 0x100 1) [wCmd 0 3 0 0 0] with evicted := true, savedGranules := 1 }
  let y := { wCtx 3 (wDesc 1 0x100 1) [{ c with waitOk := false }] with restoredAt := none }
  let s := wPut (wPut wOn 1 1 x) 1 2 y
  let s := ((s.setFld F.CORE_SPM_OWNER_granules (4 + 2) 1).setFld F.CORE_SPM_OWNER_granules (4 + 1) 1).setFld
    F.CORE_LEASE_STATUS_rental_slot 1 2
  let s := s.setCore 1 { s.core 1 with blockedSpell := some (0, false) }
  { s.setFld F.LAMP_CTX_CFG_detect_us 0 1 with time := { s.time with clk := 1000 } }

theorem test_witness_ContextManagement :
    (wBlocked.spellDue 1 (wBlocked.core 1).blockedSpell = true ∧ (wBlocked.core 1).heldSpell = none
      ∧ wBlocked.wanting 1 = some 1)
    ∧ (wBlocked.autoEvict 1 = true ∧ wBlocked.victim 1 1 = some 2 ∧ wBlocked.fld F.CORE_CTX_CMD_busy 1 = 0
      ∧ wBlocked.evictable 1 2 = true)
    ∧ ((wBlocked.setFld F.CORE_SPM_OWNER_granules (4 + 2) 2).victim 1 1 = none)
    ∧ (wOn.spellDue 1 (wOn.core 1).blockedSpell = false ∧ wOn.spellDue 1 (wOn.core 1).heldSpell = false)
    ∧ (let x := Ctx.init 2 0 0
       let s := wPut wOn 1 1 x
       let s : State := { s with time := { s.time with clk := 65536000 } }
       s.idleDue 1 1 = true ∧ (s.core 1).held = [] ∧ wOn.idleDue 1 1 = false) := by
  decide +kernel

/-- A Beryl command of the rental core 1. -/
def wBer (op pay : Nat) : QCmd := wCmd 0 1 op 0 pay

theorem test_witness_BerylCommands :
    (let c := wBer 1 (2 ^ 59)
     berylReady (wMover c) 1 1 1 (wCtx 2 wDescT [c]) c 1 (wList 2 wDescT 1)
      ∧ (wMover c).moveCheck 1 1 1 (wCtx 2 wDescT [c]) c (wList 2 wDescT 1) false = .ok ()
      ∧ (∃ b, (wMover c).berBuf c (wList 2 wDescT 1) = .ok b)
      ∧ (wMover c).claimable 1 1 2 [0] [] = true)
    ∧ (let c := wBer 2 (2 ^ 59)
       berylReady (wMover c) 1 1 2 (wCtx 2 wDescT [c]) c 1 (wList 2 wDescT 1)
        ∧ (wMover c).moveCheck 1 1 1 (wCtx 2 wDescT [c]) c (wList 2 wDescT 1) true = .ok ()
        ∧ (∃ b, (wMover c).berBuf c (wList 2 wDescT 1) = .ok b))
    ∧ (let c := wBer 3 (4095 + (2 ^ 84 - 1) * 2 ^ 24)
       berylReady (wMover c) 1 1 3 (wCtx 2 wDescT [c]) c 1 (wList 2 wDescT 1)
        ∧ (wMover c).brunCheck 1 1 1 (wCtx 2 wDescT [c]) c (wList 2 wDescT 1) = .ok ()
        ∧ (wMover c).claimable 1 1 2
            (claimSets 1 (c.bound.filterMap fun w => ((wMover c).berEntry c (wList 2 wDescT 1) w.2).toOption)).1
            (claimSets 1 (c.bound.filterMap fun w => ((wMover c).berEntry c (wList 2 wDescT 1) w.2).toOption)).2
            = true
        ∧ (∃ v, (wMover c).berEntry c (wList 2 wDescT 1) 0 = .ok v) ∧ c.pay 12 12 = 0 ∧ c.pay 24 12 = 0xFFF)
    ∧ (let c := wBer 4 (13 + 3 * 2 ^ 4 + 7 * 2 ^ 8)
       berylReady (wMover c) 1 1 4 (wCtx 2 wDescT [c]) c 1 (wList 2 wDescT 1) ∧ c.pay 6 2 = 0 ∧ c.pay 104 24 = 0
        ∧ c.pay 0 4 + c.pay 4 2 ≤ 16)
    ∧ (let c := wBer 5 0
       berylReady (wMover c) 1 1 5 (wCtx 2 wDescT [c]) c 1 (wList 2 wDescT 1) ∧ c.pay 0 128 = 0)
    ∧ (let c := wBer 6 (1 + 2 ^ 79)
       berylReady (wMover c) 1 1 6 (wCtx 2 wDescT [c]) c 1 (wList 2 wDescT 1) ∧ c.pay 80 48 = 0
        ∧ ∀ i ∈ c.trimmed, (wMover c).berylRadio 1 (i / 32) ≤ i % 32 * 4096) := by
  refine ⟨⟨⟨?_, ?_, ?_⟩, wOkU ?_, wOk ?_, ?_⟩, ⟨⟨?_, ?_, ?_⟩, wOkU ?_, wOk ?_⟩, ⟨⟨?_, ?_, ?_⟩, wOkU ?_, ?_, wOk ?_, ?_⟩,
    ⟨⟨?_, ?_, ?_⟩, ?_⟩, ⟨⟨?_, ?_, ?_⟩, ?_⟩, ⟨⟨?_, ?_, ?_⟩, ?_⟩⟩ <;> decide +kernel

/-- The radio core 0 whose Beryl runs the one bundle `w` at bundle 0. -/
def wBundle (w : Nat) : State :=
  let s := wRadio { wBer 3 0 with phase := .started }
  let r := (s.core 0).beryl
  let m := ((leBytes 16 w).zipIdx.filter fun q => q.1 ≠ 0).map fun q => (2 * 2 ^ 20 + q.2, q.1)
  s.setCore 0 { s.core 0 with beryl := { r with bank0 := { r.bank0 with running := true, seq := 0 }, mem := m } }

/-- Such a bundle may issue. -/
def wIssues (w : Nat) : Bool :=
  decide ((wBundle w).bankIssues 0 0 = true ∧ (wBundle w).fetchable 0 0 (((wBundle w).berylBank 0 0).get kPC) = true
    ∧ w = leNat ((wBundle w).berylBytes 0 (2 * 2 ^ 20 + 16 * ((wBundle w).berylBank 0 0).get kPC) 16)
    ∧ ((wBundle w).berylBank 0 0).loops = [])

theorem test_witness_BundlesRun :
    (wOn.bankIssues 0 0 = false)
    ∧ wIssues (0x10 * 2 ^ 120 + 2 ^ 116 + 2 * 2 ^ 112 + 3 * 2 ^ 108) = true
    ∧ (let w := (2 ^ 40 + 2 ^ 34) * 2 ^ 48
       wIssues w = true ∧ w % 2 ^ 48 = 0 ∧ w / 2 ^ 96 = 0
        ∧ ∃ v, ((wBundle w).berylBank 0 0).vSlot (bits w 48 48) = .ok v)
    ∧ (wIssues (2 ^ 20) = true ∧ (∃ v, (wBundle (2 ^ 20)).berylTarget 0 0 ((wBundle (2 ^ 20)).berylBank 0 0) 0 0 64 false
          = .ok v) ∧ (wBundle (2 ^ 20)).berylTagged 0 0 64 = false)
    ∧ (let w := 3 * 2 ^ 20 + 1
       wIssues w = true ∧ ∃ v, (wBundle w).berylTarget 0 0 ((wBundle w).berylBank 0 0) 0 64 64 true = .ok v)
    ∧ wIssues (2 ^ 120) = true
    ∧ (wIssues (0x33 * 2 ^ 120) = true ∧ ((wBundle (0x33 * 2 ^ 120)).runBundle 0 0 0 [] []).toBool = false
      ∧ ∃ x, (wBundle (0x33 * 2 ^ 120)).ctx 0 0 = some x ∧ (x.cmd 0).isSome = true) := by
  refine ⟨?_, ?_, ⟨?_, ?_, ?_, wOk ?_⟩, ⟨?_, wOk ?_, ?_⟩, ⟨?_, wOk ?_⟩, ?_, ⟨?_, ?_, ⟨_, rfl, ?_⟩⟩⟩ <;> decide +kernel

/-- A configuration for cell 0: 15 kHz, 25 blocks, one port each way, plans at 0 of the cluster memory, and a report
ring of 64 records at `report`. -/
def wConfig (report : Nat) : Bytes :=
  leBytes 2 0 ++ leBytes 2 25 ++ leBytes 8 0 ++ leBytes 1 1 ++ leBytes 1 1 ++ leBytes 2 0 ++ leBytes 8 0 ++ leBytes 2 50
    ++ leBytes 2 1 ++ leBytes 28 0 ++ leBytes 8 report ++ leBytes 1 1 ++ leBytes 63 0

/-- The device with antenna streams bound to cell 0, and that configuration at host address 0x40. -/
def wCells : State :=
  { wOn.setFld F.CLU_CELL_CFG_ADDR_addr 0 1 with
    cut := { wOn.cut with active := wOn.cut.active ++ [(8 * 2 ^ 24 + 0x100, some 1)] }
    host := { wOn.host with
      mem := ((wConfig 0x10000).zipIdx.filter fun q => q.1 ≠ 0).map fun q => (0x40 + q.2, q.1) } }

/-- The same device, one of a pair. -/
def wCellPair : State := (wCells.setFld F.CLINK_PORT_STATUS_role 0 1).setFld F.CLINK_TWIN_STATUS_state 0 2

/-- The device with cell 0 active. -/
def wActive : State :=
  { wCells.setFld F.CLU_CELL_STATE_state 0 2 with
    cells := [(0, { CellRec.init with config := wConfig (clmAddr 0 0x1000 + 1) })] }

theorem test_witness_CellCommands :
    (wCells.pf1Ready = true ∧ wCells.cmdCheck 0 1 (wCells.hostBytes none (wCells.cfgAddr 0) 128) = 0
      ∧ wCells.cmdCheck 1023 1 (wCells.hostBytes none (wCells.cfgAddr 1023) 128) = 1
      ∧ wCells.cmdState 0 1 = 0 ∧ wCells.cmdState 0 3 ≠ 0 ∧ wActive.cmdState 0 3 = 0 ∧ wCells.canIssue 1 = true
      ∧ wCells.paired = false
      ∧ let s : State := { wCells with host := { wCells.host with pf1 := ⟨false, false, 0, 0⟩ } }
        s.cmdState 0 1 = 0 ∧ s.canIssue 1 = false)
    ∧ (wCellPair.paired = true ∧ wCellPair.cmdCheck 0 1 (wCellPair.hostBytes none (wCellPair.cfgAddr 0) 128) = 0
      ∧ let s : State := { wCellPair with host := { wCellPair.host with mem := [] } }
        s.paired = true ∧ s.cmdState 0 1 = 0 ∧ s.cfgFetchFails 0 = false
          ∧ s.cmdCheck 0 1 (s.hostBytes none (s.cfgAddr 0) 128) ≠ 0)
    ∧ (wActive.cmdCheck 0 2 (wActive.hostBytes none (wActive.cfgAddr 0) 128) = 0
      ∧ wActive.cmdCheck 0 3 (wActive.hostBytes none (wActive.cfgAddr 0) 128) = 0)
    ∧ ((wActive.cell 0).waiting = none
      ∧ let s : State := { wActive with cells := [(0, { CellRec.init with waiting := some ⟨1, 5, wConfig 0⟩ })] }
        (s.cell 0).waiting = some ⟨1, 5, wConfig 0⟩ ∧ s.total < 5
          ∧ 5 ≤ ({ s with time := { s.time with ns := 5 } } : State).total)
    ∧ (let s : State := { wCellPair with
         time := { wCellPair.time with ns := 5 }
         clink := { wCellPair.clink with twin := { wCellPair.clink.twin with moving := [(0, 7, true)] } }
         cells := [(0, { CellRec.init with waiting := some ⟨2, 5, []⟩ })] }
       (s.cell 0).waiting = some ⟨2, 5, []⟩ ∧ 5 ≤ s.total ∧ s.clink.twin.moving ≠ [] ∧ 0 ∈ s.twinPorts
        ∧ ∀ m ∈ s.clink.twin.moving, m.1 = 0)
    ∧ (wOn.setFld F.CLU_LANT_CTL_running 31 1).fld F.CLU_LANT_CTL_running 31 = 1
    ∧ wOn.fld F.CLU_LANT_CTL_running 31 ≠ 1
    ∧ (wOn.lanternReady 0 = true ∧ wOn.lanternReach 0 (clmAddr 0 0xFFFFF) 1 = true
      ∧ wOn.lanternReach 0 (clmAddr 0 0x100000) 1 = false)
    ∧ wActive.codecFree 0 := by
  refine ⟨?_, ?_, ?_, ?_, ?_, ?_, ?_, ?_, fun e _ t h => ?_, ?_⟩
  case refine_9 => cases h
  all_goals decide +kernel

/-- A configuration of 15 kHz whose every symbol is guard: TDD, one slot a period, no downlink, no uplink. -/
def wGuard : Bytes := (wConfig (clmAddr 0 0x1000 + 1)).set 4 1 |>.set 0x20 2

/-- An uplink packet of the last slot before time 0: its first resource block, one element of energy 9 each. -/
def wPacket : Bytes :=
  leBytes 9 0 ++ [0xFF, 0x90] ++ leBytes 7 0 ++ leBytes 2 1 ++ leBytes 12 0
    ++ (List.range 12).flatMap fun _ => leBytes 2 3 ++ leBytes 2 0

/-- A PUSCH entry of that block and symbol. -/
def wEntryUl : Bytes := leBytes 1 3 ++ leBytes 5 0 ++ leBytes 2 1 ++ leBytes 1 0 ++ leBytes 1 1 ++ leBytes 54 0

/-- Cell 0 active with that configuration and packet, and that entry owed. -/
def wHears (heard : List (Nat × Nat)) : State :=
  { wActive with cells := [(0, { CellRec.init with
      config := wGuard, inputs := [.packet none 10239 wPacket], work := [⟨10239, 7, wEntryUl⟩], heard := heard })] }

theorem test_witness_CellReports :
    (wCells.planConfig 0 = none
      ∧ wActive.planConfig 0 = some (wActive.cell 0).config
      ∧ (wActive.cell 0).lastPlan ≠ some (planSlot (wActive.cell 0).config wActive.total)
      ∧ let c := wActive.cell 0
        let s : State := { wActive with cells := [(0, { c with lastPlan := some (planSlot c.config wActive.total) })] }
        s.planConfig 0 = some c.config ∧ (s.cell 0).lastPlan = some (planSlot c.config s.total))
    ∧ (let c := wActive.cell 0
       let s : State := { wActive with mem := [(clmAddr 0 4, 1), (clmAddr 0 8, 1)] }
       planReady c.config wActive.total (s.bytesAt (clmAddr 0 (planBuf c.config (planSlot c.config s.total))) 64) = true
        ∧ planReady c.config wActive.total (wActive.bytesAt (clmAddr 0 (planBuf c.config 0)) 64) = false)
    ∧ wCells.cellPiped 0 = false ∧ (wHears []).cellPiped 0 = true
    ∧ (slotNamed wGuard (wHears []).total 1023 9 = 10239 ∧ ((wHears []).cell 0).heard.contains (10239, 0) = false
      ∧ 0 < cfgOccasions wGuard ∧ ((wHears [(10239, 0)]).cell 0).heard.contains (10239, 0) = true)
    ∧ ((0 : Rat) < 2 ∧ (0 : Rat) < (⟨5, 3, 3⟩ : Peak).energy)
    ∧ reportRoom (wHears []) 0
    ∧ (let s := wHears []
       (s.cell 0).periods ≠ some 10240 ∧ cfgSlots wGuard s.total / cfgPeriod wGuard = 10240 ∧ cfgPrb wGuard ≤ 275
        ∧ (∃ q, (subBands wGuard)[0]? = some q ∧ (s.idleEnergy 0 [10239] q).2.1 ≠ 0 ∧ (s.idleEnergy 0 [10239] q).1 ≠ 0)
        ∧ (let z : State := { s with cells := [(0, { s.cell 0 with inputs := [.packet none 10239 (wPacket.take 32 ++ leBytes 48 0)] })] }
           ∃ q, (subBands wGuard)[0]? = some q ∧ (z.idleEnergy 0 [10239] q).2.1 ≠ 0 ∧ (z.idleEnergy 0 [10239] q).1 = 0)
        ∧ (∃ q, (subBands wGuard)[1]? = some q ∧ (s.idleEnergy 0 [10239] q).2.1 = 0)
        ∧ ({ s with cells := [(0, { s.cell 0 with periods := some 10240 })] }.cell 0).periods = some 10240)
    ∧ (let s := wHears ((List.range 8).map fun i => (10239, i))
       (s.cell 0).work.find? (fun w => w.slot = 10239 % 2 ^ 40 && w.index = 7) = some ⟨10239, 7, wEntryUl⟩
        ∧ (s.cell 0).work.find? (fun w => w.slot = 10239 % 2 ^ 40 && w.index = 6) = none
        ∧ (∀ o < 8, (10239, o) ∈ (s.cell 0).heard) ∧ (planEntry wEntryUl).entryType = 3
        ∧ (planEntry (wEntryUl.set 0 4)).entryType ≠ 3 ∧ (energySum (s.allocation 0 10239 wEntryUl false)).1 ≠ 0)
    ∧ ringRoom ((wActive.setFld F.CLU_CELL_RING_PTR_head 0 64).fld F.CLU_CELL_RING_PTR_head 0)
        (wActive.fld F.CLU_CELL_RING_PTR_tail 0) (cfgRingLen (wActive.cell 0).config) = false := by
  refine ⟨?_, ?_, ?_, ?_, ?_, ?_, ⟨?_, ?_⟩, ⟨?_, ?_, ?_, ⟨_, rfl, ?_, ?_⟩, ⟨_, rfl, ?_, ?_⟩, ⟨_, rfl, ?_⟩, ?_⟩, ?_, ?_⟩ <;> decide +kernel

/-- A TBCC encode job of `c` blocks with a deadline. -/
def wJob (deadline c : Nat) : Bytes :=
  leBytes 1 8 ++ leBytes 3 0 ++ leBytes 4 deadline ++ leBytes 8 (clmAddr 0 0) ++ leBytes 8 (clmAddr 0 0x1000)
    ++ leBytes 8 0 ++ leBytes 4 0 ++ leBytes 4 64 ++ leBytes 4 64 ++ leBytes 2 c ++ leBytes 2 0 ++ leBytes 2 40
    ++ leBytes 4 0 ++ leBytes 1 2 ++ leBytes 9 0

/-- Cluster 0 with that job in ring 0 at a time of 500 ns. -/
def wRing (job : Bytes) : State :=
  { wOn.setFld F.JSP_RING_STATE_prod_seen 0 1 with
    time := { wOn.time with ns := 500 }
    mem := (job.zipIdx.filter fun q => q.1 ≠ 0).map fun q => (wOn.jobAddr 0 0 0 + q.2, q.1) }

/-- A decode job of two blocks, with a soft buffer, that runs in engine 0. -/
def wDecRun (op harq : Byte) : JspRun := ⟨0, 0, ((wJob 1500 2).set 0 op).set 0x1A harq, 0, [], [], false, []⟩
def wDec (op harq : Byte) : State :=
  (wRing (wDecRun op harq).job).setJsp 0 { JasperRec.init with running := [(0, some (wDecRun op harq))] }

/-- Job `b` with its output in the vault of core 1, at the end of its first block. -/
def wOut (b : Bytes) : State :=
  let b := b.take 16 ++ leBytes 8 (vaultAddr 1 0x1000) ++ b.drop 24
  wOn.setJsp 0 { JasperRec.init with running := [(0, some ⟨0, 0, b, 0, [], [], false, []⟩)] }

/-- Whether a buffer of that job is held, and whether one is lost. -/
def wOutIs (s : State) (held lost : Bool) : Bool :=
  (look none (s.jsp 0).running 0).any fun t => decide ((jobBuffers t.job).any (fun x => s.rangeHeld x.1 x.2) = held
    ∧ (jobBuffers t.job).any (fun x => s.rangeLost x.1 x.2) = lost)

theorem test_witness_JasperJobs :
    wOn.hasRings 0 = true
    ∧ (wOutIs ((wOut (wJob 1500 1)).setFld F.HLTH_UNIT_state 1 3) true false = true
      ∧ wOutIs (wUnmapped (wOut (wJob 1500 1))) false true = true)
    ∧ (∀ x ∈ jobBuffers (wJob 1500 2) ++ jobBuffers (wDecRun 7 0).job ++ jobBuffers (wDecRun 5 1).job,
        wOn.rangeHeld x.1 x.2 = false ∧ wOn.rangeLost x.1 x.2 = false)
    ∧ (let s := wRing (wJob 1500 1)
       s.nextJob 0 = some (0, 0, 1000) ∧ s.candidateJob 0 0 0 = wJob 1500 1 ∧ jobOp (wJob 1500 1) = 8
        ∧ s.radioEngine 0 0 = true ∧ s.fld F.JSP_ENGINE_busy 0 ≠ 1 ∧ s.jobCheck 0 (wJob 1500 1) = 0
        ∧ (s.jsp 0).parked.find? (fun t => t.ring = 0 ∧ t.index = 0) = none)
    ∧ (let s := wRing (wJob 100 1)
       s.nextJob 0 = some (0, 0, -400) ∧ s.jobCheck 0 (wJob 100 1) = 0)
    ∧ (let s := wRing (wJob 1500 300)
       s.nextJob 0 = some (0, 0, 1000) ∧ s.jobCheck 0 (wJob 1500 300) ≠ 0)
    ∧ (let b := (wJob 1500 1).set 0 9
       let s := wRing b
       s.nextJob 0 = some (0, 0, 1000) ∧ s.candidateJob 0 0 0 = b ∧ 8 < jobOp b ∧ s.jobCheck 0 b ≠ 0)
    ∧ (let t : JspRun := ⟨0, 0, wJob 1500 2, 1, [], [], false, []⟩
       let s := (wRing (wJob 1500 2)).setJsp 0 { JasperRec.init with parked := [t] }
       s.nextJob 0 = some (0, 0, 1000) ∧ jobOp (s.candidateJob 0 0 0) = 8
        ∧ (s.jsp 0).parked.find? (fun t => t.ring = 0 ∧ t.index = 0) = some t)
    ∧ (let t : JspRun := ⟨1, 0, wJob 9500 2, 0, [], [], false, []⟩
       let s := (wRing (wJob 1500 1)).setJsp 0 { JasperRec.init with running := [(0, some t)] }
       look none (wOn.jsp 0).running 0 = none ∧ look none (s.jsp 0).running 0 = some t ∧ jobDecode t.job = false
        ∧ t.blk + 1 < jobC t.job ∧ (s.candidates 0).any (fun c => decide (c.2.2 < s.slack t.job)) = true
        ∧ (wOn.candidates 0).all (fun c => decide (wOn.slack t.job ≤ c.2.2)) = true
        ∧ jobC (wJob 9500 1) ≤ 0 + 1)
    ∧ (look none ((wDec 7 0).jsp 0).running 0 = some (wDecRun 7 0) ∧ jobDecode (wDecRun 7 0).job = true
      ∧ 0 + 1 < jobC (wDecRun 7 0).job ∧ jobHarq (wDecRun 7 0).job = 0)
    ∧ (look none ((wDec 5 1).jsp 0).running 0 = some (wDecRun 5 1) ∧ jobDecode (wDecRun 5 1).job = true
      ∧ 0 + 1 < jobC (wDecRun 5 1).job ∧ jobHarq (wDecRun 5 1).job ≠ 0) := by
  refine ⟨?_, ?_, ?_, ?_, ?_, ?_, ?_, ?_, ?_, ?_, ?_⟩ <;> decide +kernel

/-- Interface 0 up and present, its transmitter as `r` says. -/
def wIf (r : IfRec) : State :=
  let s := (wCells.setFld F.FH_IF_STATUS_link_up 0 1).setFld F.FH_IF_STATUS_present 0 1
  { s with fh := { s.fh with ifs := [(0, r)] } }

/-- An eCPRI frame of type 0 with one block for eAxC 0 of VLAN 0, and its FCS. -/
def wFrame : Bytes :=
  leBytes 12 0 ++ [0x81, 0, 0, 0, 0xAE, 0xFE] ++ [0x10, 0, 0, 60] ++ leBytes 3 0 ++ [0x80] ++ leBytes 7 0 ++ [1] ++ leBytes 52 0

/-- A FIFO word, and FIFO 0 with such words. -/
def wWord (last : Bool) : FifoWord := ⟨leBytes 64 0, last, false⟩
/-- Interface 0 up, and its cell active. -/
def wRuns (fifo dir : Nat) : State :=
  ({ wIf IfRec.init with cells := wActive.cells }.setFld F.CLU_CELL_STATE_state 0 2).setFld F.FIFO_CFG_dir fifo dir

def wFifo (current : Bool) : State :=
  (wIf IfRec.init).setFifo 0 ⟨[wWord false, wWord true], current, none⟩

theorem test_witness_FramesAndFifos :
    ((wIf IfRec.init).linkUp 0 = true ∧ 64 ≤ wFrame.length ∧ wFrame.length ≤ 9216)
    ∧ (let s := wIf IfRec.init
       let b := wFrame.take (wFrame.length - 4)
       let h := frameHead b
       let p := (b.drop h.body).take (4 + beAt b (h.body + 2) 2)
       h.etype = 0xAEFE ∧ h.tagged = true ∧ ecpriOk b h.body = true ∧ beAt b 0 6 = s.fld F.FH_IF_STATUS_src_mac 0
        ∧ s.bindRx 0 h.vlan (beAt b (h.body + 4) 2) = some (0, false) ∧ beAt p 15 1 = 1
        ∧ 16 + 1 * blockLen (s.cellFh 0 123 1) (iqWidth (s.cellFh 0 118 4)) ≤ p.length
        ∧ p.length ≤ 20 + 1 * blockLen (s.cellFh 0 123 1) (iqWidth (s.cellFh 0 118 4))
        ∧ (s.fifo (s.ulFifo 0)).words.length + (1 + (48 * 1 + 31) / 32) ≤ 2048
        ∧ s.bindRx 0 1 0 = none ∧ s.cellRuns 0 = false ∧ (wRuns (s.ulFifo 0) 1).cellRuns 0 = true
        ∧ (wRuns (s.ulFifo 0) 1).bindRx 0 h.vlan 0 = some (0, false) ∧ (wRuns (s.ulFifo 0) 1).linkUp 0 = true
        ∧ (wRuns (s.ulFifo 0) 1).fld F.FIFO_CFG_dir (s.ulFifo 0) = 1
        ∧ beAt b 0 6 = (wRuns (s.ulFifo 0) 1).fld F.FH_IF_STATUS_src_mac 0
        ∧ ((wRuns (s.ulFifo 0) 1).fifo (s.ulFifo 0)).words = [])
    ∧ (let s := (wIf IfRec.init).setFld F.FH_HOST_RING_rx_code 0 1
       (frameHead ((leBytes 68 0).take 64)).etype ≠ 0xAEFE ∧ hostSlots (s.fld F.FH_HOST_RING_rx_code 0) = 16
        ∧ (s.fld F.FH_HOST_PTR_rx_head 0 + 65536 - s.fld F.FH_HOST_PTR_rx_tail 0) % 65536 < 16
        ∧ s.canIssue (fnOf 257) = true ∧ s.host.held = []
        ∧ hostSlots ((wIf IfRec.init).fld F.FH_HOST_RING_rx_code 0) = 0)
    ∧ ((wFifo false).fifo 0).current = false ∧ ((wFifo true).fifo 0).current = true
    ∧ (wFifo false).fld F.FIFO_CFG_legacy 0 = 0 ∧ ((wFifo false).setFld F.FIFO_CFG_legacy 0 1).fld F.FIFO_CFG_legacy 0 = 1
    ∧ ((wFifo false).fifo 511).words = [] ∧ ((wFifo false).fifo 0).words = [wWord false] ++ wWord true :: []
    ∧ ((wFifo false).setFld F.FIFO_CFG_dir 0 1).fld F.FIFO_CFG_dir 0 = 1
    ∧ (let s := (wFifo false).setFld F.FIFO_CFG_dir 0 2
       s.fld F.FIFO_CFG_dir 0 = 2 ∧ ([wWord false] ++ [wWord true]).head? = some (wWord false)
        ∧ leAt (wWord false).data 6 2 = 0 ∧ (s.entry 8 (0x100 + 0)).isSome = true
        ∧ (s.leaf (s.packetQueue (wWord false))).length < 512 ∧ s.cellRuns 0 = false
        ∧ s.pipedCells s.dlFifo 0 = []
        ∧ (let u : State := { wRuns 0 2 with fh := s.fh }
           u.cellRuns 0 = true ∧ (u.fifo 0).words = [wWord false] ++ wWord true :: [] ∧ u.fld F.FIFO_CFG_dir 0 = 2
            ∧ (u.entry 8 (0x100 + 0)).isSome = true ∧ (u.leaf (u.packetQueue (wWord false))).length < 512
            ∧ u.fld F.FIFO_CFG_legacy 0 = 0 ∧ u.pipedCells u.dlFifo 0 = [0]))
    ∧ (let u : State := { wRuns 0 1 with fh := (wFifo false).fh }
       u.packetCell 0 ([wWord false, wWord true].flatMap fun w => w.data) = some 0
        ∧ (wFifo false).packetCell 0 ([wWord false, wWord true].flatMap fun w => w.data) = none
        ∧ (u.fifo 0).words = [wWord false] ++ wWord true :: []) := by
  decide +kernel

/-- A frame of 60 bytes in a leaf queue. -/
def wFh : FhFrame := ⟨leBytes 60 0, none, 0, none⟩

/-- Interface 0 with that frame in queue `q`. -/
def wQueue (q : Nat) : State :=
  let s := wIf IfRec.init
  let s := s.setLeaf q [wFh]
  { s with fh := { s.fh with deficit := [(q, 64)] }, time := { s.time with ns := 5000 } }

/-- A gate list of one entry that starts at 0. -/
def wGate : GateList := ⟨true, 0, 1000, [(1000, 255)]⟩

theorem test_witness_FramesScheduled_late :
    let f : FhFrame := { wFh with launch := some 5 }
    let s := ((wQueue 0).setLeaf (subQueue 0 1) [f]).setFld F.FH_LATE_TOLERANCE_tol_ns 0 0
    s.leaf 2560 = [] ∧ s.leaf 2561 = [] ∧ s.subscribers 0 = [(0, 0)] ∧ s.leaf (subQueue 0 1) = [f]
    ∧ s.leaf (subQueue 0 2) = [] ∧ s.eligible 0 1 (some 0) f = true ∧ f.len ≤ s.deficitOf (subQueue 0 1)
    ∧ (f.launch.any fun x => decide (s.fld F.FH_LATE_TOLERANCE_tol_ns 0 < (-(s.launchDiff x)).toNat)) = true := by
  decide +kernel

theorem test_witness_FramesScheduled :
    (wOn.linkUp 31 = false ∧ (wQueue 2560).linkUp 0 = true ∧ ((wQueue 2560).ifRec 0).tx.isNone = true
      ∧ ((wQueue 2560).ifRec 0).oper = none)
    ∧ ((wQueue 2560).leaf 2560 = [wFh] ∧ (wQueue 2560).eligible 0 0 none wFh = true ∧ wFh.ring = none
      ∧ ((wQueue 2560).fld F.FH_HOST_PTR_tx_head 0 + 65536 - ((wQueue 2560).ifRec 0).read) % 65536 = 0)
    ∧ (let s : State := { wQueue 3 with cut := wOn.cut }
       s.leaf 2560 = [] ∧ s.leaf 2561 = [] ∧ s.subscribers 0 = []
        ∧ (s.fld F.FH_HOST_PTR_tx_head 0 + 65536 - (s.ifRec 0).read) % 65536 = 0)
    ∧ (let s := wQueue 0
       s.leaf 2560 = [] ∧ s.subscribers 0 = [(0, 0)] ∧ s.leaf (subQueue 0 1) = [wFh]
        ∧ s.eligible 0 1 (some 0) wFh = true ∧ wFh.len ≤ s.deficitOf (subQueue 0 1) ∧ wFh.launch.isNone = true
        ∧ (s.fld F.FH_HOST_PTR_tx_head 0 + 65536 - (s.ifRec 0).read) % 65536 = 0)
    ∧ (wOn.total / 1000 ≤ wOn.fh.refilled ∧ (wQueue 0).fh.refilled < (wQueue 0).total / 1000)
    ∧ (let s : State := { wOn with fh := { wOn.fh with shaper := [(1407, some (2 ^ 16 + 3))] } }
       look none s.fh.shaper 1407 = some (2 ^ 16 + 3) ∧ s.pf1Ready = true)
    ∧ (let s := (wOn.setFld F.FH_GATE_CTL_admin_len 0 1).setFld F.FH_GATE_CTL_cycle_ns 0 1000
       let s := s.setFld F.FH_GATE_CTL_wnc_mode 0 1
       256 < (s.setFld F.FH_GATE_CTL_admin_len 0 257).fld F.FH_GATE_CTL_admin_len 0
        ∧ s.fld F.FH_GATE_CTL_admin_len 0 = 1 ∧ 0 < s.fld F.FH_GATE_CTL_cycle_ns 0 ∧ s.fld F.FH_GATE_CTL_wnc_mode 0 = 1
        ∧ s.fld F.FH_GATE_BASE_epoch 0 * 2 ^ 32 + s.fld F.FH_GATE_BASE_base_wnc 0 < s.total + 1000
        ∧ s.total + 1000 ≤ (s.setFld F.FH_GATE_BASE_base_wnc 0 1000).fld F.FH_GATE_BASE_base_wnc 0)
    ∧ ((wOn.ifRec 0).pend = none ∧ (wOn.ifRec 0).oper = none
      ∧ ((wIf { IfRec.init with pend := some wGate }).ifRec 0).pend = some wGate ∧ wGate.start ≤ wOn.total
      ∧ ((wIf { IfRec.init with pend := some { wGate with start := 7 } }).ifRec 0).pend = some { wGate with start := 7 }
      ∧ wOn.total < 7 ∧ ((wIf { IfRec.init with oper := some wGate }).ifRec 0).oper = some wGate)
    ∧ (let s : State := { wQueue 2560 with time := { wOn.time with ns := 10000 } }
       wOn.total / 10000 ≤ wOn.fh.sampled ∧ s.fh.sampled < s.total / 10000 ∧ s.leafQueues.count 2561 = 1
        ∧ s.leaf 2561 = [])
    ∧ (let s := (wIf IfRec.init).setFld F.FH_HOST_RING_tx_code 0 1
       let s : State := { s with host := { s.host with mem := [(0, 60)] } }
       hostSlots (wOn.fld F.FH_HOST_RING_tx_code 31) = 0 ∧ hostSlots (s.fld F.FH_HOST_RING_tx_code 0) = 16
        ∧ (1 % 65536 + 65536 - (s.ifRec 0).read) % 65536 = 1 ∧ s.txRing 0 = 0 ∧ leAt (s.hostBytes none 0 16) 0 2 = 60
        ∧ s.hostError none 0 16 = false ∧ (s.leaf 2561).length < 512)
    ∧ (let s := wOn.setFld F.FH_IF_STATUS_present 0 1
       s.linkUp 0 = false ∧ s.mayLink 0 = true ∧ (wOn.mayLink 31 = false)) := by
  decide +kernel

/-- A delta image of one section of `count` entries whose bytes are `entries`, with a signature of zeros. -/
def wImage (ty count : Nat) (entries : Bytes) : Bytes :=
  leBytes 4 0x32434E46 ++ leBytes 2 1 ++ leBytes 1 1 ++ leBytes 1 0 ++ leBytes 4 (7936 + entries.length) ++ leBytes 2 1
    ++ leBytes 2 0 ++ leBytes 8 1 ++ leBytes 40 0 ++ leBytes 2 ty ++ leBytes 2 16 ++ leBytes 4 count ++ leBytes 4 0x50
    ++ leBytes 4 0 ++ entries ++ List.replicate 7856 0

/-- An image without entries, and one that returns core 0 of cluster 0 to service. -/
def wEmpty : Bytes := wImage 4 0 []
def wReturn : Bytes := wImage 10 1 (leBytes 16 (2 ^ 96))

/-- The device with an image in its buffer, the state of its load, and key slot 0 enrolled. -/
def wLoad (state tick : Nat) (image : Bytes) : State :=
  let s := (wOn.setFld F.CUT_STATUS_state 0 state).setFld F.CUT_STAGED_TICK_apply_tick 0 tick
  let s := (s.setFld F.CUT_CTL_len 0 image.length).setFld F.ONYX_KEY_SLOT_enrolled 0 1
  { s with cut := { s.cut with image := image, applyAt := tick }, time := { s.time with ns := 125000 } }

/-- A list of checks none of which fails. -/
theorem firstRej_none (l : List (Option CutRej)) (h : ∀ a ∈ l, a = none) : firstRej l = none := by
  unfold firstRej
  cases e : l.find? Option.isSome with
  | none => rfl
  | some a => exact h a (List.mem_of_find?_eq_some e)

/-- With an image that its signature check passes; no value of that check is in the model (log entry 10). -/
theorem test_witness_CutImages_accepted
    (h : Config.slhVerify 0 ((wLoad 1 0 wEmpty).keyOf 0) (wEmpty.take 80) (wEmpty.drop 80) = true) :
    (wLoad 1 0 wEmpty).cutCheck = none := by
  have form : cutForm (wLoad 1 0 wEmpty).cut.image ((wLoad 1 0 wEmpty).fld F.CUT_CTL_len 0) = none := by decide +kernel
  have fetched : (wLoad 1 0 wEmpty).cut.fetchFailed = false := by decide +kernel
  unfold State.cutCheck
  simp only [form, fetched, Bool.false_eq_true, if_false]
  apply firstRej_none
  have len : (wLoad 1 0 wEmpty).fld F.CUT_CTL_len 0 - 7856 = 80 := by decide +kernel
  have slot : leAt (wLoad 1 0 wEmpty).cut.image 7 1 = 0 := by decide +kernel
  have img : (wLoad 1 0 wEmpty).cut.image = wEmpty := rfl
  rw [len, slot, img, h]
  decide +kernel

theorem test_witness_CutImages :
    (wOn.fld F.CUT_STATUS_state 0 = 0 ∧ 4 ≤ wOn.bootState ∧ wOn.canIssue 0 = true
      ∧ ({ wOn with host := { wOn.host with pf0 := ⟨false, false, 0, 0⟩ } } : State).canIssue 0 = false
      ∧ (wLoad 1 0 wEmpty).fld F.CUT_STATUS_state 0 = 1 ∧ (wLoad 1 0 wEmpty).cutApplies = false
      ∧ (wLoad 2 1 wEmpty).cutApplies = true ∧ State.reset.bootState < 4)
    ∧ ((wLoad 1 0 wEmpty).cut.waiting = none ∧ (wLoad 1 0 []).cutCheck = some ⟨3, 0xFF, 0xFFFF⟩
      ∧ (wLoad 1 0 wEmpty).newPeriod wEmpty = (wLoad 1 0 wEmpty).fld F.TIME_TICK_STATUS_period_code 0)
    ∧ (let s := wLoad 2 5 wEmpty
       s.tickDue = some 1 ∧ s.cores = [] ∧ s.host.flr1 = false ∧ s.health.moves = [] ∧ s.health.installs = []
        ∧ s.fld F.CUT_STATUS_state 0 = 2 ∧ 1 < s.cut.applyAt)
    ∧ (let h : State := { wLoad 1 0 wEmpty with host := { wOn.host with pf0 := ⟨false, false, 0, 0⟩ } }
       let h (now : Nat) : State := { h.setFld F.SYNC_CTL_wait_limit_ms 0 1 with
         cut := { h.cut with waiting := some 0 }, time := { h.time with clk := now } }
       (h 0).canIssue 0 = false ∧ (h 0).cut.waiting = some 0 ∧ (h 0).heldOut 257 (some 0) = false
        ∧ (h 1000001).heldOut 257 (some 0) = true ∧ (h 0).fld F.CUT_STATUS_state 0 = 1
        ∧ ({ wLoad 1 0 wEmpty with cut := { wOn.cut with fetchFailed := true } } : State).cut.fetchFailed = true)
    ∧ (let s := wLoad 2 1 wEmpty
       let v := s.atBoundary 1
       s.cut.applyAt ≤ 1 ∧ v.newPeriod wEmpty = v.fld F.TIME_TICK_STATUS_period_code 0
        ∧ firstRej [v.cutReturns (cutEnts wEmpty), v.cutLive (v.withCut (v.resulting wEmpty)) wEmpty (cutEnts wEmpty),
          v.fhLive (v.withCut (v.resulting wEmpty)) wEmpty (cutEnts wEmpty)] = none)
    ∧ (let b := wEmpty.set 6 0
       let s := (wLoad 2 1 b).setFld F.DEV_STATUS_boot_state 0 4
       let v := s.atBoundary 1
       cutFull b = true ∧ s.bootState = 4 ∧ s.tickDue = some 1
        ∧ v.newPeriod b = v.fld F.TIME_TICK_STATUS_period_code 0
        ∧ firstRej [v.cutReturns (cutEnts b), v.cutLive (v.withCut (v.resulting b)) b (cutEnts b),
          v.fhLive (v.withCut (v.resulting b)) b (cutEnts b)] = none)
    ∧ (let s := wLoad 2 1 wReturn
       let v := s.atBoundary 1
       firstRej [v.cutReturns (cutEnts wReturn),
          v.cutLive (v.withCut (v.resulting wReturn)) wReturn (cutEnts wReturn),
          v.fhLive (v.withCut (v.resulting wReturn)) wReturn (cutEnts wReturn)] = some ⟨16, 0, 0⟩) := by
  decide +kernel

/-- Slice 2 in a state, with a command in progress. -/
def wSlice (st : Nat) (cmd : Option Nat) : State :=
  let s := wOn.setFld F.SLC_STATE_state 2 st
  s.setSlice 2 { s.slice 2 with command := cmd }

theorem test_witness_SliceStates :
    (wOn.setFld F.SLC_CMD_busy 255 1).fld F.SLC_CMD_busy 255 = 1 ∧ wOn.fld F.SLC_CMD_busy 2 = 0
    ∧ (wSlice 0 none).slState 2 = 0 ∧ (wSlice 1 none).slState 2 = 1 ∧ (wSlice 2 none).slState 2 = 2
    ∧ (wSlice 3 none).slState 2 = 3 ∧ (wSlice 4 none).slState 2 = 4 ∧ (wSlice 5 none).slState 2 = 5
    ∧ (wSlice 6 none).slState 2 = 6 ∧ (wSlice 7 none).slState 2 = 7
    ∧ ((wSlice 5 (some 16)).slice 2).command = some 16 ∧ (wSlice 5 (some 16)).inFlight 2 = false
    ∧ ({ wSlice 5 (some 16) with signals := [⟨5, false, 1, 0, 2⟩] } : State).inFlight 2 = true
    ∧ ((wSlice 2 (some 15)).slice 2).command = some 15
    ∧ (let h : HeldReq := ⟨257, .write none 0 [5] false, 0, none, false, some 2⟩
       let s := wSlice 2 (some 19)
       let s : State := { s with host := { s.host with held := [h] } }
       (s.slice 2).command = some 19 ∧ h ∈ s.host.held ∧ h.job = some 2 ∧ (wSlice 2 (some 19)).host.held = [])
    ∧ (let s := (wSlice 4 (some 18)).setFld F.SYNC_CTL_wait_limit_ms 0 1
       let s := s.setSlice 2 { s.slice 2 with since := some 0 }
       let u : State := { s with host := { s.host with pf0 := ⟨false, false, 0, 0⟩ } }
       let v : State := { u with time := { u.time with clk := 1000001 } }
       (s.slice 2).command = some 18 ∧ s.canIssue 0 = true ∧ u.canIssue 0 = false
        ∧ u.heldOut 257 (u.slice 2).since = false ∧ v.canIssue 0 = false ∧ v.heldOut 257 (v.slice 2).since = true)
    ∧ (wSlice 3 none).quiet 2 = true ∧ ((wSlice 3 none).setFld F.PORTAL_STATUS_accepted 2 1).quiet 2 = false
    ∧ ((wSlice 6 (some 17)).slice 2).zeroPages = [] ∧ (wSlice 6 none).partitionOf 4 = none := by
  decide +kernel

/-- An image of slice 3 without records: header with its CRC-64, and the portal section. -/
def wSaved : Bytes :=
  leBytes 4 0x32534E46 ++ leBytes 4 1 ++ leBytes 8 512 ++ leBytes 2 1 ++ leBytes 2 4 ++ leBytes 28 0
    ++ leBytes 8 16971940100463327026 ++ List.replicate 240 0 ++ leBytes 8 16 ++ List.replicate 208 0

/-- CRC-64 byte by byte, each register value in normal form before the next. -/
def crcForced : Nat → Bytes → Nat
  | c, [] => c
  | c, b :: bs =>
    match crcByte c b with
    | 0 => crcForced 0 bs
    | n + 1 => crcForced (n + 1) bs

theorem crcForced_eq (bs : Bytes) : ∀ c, crc64From c bs = crcForced c bs := by
  induction bs with
  | nil => intro c; rfl
  | cons b bs ih =>
    intro c
    show crc64From (crcByte c b) bs = _
    rw [ih, crcForced]
    split <;> simp_all

/-- Slice 3 QUIESCED with that image in its buffer. -/
def wImaged : State :=
  let s := (wOn.setFld F.SLC_STATE_state 3 4).setFld F.SLC_XFER_LEN_buf_len 3 512
  { s with host := { s.host with mem := hostStore [] (hostKey none 0) wSaved } }

/-- Its CRC is right, and it holds no record. -/
theorem wSaved_parse :
    imageParse wSaved = some ((wSaved.drop 0x10).take 8, (wSaved.drop 0x100).take 256, []) := by
  have crc : crc64 (wSaved.take 0x30 ++ leBytes 8 0 ++ wSaved.drop 0x38) = leAt wSaved 0x30 8 := by
    unfold crc64
    rw [crcForced_eq]
    decide +kernel
  have fits : leAt wSaved 0 4 = 0x32534E46 ∧ leAt wSaved 4 2 = 1 ∧ leAt wSaved 8 8 = wSaved.length
      ∧ ¬ wSaved.length < 0x200 := by decide +kernel
  have recs : ∀ n, n = 0 → imageRecs n (wSaved.drop 0x200) = some [] := fun n h => by
    subst h
    decide +kernel
  have none' : ((List.range 4).map fun i => leAt wSaved (0x18 + 4 * i) 4) = [0, 0, 0, 0] ∧ leAt wSaved 0x28 1 = 0 := by
    decide +kernel
  unfold imageParse
  simp only [none'.1, none'.2, crc, fits.1, fits.2.1, ← fits.2.2.1, List.foldl]
  rw [recs _ rfl]
  simp [fits.2.2.1, fits.2.2.2]

theorem wSaved_length : wSaved.length = 512 := by decide +kernel

theorem wImaged_mem : wImaged.host.mem = hostStore [] (hostKey none 0) wSaved := by
  unfold wImaged
  generalize wSaved = b
  rfl

theorem wImaged_bytes : wImaged.hostBytes none 0 512 = wSaved := by
  have h := State.hostBytes_hostStore wImaged none 0 wSaved (by rw [wSaved_length]; decide) wImaged_mem
  rwa [wSaved_length] at h

theorem wImaged_rest : (wSaved.drop 0x10).take 8 = wImaged.shapeOf 3 ∧ wImaged.slotsFor 3 [] = true
    ∧ wImaged.seqsOf 3 = [] ∧ wImaged.liveSeqs (wImaged.lampDie 3) = 0 := by
  decide +kernel

/-- An image without records of the right shape is accepted where the slice has no sequence. -/
theorem restoreCheck_empty (s : State) (sl q : Nat) (bs shape portal : Bytes) (parse : imageParse bs = some (shape, portal, []))
    (h : shape = s.shapeOf q ∧ s.slotsFor q [] = true ∧ s.seqsOf sl = [] ∧ s.liveSeqs (s.lampDie sl) = 0) :
    s.restoreCheck sl q bs = 0 := by
  unfold State.restoreCheck
  rw [parse]
  simp [h]

theorem test_witness_SliceServices_restored : wImaged.restoreCheck 3 3 (wImaged.hostBytes none 0 512) = 0 := by
  rw [wImaged_bytes]
  exact restoreCheck_empty _ _ _ _ _ _ wSaved_parse wImaged_rest

/-- Slice 3 made confidential, with a session open and a key for stream 9. -/
def wTdisp (st : Nat) : State :=
  let s := wOn.setFld F.SLC_STATE_tdi_state 3 st
  { s with
    cut := { s.cut with
      active := put none s.cut.active (6 * 2 ^ 24 + 3) (some (8 * 2 ^ 32 + 3 * 2 ^ 52 + 2 ^ 64 + 2 ^ 82)) }
    boot := { s.boot with sessions := 1, ideKeys := [(9, some 1)] } }

theorem test_witness_SliceServices :
    (wOn.partitionOf 3 = some 3 ∧ wOn.slState 3 ≠ 6 ∧ wOn.isConfidential 3 = false ∧ (wTdisp 0).isConfidential 3 = true
      ∧ (wOn.sliceImage 3 3 false).2 = false ∧ wImaged.fld F.SLC_XFER_LEN_buf_len 3 = 512 ∧ wImaged.canIssue (fnOf 257) = true ∧ wImaged.host.held = []
      ∧ wOn.partitionOf 4 = none)
    ∧ (wImaged.slState 3 = 4 ∧ wImaged.hostError none 0 512 = false ∧ wImaged.canIssue 0 = true
      ∧ wOn.restoreCheck 3 3 (wOn.hostBytes none 0 0) = 4
      ∧ ({ wImaged with host := { wImaged.host with pf0 := ⟨false, false, 0, 0⟩ } } : State).canIssue 0 = false
      ∧ ({ wImaged with host := { wImaged.host with fail := [(0, 1)] } } : State).hostError none 0 512 = true)
    ∧ (let s := (wOn.setSlice 3 { wOn.slice 3 with logPending := [7] }).setFld F.SLC_LOG_RING_size_code 3 1
       (s.slice 3).logPending = [7] ∧ (s.slice 3).fenced = false
        ∧ ringRoom (s.fld F.SLC_LOG_PTR_head 3) (s.fld F.SLC_LOG_PTR_tail 3) (ringEntries (s.fld F.SLC_LOG_RING_size_code 3) 8)
          = true)
    ∧ (let s := (wOn.setSlice 3 { wOn.slice 3 with pri := [7], atsWait := [8] }).setFld F.SLC_CFG_pri_en 3 1
       7 ∈ (s.slice 3).pri ∧ 8 ∈ (s.slice 3).atsWait ∧ s.fld F.SLC_CFG_pri_en 3 = 1 ∧ s.slState 3 ≠ 5
        ∧ (s.slice 3).pri.length < 32 ∧ 9 ∉ (s.slice 3).atsWait)
    ∧ (wOn.tdiLocked 3 = false ∧ wOn.creditTotal - wOn.fld F.SLC_CFG_credit_limit 3 + 16380 % 2 ^ 16 ≤ 16384
      ∧ 16384 < wOn.creditTotal - wOn.fld F.SLC_CFG_credit_limit 3 + 16381 % 2 ^ 16)
    ∧ ((wTdisp 0).tdispReach 3 = true ∧ (look none (wTdisp 0).boot.ideKeys 9).isSome = true ∧ wOn.tdispReach 3 = false
      ∧ (wTdisp 0).fld F.SLC_STATE_tdi_state 3 = 0 ∧ (wTdisp 1).fld F.SLC_STATE_tdi_state 3 = 1
      ∧ (wTdisp 2).fld F.SLC_STATE_tdi_state 3 = 2 ∧ (wTdisp 3).fld F.SLC_STATE_tdi_state 3 = 3)
    ∧ (3 ∈ ((wTdisp 2).setSlice 3 { (wTdisp 2).slice 3 with stream := some 9 }).streamSlices 9
      ∧ wOn.streamSlices 9 = []) := by
  decide +kernel

theorem test_witness_HostFunctions_held :
    (let h : HeldReq := ⟨257, .write none 0 [5] false, 0, none, false, some 2⟩
       let s := (wSlice 2 (some 19)).setFld F.SYNC_CTL_wait_limit_ms 0 1
       let s : State := { s with
         host := { s.host with held := [h], pf0 := ⟨false, false, 0, 0⟩ }, time := { s.time with clk := 1000001 } }
       s.host.held.filter s.heldOver = [h] ∧ h.flag = none ∧ h.job = some 2 ∧ (s.slice 2).command = some 19)
    ∧ (let f : CellFetch := ⟨1, true, 0, 0⟩
       let s : State := { wOn with
         host := { wOn.host with pf1 := ⟨false, false, 0, 0⟩ }, cells := [(0, { CellRec.init with fetch := some f })]
         time := { wOn.time with clk := 1000001 } }
       s.cells.map (·.1) = [0] ∧ (s.cell 0).fetch = some f ∧ s.host.held = [] ∧ s.boot.enrol = none
        ∧ s.host.pf1.d3 = false ∧ s.canIssue 1 = false ∧ s.heldOut 256 (some f.since) = true) := by
  decide +kernel

theorem test_witness_HostFunctions :
    (wOn.pins.perst = true ∧ State.reset.pins.perst = false ∧ (wOn.setFld F.SLC_STATE_tdi_state 2 1).tdiLocked 2 = true)
    ∧ (let s : State := { wOn with host := { wOn.host with held := [⟨257, .write none (2 ^ 64 - 1) [5] false, 0, none, false, none⟩] } }
       s.host.held = [⟨257, .write none (2 ^ 64 - 1) [5] false, 0, none, false, none⟩] ∧ s.host.pf0.d3 = false
        ∧ s.boot.enrol = none ∧ (∀ e ∈ s.cells, e.2.fetch = none) ∧ 2 ^ 64 - 1 + ([5] : Bytes).length ≤ 2 ^ 64)
    ∧ (let h : HeldReq := ⟨2, .write none 0 [5] false, 0, some (1, 1, 0), false, none⟩
       let s := (wRental (wCmd 0 3 0 0 0)).setFld F.SYNC_CTL_wait_limit_ms 0 1
       let s : State := { s with
         host := { s.host with held := [h], pf0 := ⟨false, false, 0, 0⟩ }, time := { s.time with clk := 1000001 } }
       s.host.held.filter s.heldOver = [h] ∧ h.flag = some (1, 1, 0) ∧ (s.ctx 1 1).isSome = true
        ∧ s.boot.enrol = none ∧ (∀ e ∈ s.cells, e.2.fetch = none) ∧ ∀ h ∈ s.host.held, h.job = none)
    ∧ (2047 < vectorsOf 0 ∧ vectorsOf 1 ≤ 256 ∧ (wOn.msixEntry 0 2047).pending = false
      ∧ let s := wOn.setMsix 0 5 { MsixEntry.init with pending := true }
        (s.msixEntry 0 5).pending = true ∧ s.canIssue (fnOf 257) = true ∧ s.host.held = [])
    ∧ (let a := wOn.apertureAddr 0x40
       touchesReserved a 8 = false ∧ locate a = .vault 0 0x40 ∧ wOn.physOf 0 = some 0 ∧ 0x40 + 8 ≤ 2 ^ wOn.host.bar4Log2
        ∧ wOn.hidden 0 0x40 8 = false ∧ wOn.rangeHeld a 8 = false ∧ (wOn.setFld F.HLTH_UNIT_state 0 3).rangeHeld a 8 = true
        ∧ let t := ((wTdisp 0).setFld F.CORE_VAULT_PAGE_owner 576 3).setFld F.DEV_APERTURE_BASE_base_gib 0 2
          touchesReserved (t.apertureAddr 0x40) 8 = false ∧ locate (t.apertureAddr 0x40) = .vault 1 0x40
            ∧ t.physOf 1 = some 1 ∧ t.hidden 1 0x40 8 = true) := by
  decide +kernel

/-- Port 0 in a role as member `m`, its link up and nothing fenced. -/
def wLink (role m : Nat) : State :=
  let s := (wCells.setFld F.CLINK_PORT_STATUS_role 0 role).setFld F.CLINK_PORT_STATUS_link_up 0 1
  (s.setFld F.CLINK_PORT_STATUS_member 0 m).setFld F.CLINK_FENCE_allow 0 (2 ^ 64 - 1)

/-- Member `m` of a group with the object 5; members 1 and 2 are present, member 2 is not admitted. -/
def wGroup (m : Nat) : State :=
  let s := (wLink 2 m).setFld F.CLINK_GROUP_MEMBERS_present 0 6
  let s := (s.setFld F.CLINK_GROUP_MEMBERS_admitted 0 3).setFld F.CLINK_GROUP_CFG_grp_obj_base 0 5
  s.setFld F.CLINK_GROUP_CFG_grp_obj_count 0 1

/-- That device with a BARRIER on object `n` in slot 1 of core 1, group or local. -/
def wBarrier (m n grp : Nat) : State :=
  wPut (wGroup m) 1 1 (wCtx 2 (wDesc 1 0x100 1) [wCmd 0 3 5 0 (n + grp * 2 ^ 15 + 2 * 2 ^ 32)])

/-- That device with a BARRIER of a slot that waits for a release of object 5 to 2. -/
def wWaits (slot start : Nat) : State :=
  let s := wPut (wGroup 1) 1 slot (wCtx 2 (wDesc 1 0x100 1) [{ wCmd 0 3 5 0 0 with phase := .started }])
  { s with clink := { s.clink with waits := [⟨1, slot, 0, 5, 2, 0⟩], releases := [⟨5, 2, start⟩] }
           time := { s.time with ns := 100 } }

theorem test_witness_GroupBarriers :
    ((match (wBarrier 0 5 0).startOp 1 1 3 5 with
        | some (x, c) => decide ((wBarrier 0 5 0).permitted (c.pay 0 15) x.owner = true ∧ c.pay 15 1 = 0
            ∧ c.pay 16 16 = 0 ∧ c.pay 64 64 = 0)
        | none => false) = true
      ∧ (match (wBarrier 0 6 0).startOp 1 1 3 5 with
        | some (x, c) => decide ((wBarrier 0 6 0).permitted (c.pay 0 15) x.owner = false ∧ c.pay 16 16 = 0
            ∧ c.pay 64 64 = 0)
        | none => false) = true
      ∧ (∀ m, m < 2 → (match (wBarrier m 5 1).startOp 1 1 3 5 with
        | some (x, c) => decide ((wBarrier m 5 1).permitted (c.pay 0 15) x.owner = true ∧ c.pay 15 1 = 1
            ∧ c.pay 16 16 = 0 ∧ c.pay 64 64 = 0 ∧ (wBarrier m 5 1).isRoot = decide (m = 0))
        | none => false) = true))
    ∧ (let s := wGroup 0
       flitArrives s 0 2 1 ∧ flitArrives s 0 2 2 ∧ s.isRoot = true ∧ 1 ≠ s.ownMember ∧ s.groupObject 6 = false
        ∧ s.groupObject 5 = true ∧ (s.fld F.CLINK_GROUP_MEMBERS_admitted 0).testBit 2 = false
        ∧ (s.fld F.CLINK_GROUP_MEMBERS_admitted 0).testBit 1 = true ∧ (s.fld F.CLINK_GROUP_MEMBERS_present 0).testBit 2 = true
        ∧ (s.portTo 2).isSome = true ∧ reached ((s.fld F.SYNC_OBJ_value 5 + 1) % 2 ^ 32) 2 = false
        ∧ reached ((s.fld F.SYNC_OBJ_value 5 + 1) % 2 ^ 32) 1 = true
        ∧ look 0 (put 0 s.clink.lastAdd 1 (s.total + 1)) 1 ≠ 0)
    ∧ (∀ sl, sl < 2 → let s := wWaits sl 7
       flitArrives s 0 2 0 ∧ s.total ≤ 100 ∧ 99 < s.total ∧ reached 2 2 = true
        ∧ (⟨1, sl, 0, 5, 2, 0⟩ : GroupWait) ∈ s.clink.waits
        ∧ (match (s.ctx 1 sl).bind fun x => x.cmd 0 with
          | some c => decide (c.phase = .started)
          | none => false) = true
        ∧ s.clink.releases.filter (fun r => r.n = 5 && decide (r.start ≤ s.total)) = [⟨5, 2, 7⟩]
        ∧ (s.groupWaits 5).map (·.1) = [⟨1, sl, 0, 5, 2, 0⟩])
    ∧ ((wLink 1 0).role 0 ≠ 2 ∧ (wGroup 1).role 0 = 2 ∧ (wGroup 1).portUp 0 = true
      ∧ ((wGroup 1).setFld F.CLINK_FENCE_allow 0 2).allowed 0 0 = false) := by
  unfold flitArrives
  decide +kernel

/-- Citia Link port 0 in role twin; its queue 0 takes records of slice 2 from a ring in the vault of core 1, shown by
object 5. -/
def wXq : State :=
  let s := (wLink 1 0).setFld F.CLINK_XQ_owner 0 2
  let s := (s.setFld F.CLINK_XQ_ring_code 0 1).setFld F.CLINK_XQ_prod_obj 0 5
  s.setFld F.CLINK_XQ_ring 0 (vaultAddr 1 0x2000)

/-- A record of a transfer to member `dest`: 64 bytes at an address of the sender. -/
def wXfer (dest src : Nat) : Bytes :=
  leBytes 1 1 ++ leBytes 1 dest ++ leBytes 6 0 ++ leBytes 8 src ++ leBytes 8 0 ++ leBytes 4 64 ++ leBytes 2 (2 ^ 15 + 5)
    ++ leBytes 2 0 ++ leBytes 4 1 ++ leBytes 28 0

/-- That queue with one record waiting. -/
def wRecord (b : Bytes) : State :=
  { wXq.setXq 0 0 ⟨1, 0, []⟩ with
    mem := (b.zipIdx.filter fun q => q.1 ≠ 0).map fun q => (vaultAddr 1 0x2000 + q.2, q.1) }

/-- Grant 0 of that port, for the twin, into the vault of core 1. -/
def wGrant : State :=
  let s := (wXq.setFld F.CLINK_GRANT_base 0 (vaultAddr 1 0x3000)).setFld F.CLINK_GRANT_enable 0 1
  let s := (s.setFld F.CLINK_GRANT_slice 0 2).setFld F.CLINK_GRANT_length 0 64
  (s.setFld F.CLINK_GRANT_arrive_en 0 1).setFld F.CLINK_GRANT_arrive_obj 0 5

theorem test_witness_CitiaTransfers :
    (wXq.portUp 0 = true ∧ wXq.role 0 = 1 ∧ wXq.allowed 0 0 = true ∧ wOn.portUp 0 = false
      ∧ (∀ q, q < 16 → (wXq.xq 0 q).flying = [])
      ∧ ((wXq.setXq 0 0 ⟨1, 1, [⟨0, [], true, none⟩]⟩).xq 0 0).flying = [⟨0, [], true, none⟩]
      ∧ (∀ j, j < 16 → j ≠ 0 → ((wXq.setXq 0 0 ⟨1, 1, [⟨0, [], true, none⟩]⟩).xq 0 j).flying = []))
    ∧ (let s := (wXq.setFld F.CLINK_PORT_STATUS_link_up 0 0).setMsix 0 3 { MsixEntry.init with masked := false }
       s.role 0 ≠ 0 ∧ s.portUp 0 = false ∧ s.lanesUp 0 = true ∧ (s.msixEntry 0 3).masked = false
        ∧ s.canIssue (fnOf 257) = true ∧ s.host.held = []
        ∧ (s.setFld F.HLTH_UNIT_state (clinkUnit 0 7) 3).lanesUp 0 = false)
    ∧ (flitArrives (wGroup 0) 0 2 63 ∧ wXq.xqOn 1 = false ∧ wXq.xqOn 0 = true ∧ wXq.xqValid 0 = true
      ∧ (wXq.setFld F.CLINK_XQ_prod_obj 0 6).xqOn 0 = true ∧ (wXq.setFld F.CLINK_XQ_prod_obj 0 6).xqValid 0 = false
      ∧ wXq.xqNext 0 0 = none)
    ∧ (let b := wXfer 0 (vaultAddr 1 0x4000)
       let s := wRecord b
       s.xqNext 0 0 = some (0, b) ∧ s.xferCheck 0 (s.xqOwner 0) b = 0 ∧ s.allowed 0 (leAt b 1 1) = true
        ∧ s.portUp 0 = true ∧ (s.xq 0 0).flying = []
        ∧ (s.setFld F.CLINK_FENCE_allow 0 0).xqNext 0 0 = some (0, b)
        ∧ (s.setFld F.CLINK_FENCE_allow 0 0).xferCheck 0 2 b = 0 ∧ (s.setFld F.CLINK_FENCE_allow 0 0).allowed 0 0 = false
        ∧ (s.setFld F.CLINK_PORT_STATUS_link_up 0 0).xqNext 0 0 = some (0, b)
        ∧ (s.setFld F.CLINK_PORT_STATUS_link_up 0 0).xferCheck 0 2 b = 0
        ∧ (s.setFld F.CLINK_PORT_STATUS_link_up 0 0).portUp 0 = false
        ∧ leAt b 0x1C 2 / 2 ^ 15 % 2 = 1 ∧ s.permitted (leAt b 0x1C 2 % 2 ^ 15) (s.xqOwner 0) = true)
    ∧ (let b := wXfer 0 (vaultAddr 1 0x4000)
       let s := wRecord b
       s.rangeHeld (s.xqRecord 0 0) 64 = false ∧ s.rangeHeld (leAt b 8 8) (leAt b 0x18 4) = false
        ∧ (s.setFld F.HLTH_UNIT_state 1 3).rangeHeld (leAt b 8 8) (leAt b 0x18 4) = true
        ∧ ((s.setFld F.CLINK_XQ_prod_obj 0 6).xqOn 0 = true ∧ (s.setFld F.CLINK_XQ_prod_obj 0 6).xqValid 0 = false)
        ∧ look false ({ s with clink := { s.clink with exchange := [(0, true)] } } : State).clink.exchange 0 = true)
    ∧ (let b := wXfer 63 0
       let s := wRecord b
       s.xqNext 0 0 = some (0, b) ∧ s.xferCheck 0 (s.xqOwner 0) b ≠ 0
        ∧ s.rangeHeld (s.xqRecord 0 0) 64 = false
        ∧ (s.setFld F.HLTH_UNIT_state 1 3).rangeHeld (s.xqRecord 0 0) 64 = true
        ∧ (s.setXq 0 0 ⟨2, 1, [⟨0, b, false, none⟩]⟩).xq 0 0 = ⟨2, 1, [⟨0, b, false, none⟩]⟩
        ∧ (wGroup 0).rangeHeld ((wGroup 0).xqRecord 0 0) 64 = false)
    ∧ (let x : Landing := ⟨0, 0, 0, 0, leBytes 64 7, [true], true⟩
       flitArrives wGrant 0 (wGrant.role 0) x.member ∧ wGrant.role 0 ≠ 0 ∧ wGrant.landCheck 0 x = 0
        ∧ x.last = true ∧ wGrant.fld F.CLINK_GRANT_arrive_en 0 = 1 ∧ wGrant.landCheck 63 { x with grant := 63 } ≠ 0
        ∧ wGrant.landWaits 0 x = false ∧ wGrant.isRefused 0 x = false ∧ (wGrant.setRefused 0 x true).isRefused 0 x = true
        ∧ (wGrant.setFld F.HLTH_UNIT_state 1 3).landWaits 0 x = true
        ∧ (wGrant.fld F.CLINK_GRANT_base 0 + x.dstOff) % 64 = 0 ∧ x.data.length % 64 = 0) := by
  unfold flitArrives
  refine ⟨?_, ?_, ?_, ?_, ?_, ?_, ?_⟩ <;> decide +kernel

/-- The pair in a state, its record as `t` says, cell 0 here in state `cell`. -/
def wTwin (st cell : Nat) (t : TwinBlk) : State :=
  let s := ((wLink 1 0).setFld F.CLINK_TWIN_STATUS_state 0 st).setFld F.CLU_CELL_STATE_state 0 cell
  { s with clink := { s.clink with twin := t } }

/-- A heartbeat with cell 0 active. -/
def wBeat : Heartbeat := ⟨1, 0, 0, [0], [0]⟩

theorem test_witness_TwinPair :
    flitArrives (wTwin 1 0 TwinBlk.init) 0 1 0
    ∧ (let s := wTwin 1 0 { TwinBlk.init with consec := 2 }
       s.fld F.CLINK_TWIN_STATUS_state 0 = 1 ∧ s.clink.twin.beat = false ∧ 3 ≤ s.clink.twin.consec + 1
        ∧ (wTwin 1 0 TwinBlk.init).clink.twin.consec + 1 < 3 ∧ (wTwin 2 0 TwinBlk.init).fld F.CLINK_TWIN_STATUS_state 0 = 2)
    ∧ (let s := wTwin 3 2 { TwinBlk.init with taken := [0] }
       s.fld F.CLINK_TWIN_STATUS_state 0 = 3 ∧ s.clink.twin.taken.Nodup ∧ 0 ∈ s.clink.twin.taken ∧ 0 ∈ wBeat.active
        ∧ s.fld F.CLU_CELL_STATE_state 0 ≠ 0 ∧ 1023 ∉ s.clink.twin.taken)
    ∧ ((wTwin 2 0 TwinBlk.init).clink.twin.unacked = 0 ∧ (wTwin 2 0 { TwinBlk.init with unacked := 1 }).clink.twin.unacked = 1
      ∧ 1 < (wTwin 2 0 { TwinBlk.init with unacked := 2 }).clink.twin.unacked)
    ∧ (let s := wTwin 2 0 { TwinBlk.init with configs := [(0, wConfig 0x10000)] }
       (s.entry 4 1023).isNone = true ∧ (s.entry 4 0).isSome = true
        ∧ look [] (wTwin 2 0 TwinBlk.init).clink.twin.configs 0 = [] ∧ look [] s.clink.twin.configs 0 ≠ []
        ∧ s.fld F.CLU_CELL_STATE_state 0 = 0 ∧ (s.cell 0).waiting = none
        ∧ s.configCheck 0 (look [] s.clink.twin.configs 0) = 0)
    ∧ (let s := wTwin 2 2 { TwinBlk.init with moving := [(0, 7, false)] }
       (s.clink.twin.moving.find? fun m => m.1 = 1) = none ∧ (s.clink.twin.moving.find? fun m => m.1 = 0) = some (0, 7, false)
        ∧ s.fld F.CLU_CELL_STATE_state 0 = 2
        ∧ (wTwin 2 3 { TwinBlk.init with moving := [(0, 7, true)] }).fld F.CLU_CELL_STATE_state 0 ≠ 2
        ∧ (wTwin 2 3 { TwinBlk.init with moving := [(0, 7, true)] }).clink.twin.moving.find? (fun m => m.1 = 0)
          = some (0, 7, true)
        ∧ (wTwin 2 3 { TwinBlk.init with moving := [(0, 7, false)] }).clink.twin.moving.find? (fun m => m.1 = 0)
          = some (0, 7, false)
        ∧ (wTwin 2 3 { TwinBlk.init with moving := [(0, 7, false), (1, 7, false)] }).fld F.CLU_CELL_STATE_state 0 ≠ 2)
    ∧ (let s := wTwin 2 0 { TwinBlk.init with image := [1, 2] }
       (wTwin 2 0 TwinBlk.init).clink.twin.mirror = [] ∧ s.clink.twin.mirror = [1, 2] ∧ s.canIssue (fnOf 257) = true
        ∧ s.host.held = [])
    ∧ ((wTwin 2 0 TwinBlk.init).role 0 = 1 ∧ (wTwin 2 0 TwinBlk.init).cellsIn 2 2 = [] ∧ (wTwin 2 2 TwinBlk.init).cellsIn 2 2 ≠ []
      ∧ (wTwin 1 0 TwinBlk.init).fld F.CLINK_TWIN_STATUS_state 0 ≠ 2) := by
  unfold flitArrives
  refine ⟨?_, ?_, ?_, ?_, ?_, ?_, ?_, ?_⟩ <;> decide +kernel

/-- Unit `u` in a state with a score, its peers `used` retired. -/
def wUnit (u st score : Nat) (used : List Nat) : State :=
  let s := (wOn.setFld F.HLTH_UNIT_state u st).setFld F.HLTH_UNIT_score u score
  let s := s.setFld F.HLTH_CFG_retire_threshold 0 100
  let s := used.foldl (fun s v => s.setFld F.HLTH_UNIT_state v 3) s
  { s with health := { s.health with missed := [u] } }

/-- A run of a full pass of core 1. -/
def wVigil (failed rerun full : Bool) : VigilRun := ⟨1, 3, full, false, failed, rerun, 0, 400, 750, 0, 0, 0, none⟩

theorem test_witness_UnitsRetireAndAreTested :
    (5 ∉ wOn.health.missed ∧ 0 ∈ (wUnit 0 0 255 []).health.missed ∧ (wUnit 0 0 255 []).fld F.HLTH_UNIT_state 0 = 0
      ∧ (wUnit 0 0 255 [8]).spareFor 0 = none ∧ 739 ∈ (wUnit 739 0 255 []).health.missed
      ∧ (wUnit 739 0 255 []).fld F.HLTH_UNIT_state 739 < 3 ∧ 839 ∈ (wUnit 839 0 255 []).health.missed
      ∧ (wUnit 839 0 255 []).fld F.HLTH_UNIT_state 839 < 3)
    ∧ ((wUnit 768 3 255 []).fld F.HLTH_UNIT_state 768 = 3 ∧ (wUnit 768 0 255 []).fld F.HLTH_UNIT_state 768 = 0
      ∧ (wUnit 768 0 255 [772, 773]).spareFor 768 = none ∧ (wUnit 768 0 255 []).serdesLane 0 0 = some 0
      ∧ wOn.fld F.HLTH_UNIT_state 833 = 1 ∧ wOn.fld F.HLTH_UNIT_state 816 < 3 ∧ wOn.clinkLane 0 0 = some 0)
    ∧ (let r : JspRun := ⟨1, 0, [], 0, [], [], false, []⟩
       let s := wOn.setJsp 31 { JasperRec.init with running := [(2, some r)] }
       wOn.fld F.HLTH_UNIT_state (jasperUnit 31 2) < 3 ∧ look none (s.jsp 31).running 2 = some r
        ∧ s.fld F.HLTH_UNIT_state (jasperUnit 31 2) < 3
        ∧ (wUnit (jasperUnit 31 2) 3 255 []).fld F.HLTH_UNIT_state (jasperUnit 31 2) = 3)
    ∧ ((wUnit 0 0 255 []).lowScore 0 = false ∧ (wUnit 0 0 100 []).lowScore 0 = true
      ∧ (wUnit 0 0 100 []).mayRetire 0 = true ∧ (wUnit 0 0 100 []).outranked 0 = false
      ∧ (wUnit 0 0 100 [8]).lowScore 0 = true ∧ (wUnit 0 0 100 [8]).mayRetire 0 = false
      ∧ (wUnit 0 0 100 [8]).fld F.HLTH_UNIT_flagged 0 = 0
      ∧ ((wUnit 0 0 100 [8]).setFld F.HLTH_UNIT_flagged 0 1).mayRetire 0 = false
      ∧ ((wUnit 0 0 100 []).setFld F.HLTH_UNIT_score 1 7).outranked 0 = true
      ∧ ((wUnit 0 0 100 []).core 0).evict = none ∧ (wUnit 0 0 100 []).fld F.CORE_CTX_CMD_busy 0 = 0)
    ∧ (let s := (wPut (wUnit 1 0 100 []) 1 1 (wCtx 2 (wDesc 1 0x100 1) []))
       s.lowScore 1 = true ∧ s.mayRetire 1 = true ∧ s.outranked 1 = false
        ∧ [1, 2, 3].find? (fun sl => s.evictable 1 sl) = some 1)
    ∧ ((wUnit 768 0 100 []).lowScore 768 = true ∧ (wUnit 768 0 100 []).mayRetire 768 = true
      ∧ (wUnit 768 0 100 []).outranked 768 = false)
    ∧ (wOn.vigilIdle 1 = true ∧ wOn.vigilIdle 832 = false ∧ wOn.fld F.HLTH_CFG_vigil_en 0 = 1
      ∧ wOn.requestMet { wVigil false false true with targeted := true } = false
      ∧ ringRoom (wOn.fld F.HLTH_VIGIL_PTR_head 0) (wOn.fld F.HLTH_VIGIL_PTR_tail 0)
          (ringEntries (wOn.fld F.HLTH_VIGIL_RING_size_code 0) 6) = false
      ∧ (let s := wOn.setFld F.HLTH_VIGIL_RING_size_code 0 1
         ringRoom (s.fld F.HLTH_VIGIL_PTR_head 0) (s.fld F.HLTH_VIGIL_PTR_tail 0)
          (ringEntries (s.fld F.HLTH_VIGIL_RING_size_code 0) 6) = true ∧ s.canIssue (fnOf 257) = true ∧ s.host.held = []
          ∧ s.vigilIdle 1 = true ∧ s.fld F.HLTH_CFG_vigil_en 0 = 1)
      ∧ (wUnit 1 1 255 []).fld F.HLTH_UNIT_state 1 = 1 ∧ (wUnit 1 1 255 []).vigilIdle 1 = true ∧ (groupOf 1).isSome = true)
    ∧ (let r : VigilRun := { wVigil true false false with unit := 289, located := some (127, some 4607) }
       wOn.vigilIdle r.unit = true ∧ (wOn.core (r.unit - 288)).spares.rowCopies = []
        ∧ (wOn.core (r.unit - 288)).spares.bankCopies = [] ∧ look 0 (wOn.core (r.unit - 288)).spares.rowsUsed 127 < 32)
    ∧ ((2 ^ 48 : Nat).testBit 48 = true ∧ (2 ^ 49 : Nat).testBit 48 = false ∧ (2 ^ 49 : Nat).testBit 49 = true)
    ∧ (let s : State := { wOn.setFld F.HLTH_CFG_stale_h 0 1 with time := { wOn.time with clk := 3600000000001 } }
       wOn.staleDue 839 = false ∧ s.staleDue 839 = true)
    ∧ (wOn.bootState ≠ 3 ∧ (wOn.setFld F.DEV_STATUS_boot_state 0 3).bootState = 3) := by
  refine ⟨?_, ?_, ?_, ?_, ?_, ?_, ?_, ?_, ?_, ?_, ?_⟩ <;> decide +kernel

/-- The device with Vigil's rotation at unit `u`. -/
def wTurn (u : Nat) : State := { wOn with health := { wOn.health with rotation := u } }

theorem test_witness_UnitsRetireAndAreTested_runs :
    ((wTurn 1).vigilTurn 1 = true ∧ (wTurn 1).vigilTurn 5 = false ∧ (wTurn 1).vigilIdle 1 = true
      ∧ (wTurn 289).vigilTurn 289 = true ∧ look none (wTurn 1).health.failing 1 = none)
    ∧ (let s := ((wTurn 1).setFld F.HLTH_VIGIL_REQ_pending 0 1).setFld F.HLTH_VIGIL_REQ_unit 0 1
       let s := s.setFld F.HLTH_VIGIL_REQ_test 0 3
       s.requestMet (s.observed { wVigil false false false with targeted := true }) = true
        ∧ wOn.requestMet (wOn.observed { wVigil false false false with targeted := true }) = false)
    ∧ (let f := wVigil true false false
       let s := (wTurn 1).onHealth fun h => { h with failing := put none h.failing 1 (some f) }
       s.vigilTurn 1 = true ∧ look none s.health.failing 1 = some f ∧ f.failed = true)
    ∧ (let s := (wUnit 8 1 255 []).onHealth fun h => { h with moves := [⟨0, some 8, true, false⟩] }
       8 ∈ s.health.missed ∧ s.fld F.HLTH_UNIT_state 8 = 1 ∧ ∃ m ∈ s.health.moves, m.spare = some 8)
    ∧ (let s := (wUnit 773 1 255 []).onHealth fun h => { h with installs := [(768, some 773)] }
       s.fld F.HLTH_UNIT_state 773 = 1 ∧ s.spareFor 768 = some 772 ∧ ∃ i ∈ s.health.installs, i.2 = some 773)
    ∧ (let s := (wUnit 0 0 255 []).onHealth fun h => { h with copying := [(8, 0)] }
       s.fld F.HLTH_UNIT_state 0 = 0 ∧ ∃ e ∈ s.health.copying, s.logicalOf 0 = some e.2)
    ∧ (let s := wOn.setFld F.DEV_STATUS_boot_state 0 3
       s.bootState = 3 ∧ s.health.failing = []
        ∧ (startupRunOf [wVigil true true true] 1).failed = true ∧ (startupRunOf [wVigil true true true] 1).rerunFailed = true
        ∧ (startupRunOf [wVigil true false true] 1).rerunFailed = false ∧ (startupRunOf [wVigil true false true] 1).located = none
        ∧ (startupRunOf [] 839).failed = false) := by
  refine ⟨?_, ?_, ?_, ⟨?_, ?_, ⟨_, List.mem_cons_self, ?_⟩⟩, ⟨?_, ?_, ⟨_, List.mem_cons_self, ?_⟩⟩,
    ⟨?_, ⟨_, List.mem_cons_self, ?_⟩⟩, ?_⟩ <;> decide +kernel

/-- The device in a boot state, with PERST_N and VDD_AUX as given. -/
def wBoot (n : Nat) (perst aux : Bool) : State :=
  let s := wOn.setFld F.DEV_STATUS_boot_state 0 n
  { s with pins := { s.pins with perst := perst, auxOn := aux } }

/-- The same with an enrolment under way. -/
def wEnrol (e : EnrolOp) : State :=
  let s := (wBoot 5 true true).setFld F.ONYX_ENROL_CTL_busy 0 1
  { s with boot := { s.boot with enrol := some e } }

/-- An enrolment record for operation `op` on slot `k` with the identity `id`, authorised by `auth`. -/
def wEnrolment (op k auth : Nat) (id : Bytes) : Bytes :=
  leBytes 4 0x324B4E46 ++ leBytes 1 op ++ leBytes 1 k ++ leBytes 1 auth ++ leBytes 1 0 ++ id ++ leBytes 48 0

/-- The number that bytes spell. -/
theorem leNat_leBytes (len : Nat) : ∀ n, leNat (leBytes len n) = n % 256 ^ len := by
  induction len with
  | zero => intro n; simp [leNat, leBytes, Nat.mod_one]
  | succ len ih =>
    intro n
    simp only [leNat, leBytes, ih, BitVec.toNat_ofNat]
    rw [show 256 ^ (len + 1) = 256 * 256 ^ len from Nat.mul_comm _ _ ▸ rfl, Nat.mod_mul]

/-- A record for a fresh part, whose identity is whatever that of the part is. -/
theorem test_witness_StartUp_enrolled :
    (wEnrol ⟨wEnrolment 1 3 0xFF (leBytes 8 deviceBind), none, false, true⟩).enrolCheck
      ⟨wEnrolment 1 3 0xFF (leBytes 8 deviceBind), none, false, true⟩ = 0 := by
  have bind : leNat (leBytes 8 deviceBind) = deviceBind := by
    rw [leNat_leBytes]
    exact Nat.mod_eq_of_lt (Nat.lt_of_lt_of_le (Nat.mod_lt _ (by decide)) (by decide))
  have here : leAt (wEnrolment 1 3 0xFF (leBytes 8 deviceBind)) 8 8 = leNat (leBytes 8 deviceBind) := rfl
  have op : leAt (wEnrolment 1 3 0xFF (leBytes 8 deviceBind)) 4 1 = 1 := by decide +kernel
  have key : leAt (wEnrolment 1 3 0xFF (leBytes 8 deviceBind)) 5 1 = 3 := by decide +kernel
  have auth : leAt (wEnrolment 1 3 0xFF (leBytes 8 deviceBind)) 6 1 = 0xFF := by decide +kernel
  have head : leAt (wEnrolment 1 3 0xFF (leBytes 8 deviceBind)) 0 4 = 0x324B4E46
      ∧ leAt (wEnrolment 1 3 0xFF (leBytes 8 deviceBind)) 7 1 = 0
      ∧ leAt (wEnrolment 1 3 0xFF (leBytes 8 deviceBind)) 0x30 16 = 0 := by decide +kernel
  have slots : ∀ e k, k < 4 → (wEnrol e).fld F.ONYX_KEY_SLOT_enrolled k = 0 ∧ (wEnrol e).fld F.ONYX_KEY_SLOT_revoked k = 0
      ∧ (wEnrol e).fld F.ONYX_KEY_SLOT_damaged k = 0 := by
    intro e
    show ∀ k, k < 4 → (wEnrol ⟨[], none, false, false⟩).fld F.ONYX_KEY_SLOT_enrolled k = 0
      ∧ (wEnrol ⟨[], none, false, false⟩).fld F.ONYX_KEY_SLOT_revoked k = 0
      ∧ (wEnrol ⟨[], none, false, false⟩).fld F.ONYX_KEY_SLOT_damaged k = 0
    decide +kernel
  simp [State.enrolCheck, here, bind, op, key, auth, head, slots]

theorem test_witness_StartUp :
    ((wEnrol ⟨wEnrolment 1 3 0xFF (leBytes 8 0), none, false, true⟩).boot.enrol
        = some ⟨wEnrolment 1 3 0xFF (leBytes 8 0), none, false, true⟩
      ∧ leAt (wEnrolment 1 3 0xFF (leBytes 8 0)) 5 1 = 3 ∧ leAt (wEnrolment 1 3 0xFF (leBytes 8 0)) 4 1 = 1
      ∧ wOn.fld F.ONYX_KEY_SLOT_enrolled 3 = 0 ∧ leAt (wEnrolment 2 0 0xFF (leBytes 8 0)) 4 1 ≠ 1)
    ∧ 0xABCDD1E5 % 2 ^ 16 = 0xD1E5
    ∧ ((wBoot 0 true true).pins.perst = true ∧ (wBoot 0 false true).pins.perst = false
      ∧ (wBoot 0 false true).pins.auxOn = true ∧ (wBoot 0 false false).pins.auxOn = false
      ∧ (wBoot 0 true true).time.running = true ∧ (wBoot 0 true true).bootState = 0
      ∧ State.reset.time.running = false)
    ∧ ((wBoot 1 true true).bootState = 1 ∧ (wBoot 2 true true).bootState = 2)
    ∧ ((wEnrol ⟨[], none, false, false⟩).fld F.ONYX_ENROL_CTL_busy 0 = 1 ∧ (wBoot 5 true true).fld F.ONYX_ENROL_CTL_busy 0 = 0
      ∧ 4 ≤ (wBoot 5 true true).bootState)
    ∧ ((wBoot 5 true true).boot.enrol = none
      ∧ (wEnrol ⟨[], none, true, false⟩).enrolCheck ⟨[], none, true, false⟩ ≠ 0)
    ∧ (let s := (wEnrol ⟨[], some 0, false, false⟩).setFld F.SYNC_CTL_wait_limit_ms 0 1
       let u : State := { s with host := { s.host with pf0 := ⟨false, false, 0, 0⟩ } }
       let v : State := { u with time := { u.time with clk := 1000001 } }
       s.boot.enrol = some ⟨[], some 0, false, false⟩ ∧ s.canIssue 0 = true ∧ u.canIssue 0 = false
        ∧ u.heldOut 257 (some 0) = false ∧ v.canIssue 0 = false ∧ v.heldOut 257 (some 0) = true)
    ∧ ((wBoot 2 true true).verify [] 0).1 = 1 := by
  refine ⟨?_, ?_, ?_, ?_, ?_, ?_, ?_, ?_⟩ <;> decide +kernel

theorem test_witness_RollbackCounterCommits :
    (let s := (wBoot 4 true true).setFld F.DEV_STATUS_security_version 0 64
     s.bootState = 4 ∧ s.fld F.ONYX_SVN_counter 0 < s.fld F.DEV_STATUS_security_version 0
      ∧ s.fld F.DEV_STATUS_security_version 0 ≤ 64)
    ∧ (wOn.bootState = 5 ∧ wOn.fld F.DEV_STATUS_security_version 0 ≤ wOn.fld F.ONYX_SVN_counter 0)
    ∧ (wBoot 3 true true).bootState < 4
    ∧ ((wOn.setFld F.ONYX_SVN_counter 0 64).fld F.ONYX_SVN_counter 0 = 64 ∧ leAt (leBytes 256 0) 0xC 1 < 64) := by
  refine ⟨?_, ?_, ?_, ?_⟩ <;> decide +kernel

theorem test_witness_AttestationAndSideband :
    ((wBoot 2 true true).sidebandFull = false ∧ (wBoot 5 true true).sidebandFull = true
      ∧ wOn.sessionsOn false < sessionMax false ∧ wOn.sessionsOn true < sessionMax true
      ∧ sessionMax false ≤ ({ wOn with boot := { wOn.boot with sessions := 4 } } : State).sessionsOn false
      ∧ sessionMax true ≤ ({ wOn with boot := { wOn.boot with sideSessions := 2 } } : State).sessionsOn true)
    ∧ ((wBoot 5 true false).pins.auxOn = false ∧ (wBoot 2 true true).pins.auxOn = true ∧ (wBoot 2 true true).bootState < 3
      ∧ 3 ≤ (wBoot 3 true true).bootState
      ∧ ({ wOn with power := { wOn.power with samples := [500, 400] } } : State).power.samples = 500 :: [400])
    ∧ (jtagDrives .idcode = false ∧ jtagDrives .extest = true ∧ (wBoot 5 true true).pins.perst = true
      ∧ (wBoot 5 false true).pins.perst = false) := by
  refine ⟨?_, ?_, ?_⟩ <;> decide +kernel

/-- The device with nine power samples of `w`. -/
def wPower (w : Nat) : State := { wOn with power := { wOn.power with samples := List.replicate 9 w } }

/-- 144 temperatures, the first `hot`, the others `cool`. -/
def wTemps (hot cool : Int) : List Int := hot :: List.replicate 143 cool

/-- A multiplier that does not rise is the same with or without the voltage that follows it. -/
theorem wClock (s : State) (f : State → State) {n : Nat} (h : (f s).mult 0 = n ∧ ¬ s.mult 0 < (f s).mult 0) :
    (s.changeClock 0 f).mult 0 = n := by
  have volt : ∀ (t : State) (m : Nat), (t.setVolt 0 m).mult 0 = t.mult 0 := fun t m => by
    simp only [State.setVolt]
    split <;> rfl
  unfold State.changeClock
  simp only [h.2, if_false]
  split
  · exact (volt _ _).trans h.1
  · exact h.1

/-- The device with die 0 at stage 2 for heat. -/
def wHot : State := { wOn with power := { wOn.power with stage2 := [(throttleKey 0 byHeat, true)] } }

theorem wHot_mult : (wHot.multStep 0).mult 0 = 15 := by
  simp only [State.multStep]
  exact wClock _ _ (by decide +kernel)

theorem wOn_mult : (wOn.multStep 0).mult 0 = 16 := by
  simp only [State.multStep]
  exact wClock _ _ (by decide +kernel)

theorem test_witness_PowerAndHeat :
    ((wBoot 5 true true).pins.auxOn = true ∧ (wBoot 5 true false).pins.auxOn = false)
    ∧ (9 ≤ (wPower 2000).power.samples.length ∧ (wPower 2000).power.limit * 10 < 2000 + 9 * 2000
      ∧ (100 + 9 * 100) * 100 < (wPower 100).power.limit * 10 * 97)
    ∧ (wOn.pins.pwrbrk = true ∧ ({ wOn with pins := { wOn.pins with pwrbrk := false } } : State).pins.pwrbrk = false)
    ∧ (wOn.sidebandFull = true ∧ (wBoot 2 true true).sidebandFull = false)
    ∧ (wOn.power.excluded = []
      ∧ ((wTemps 880 400).length = 144 ∧ (∀ x ∈ wTemps 880 400, -320 ≤ x ∧ x ≤ 1200) ∧ ∃ x ∈ wTemps 880 400, 880 ≤ x)
      ∧ ((wTemps 840 400).length = 144 ∧ (∀ x ∈ wTemps 840 400, -320 ≤ x ∧ x < 880)
        ∧ (∃ x ∈ wTemps 840 400, 800 ≤ x) ∧ 840 ≤ (wTemps 840 400).getD 0 0)
      ∧ ((∃ x ∈ wTemps 839 400, 800 ≤ x) ∧ (∀ m, m < 144 → m / 64 = 0 → (wTemps 839 400).getD m 0 < 840)
        ∧ ∀ m, m < 144 → m / 64 = 1 → (wTemps 839 400).getD m 0 < 800)
      ∧ ((∀ x ∈ wTemps 799 400, x < 800) ∧ ∃ x ∈ wTemps 799 400, 776 ≤ x)
      ∧ ∀ x ∈ wTemps 775 (-320), -320 ≤ x ∧ x < 776)
    ∧ (([5] : List Nat)[0]? = some 5 ∧ ∀ d, d < 2 → wOn.mOff d byHeat ≤ 8)
    ∧ ((wHot.multStep 0).mult 0 ≠ wHot.mult 0 ∧ (wOn.multStep 0).mult 0 = wOn.mult 0)
    ∧ (let s := wBoot 5 false true
       let t : State := { s with power := { s.power with tripped := true }, time := { s.time with clk := 1000000 } }
       t.power.tripped = true ∧ t.pins.perst = false ∧ t.power.perstLow + 1000000 ≤ t.time.clk
        ∧ s.power.tripped = false ∧ s.time.clk < s.power.perstLow + 1000000) := by
  refine ⟨?_, ?_, ?_, ?_, ?_, ?_, ⟨?_, wOn_mult.trans ?_⟩, ?_⟩
  case refine_7 => rw [wHot_mult]; decide +kernel
  all_goals decide +kernel

/-- A boot image of five empty stages that share one signature of zeros. -/
def wStages : Bytes :=
  leBytes 4 0x32494E46 ++ leBytes 2 1 ++ leBytes 1 5 ++ leBytes 1 1 ++ leBytes 4 8112 ++ leBytes 52 0
    ++ [1, 2, 3, 4, 5].flatMap (fun ty => leBytes 4 ty ++ leBytes 4 0x100 ++ leBytes 4 0 ++ leBytes 4 0x100)
    ++ leBytes 112 0 ++ List.replicate 7856 0

/-- With a key and signatures that the vendor's would be; no value of either is in the model (log entry 10). -/
theorem test_witness_StartUp_verified (key : leNat (sha256 ((wStages.drop 0x20).take 32)) = Config.vendorKeyHash)
    (signed : ∀ x ∈ stagesOf wStages, Config.slhVerify 0 (leAt wStages 0x20 32)
      (wStages.take 0x100 ++ (wStages.drop x.2.off).take x.2.len) ((wStages.drop x.2.sig).take 7856) = true) :
    wOn.verify wStages 8112 = (0, 15) := by
  have form : imageBad wStages = false := by decide +kernel
  have head : leAt wStages 8 4 = 8112 ∧ leAt wStages 7 1 = wOn.fld F.DEV_STATUS_stepping 0
      ∧ ¬ leAt wStages 0xC 1 < wOn.fld F.ONYX_SVN_counter 0 := by decide +kernel
  have sig : sigFails wStages = none := by
    unfold sigFails
    rw [List.find?_eq_none.2 fun x h => by simp [signed x h]]
    rfl
  simp [State.verify, form, head, key, sig]

/-! ### Ill-formed commands -/

theorem test_wf_cores : Instr.wf (.garMaxInstrTimeWrite 288 0) = false ∧ Instr.wf (.garMaxInstrTimeWrite 287 0) = true
    ∧ Instr.wf (.clmGranuleZeroEnd 32 0) = false ∧ Instr.wf (.clmGranuleZeroEnd 31 128) = false
    ∧ Instr.wf (.commandFetch 287 4) = false ∧ Instr.wf (.engineYield 287 4 0) = false
    ∧ Instr.wf (.granuleZeroEnd 287 64) = false ∧ Instr.wf (.coreVaultPageWrite 287 576 0) = false
    ∧ Instr.wf (.vaultScrub 287 18874368 .clean) = false ∧ Instr.wf (.gmmLastWavefront 287 3) = false
    ∧ Instr.wf (.bundle 287 2 .clean ([], [])) = false ∧ Instr.wf (.ldpcDecode 31 3 7) = false
    ∧ Instr.wf (.ldpcDecode 31 2 8) = false := by decide

theorem test_wf_slices : Instr.wf (.descriptorSubmit 257 0 (leBytes 64 0) none) = false
    ∧ Instr.wf (.descriptorSubmit 256 64 (leBytes 64 0) none) = false
    ∧ Instr.wf (.descriptorSubmit 256 63 (leBytes 63 0) none) = false
    ∧ Instr.wf (.descriptorSubmit 256 63 (leBytes 64 0) none) = true
    ∧ Instr.wf (.seqStart 255 16 (leBytes 128 0) none) = false ∧ Instr.wf (.seqStart 255 15 (leBytes 64 0) none) = false
    ∧ Instr.wf (.slcMsgWrite 256 0 0 0) = false ∧ Instr.wf (.slcMsgWrite 255 8 0 0) = false
    ∧ Instr.wf (.slcMsgWrite 255 7 2 0) = false ∧ Instr.wf (.histogramClear 2624) = false
    ∧ Instr.wf (.lampCtxCfgWrite 2 0) = false := by decide

theorem test_wf_links : Instr.wf (.groupBarrierAdd 2 0 0 0) = false ∧ Instr.wf (.groupBarrierAdd 1 64 0 0) = false
    ∧ Instr.wf (.groupBarrierAdd 1 63 32768 0) = false ∧ Instr.wf (.groupBarrierAdd 1 63 32767 0) = true
    ∧ Instr.wf (.xqProducerAdvance 1 16) = false ∧ Instr.wf (.fifoDropRest 512) = false
    ∧ Instr.wf (.frameReceive 32 [] true) = false ∧ Instr.wf (.fhShaperWrite 1 1408 0) = false
    ∧ Instr.wf (.fhShaperWrite 2 0 0) = false ∧ Instr.wf (.cellStart 1024 true 0) = false
    ∧ Instr.wf (.vigilStale 840) = false ∧ Instr.wf (.msixUnmask 0 2048) = false ∧ Instr.wf (.msixUnmask 1 256) = false
    ∧ Instr.wf (.msixUnmask 1 255) = true ∧ Instr.wf (.tdispLockInterface 255 256) = false
    ∧ Instr.wf (.lowHalfRead 257 .pf0Bar0 4) = false ∧ Instr.wf (.highHalfWrite 257 .pf0Bar0 8 0) = false
    ∧ Instr.wf (.highHalfWrite 257 .pf0Bar0 4 0) = true := by decide

/-! ### Vectors of the manual -/

/-- R148, the rows from FP32. -/
theorem test_convert_fp32 :
    (bf16.convert (fp32.decode 0x3F808000)).1 = 0x3F80 ∧ (bf16.convert (fp32.decode 0x3F818000)).1 = 0x3F82
    ∧ (bf16.convert (fp32.decode 0x3F808001)).1 = 0x3F81 ∧ fp16.convert (.ofInt 70000) = (0x7BFF, true)
    ∧ fp16.convert (fp32.decode 0x7F800000) = (0x7C00, false) ∧ e4m3.convert (.ofInt 500) = (0x7E, true)
    ∧ (e4m3.convert (fp32.decode 0x7F800000)).1 = 0x7E ∧ e5m2.convert (.ofInt 62000) = (0x7B, true) := by
  decide +kernel

/-- R148, the exact values to E2M1: 2.5, 5, 0.25, 0.75, 3.5, and one below 0.25 in magnitude. -/
theorem test_convert_e2m1 :
    (e2m1.convert (.fin false 5 (-1))).1 = 0x4 ∧ (e2m1.convert (.fin false 5 0)).1 = 0x6
    ∧ (e2m1.convert (.fin false 1 (-2))).1 = 0x0 ∧ (e2m1.convert (.fin false 3 (-2))).1 = 0x2
    ∧ (e2m1.convert (.fin false 7 (-1))).1 = 0x6 ∧ (e2m1.convert (.fin true 9 (-6))).1 = 0x8 := by decide +kernel

/-- R148, the rows from INT32. -/
theorem test_narrow_int : narrowInt 8 255 1 = (127, true) ∧ (narrowInt 8 (-255) 1).1 = 0x80 ∧ narrowInt 16 5 1 = (2, false)
    ∧ narrowInt 8 (-2147483648) 32 = (0, false) := by decide +kernel

/-- R177, the bytes of "123456789". -/
theorem test_crc64 : crc64 [0x31, 0x32, 0x33, 0x34, 0x35, 0x36, 0x37, 0x38, 0x39] = 0x6C40DF5F0B497347 := by decide +kernel

/-- R176, both rows, and the rebuild of the first. -/
theorem test_parity : parityP [1, 2] = 3 ∧ parityQ [1, 2] = 5 ∧ parityP [0x80, 0x80, 0x80] = 0x80
    ∧ parityQ [0x80, 0x80, 0x80] = 0xA7 ∧ parityRebuild 2 [0, 0, 3, 5] [0, 1] = [1, 2, 3, 5] := by decide +kernel

/-- R311. -/
theorem test_block_exponent : blockExp 9 [255] = 0 ∧ blockExp 9 [256] = 1 ∧ (mantissa 9 1 256).1 = 128
    ∧ (mantissa 9 1 257).1 = 128 ∧ (mantissa 9 1 259).1 = 130 ∧ blockExp 9 [32767] = 7 ∧ (mantissa 9 7 32767).1 = 255
    ∧ blockExp 9 [-32768] = 7 ∧ (mantissa 9 7 (-32768)).1 = -256 := by decide +kernel

/-! ### Steps -/

/-- R8: an access at a reserved offset reads zero and is counted. -/
theorem test_bad_access :
    (match step { wOn with pending := [.rcRead 257 .pf0Bar0 0x1FFFF8 8] } with
      | .next t => decide (t.lastRead = 0 ∧ t.fld F.DEV_BAD_ACCESS_count 0 = 1 ∧ t.pending = [])
      | _ => false) = true := by decide +kernel

/-- With no command waiting one cycle passes (log entry 1). -/
theorem test_idle_cycle :
    (match step wOn with
      | .next t => decide (t.time.clk = wOn.time.clk + 1 ∧ t.pending = [])
      | _ => false) = true := by decide +kernel

/-- An address outside every save area, and an object that stands broken. -/
theorem test_witness_SettlingKeepsTheRest :
    ¬ wOn.inSaveArea 0 ∧ (State.reset.setFld F.SYNC_OBJ_broken 32767 1).fld F.SYNC_OBJ_broken 32767 = 1 := by
  refine ⟨?_, by decide +kernel⟩
  rintro ⟨n, slot, k, -, -, h⟩
  simp only [vaultAddr, saveArea] at h
  omega

end Sys2Proof.Tests
end

section
/-!
PROOFS. The submission window (R95, R96, R366): what a saturating counter changes, which writes of the window are
turned away, and what a read of it answers.
-/
namespace Sys2Proof.Machine

/-! ### A saturating counter (R6) -/

theorem onlyRegs_count (s : State) (f : Fld) (i n : Nat) : onlyRegs s (s.count f i n) := rfl

theorem fldKept_count (s : State) (f : Fld) (i n : Nat) : fldKept s (s.count f i n) f i := fldKept_setFld s f i _

theorem countedUp_count (s : State) (f : Fld) (i : Nat) (h : f.lo + f.width ≤ 512) :
    countedUp s (s.count f i 1) f i := by
  have hfits : min (s.fld f i + 1) (2 ^ f.width - 1) < 2 ^ f.width := by
    have := Nat.two_pow_pos f.width
    omega
  rw [countedUp, State.count, State.fld_setFld_same s f i _ h, Nat.mod_eq_of_lt hfits]

/-- A command that does nothing but raise a counter meets what the statements ask of a counted event. -/
theorem counts_once {c : Instr} {s : State} {f : Fld} {i : Nat} (h : f.lo + f.width ≤ 512)
    (hc : exec c s = .next (s.count f i 1)) :
    ∃ t, exec c s = .next t ∧ onlyRegs s t ∧ countedUp s t f i ∧ fldKept s t f i :=
  ⟨_, hc, onlyRegs_count s f i 1, countedUp_count s f i h, fldKept_count s f i 1⟩

/-! ### Writes to the window of a portal that is there -/

section
variable {s : State} {portal : Nat} (hle : portal ≤ 256) (hradio : portal = 256 → s.pf1Ready = true)
  (hslice : portal ≠ 256 → s.fld F.SLC_STATE_state portal ≠ 0)
include hle hradio hslice

/-- The three guards of a window's portal (its number, R99's readiness, R353's absence) let the write through, whatever
they would answer otherwise. -/
theorem portal_guards_pass {α : Sort _} (a b c d : α) :
    (if 256 < portal then a else if portal = 256 ∧ !s.pf1Ready then b
      else if portal ≠ 256 ∧ s.fld F.SLC_STATE_state portal = 0 then c else d) = d := by
  have hready : ¬(portal = 256 ∧ (!s.pf1Ready) = true) := fun ⟨hp, hn⟩ => by simp [hradio hp] at hn
  have hpresent : ¬(portal ≠ 256 ∧ s.fld F.SLC_STATE_state portal = 0) := fun ⟨hp, h0⟩ => hslice hp h0
  rw [if_neg (Nat.not_lt.mpr hle), if_neg hready, if_neg hpresent]

/-- R96: a write that is no aligned 64-byte slot only counts in bad_write, by whichever stream it comes. -/
theorem State.submit_malformed {slot : Nat} {desc : Bytes} (via : Option Nat) (hbad : slot ≥ 64 ∨ desc.length ≠ 64) :
    s.submit portal slot desc via = s.count F.PORTAL_STATUS_bad_write portal 1 := by
  rw [State.submit, portal_guards_pass hle hradio hslice, if_pos (Or.inr hbad), State.badSubmission]

/-- R96: a submission that finds no credit only counts in dropped_no_credit. -/
theorem State.submit_noCredit {slot : Nat} {desc : Bytes} {via : Option Nat} (hvia : s.viaOk portal via = true)
    (hslot : slot < 64) (hlen : desc.length = 64) (hnone : s.available portal = 0) :
    s.submit portal slot desc via = s.count F.PORTAL_STATUS_dropped_no_credit portal 1 := by
  have hwell : ¬((!s.viaOk portal via) = true ∨ 64 ≤ slot ∨ desc.length ≠ 64) := by
    simp [hvia, hlen, hslot]
  rw [State.submit, portal_guards_pass hle hradio hslice, if_neg hwell, if_pos hnone]

/-- R96: every other write of the window only counts in bad_write. -/
theorem exec_submissionWindowBadWrite :
    exec (.submissionWindowBadWrite portal) s = .next (s.count F.PORTAL_STATUS_bad_write portal 1) := by
  rw [exec, execSubmissionWindowBadWrite, portal_guards_pass hle hradio hslice, State.badSubmission, done]

end

/-! ### Reads of the window -/

theorem State.readSpace_submission {s : State} {b : Bar} {off portal byte : Nat} (req size : Nat)
    (h : s.target b off = .submission portal byte) : s.readSpace req b off size = s.answers 0 := by
  rw [State.readSpace, h]

/-- The spaces that R455 and R457 give to register space are read through it. -/
theorem State.readAt_registerBar {b : Bar} (hb : registerBar b = true) (s : State) (req off size : Nat) :
    s.readAt req b off size = s.readSpace req b off size := by
  cases b with
  | pf0Bar0 | pf0Bar2 | pf0Bar2Ide | pf1Bar0 => rfl
  | pf0Bar4 | pf0Bar4Size | hostMemory | lantern | lanternMemory => exact absurd hb Bool.false_ne_true

/-! ### The statement -/

/-- Settles O16: the write's guards pass at a portal that is there, so that the one counter of its case is all that
changes; a read of the window is answered before its alignment is looked at. -/
theorem submissionsTurnedAway : Obligations.SubmissionsTurnedAway := by
  unfold Obligations.SubmissionsTurnedAway
  refine ⟨fun s portal slot desc via hle hradio hslice => ⟨?noCredit, ?malformed, ?badWrite⟩, ?read⟩
  case noCredit =>
    intro hvia hslot hlen hnone
    exact counts_once (by decide) (congrArg done (State.submit_noCredit hle hradio hslice hvia hslot hlen hnone))
  case malformed =>
    intro hbad
    exact counts_once (by decide) (congrArg done (State.submit_malformed hle hradio hslice via hbad))
  case badWrite => exact counts_once (by decide) (exec_submissionWindowBadWrite hle hradio hslice)
  case read =>
    intro s req b off size portal byte hb htarget
    rw [exec, execRcRead, State.readAt_registerBar hb, State.readSpace_submission req size htarget, done, State.answers]

end Sys2Proof.Machine
end

section
/-!
PROOFS. Snapshots of device time (R333): a read of a low word enters one in the requester's place of the table, a
read of the high word takes it out again.
-/
namespace Sys2Proof.Machine

/-! ### The two commands -/

theorem exec_timeNowLowRead (s : State) (req : Nat) (pps : Bool) :
    exec (.timeNowLowRead req pps) s = .next (s.lowSnap req pps) := rfl

theorem exec_timeNowHighRead (s : State) (req : Nat) (pps : Bool) :
    exec (.timeNowHighRead req pps) s = .next (s.highSnap req pps) := rfl

/-! ### The table of pending snapshots -/

/-- A requester's own place takes what is put there, and the snapshots of the others stay. -/
theorem snapshots_put (m : SMap (Option Nat)) (req : Nat) (v : Option Nat) :
    look none (put none m req v) req = v
      ∧ ∀ r, r ≠ req → look none (put none m req v) r = look none m r :=
  ⟨look_put_same none m req v, fun r hr => look_put_other none none m req r v hr⟩

/-! ### The statement -/

/-- Settles O10: a low read puts the current seconds in the requester's place and a high read puts none there, in the
table of the register that is read; the answers and the rest of the state are those of `lowSnap` and `highSnap`. -/
theorem timeSnapshots : Obligations.TimeSnapshots := by
  unfold Obligations.TimeSnapshots
  refine ⟨?nowLow, ?nowHigh, ?ppsLow, ?ppsHigh⟩ <;> intro s req
  case nowLow =>
    obtain ⟨hown, hothers⟩ := snapshots_put s.time.nowSnap req (some s.time.sec)
    exact ⟨_, exec_timeNowLowRead s req false, rfl, hown, hothers, rfl⟩
  case nowHigh =>
    obtain ⟨hown, hothers⟩ := snapshots_put s.time.nowSnap req none
    exact ⟨_, exec_timeNowHighRead s req false, rfl, hown, hothers, rfl⟩
  case ppsLow =>
    obtain ⟨hown, hothers⟩ := snapshots_put s.time.ppsSnap req (some (s.fld F.TIME_PPS_IN_seconds 0))
    exact ⟨_, exec_timeNowLowRead s req true, rfl, hown, hothers, rfl⟩
  case ppsHigh =>
    obtain ⟨hown, hothers⟩ := snapshots_put s.time.ppsSnap req none
    exact ⟨_, exec_timeNowHighRead s req true, rfl, hown, hothers, rfl⟩

end Sys2Proof.Machine
end

section
/-!
PROOFS. The rollback counter (R440): a message of a function changes nothing but the host interface, so that the
event a commit reports leaves the register file as the blown fuses left it.
-/
namespace Sys2Proof.Machine

/-! ### Messages change the host interface alone (R430, R431) -/

/-- Nothing but the host interface differs. -/
def onlyHost (s t : State) : Prop := t = { s with host := t.host }

/-- Issuing a message marks its vector's entry pending or sends it. -/
theorem onlyHost_issue_msix (s : State) (who fn v : Nat) : onlyHost s (s.issue who (.msix fn v)) := by
  by_cases hmasked : (s.msixEntry fn v).masked = true
  · rw [State.issue, if_pos hmasked]
    rfl
  · rw [State.issue, if_neg hmasked]
    rfl

/-- A message waits for no translation: it is held or issued. -/
theorem onlyHost_tryRequest_msix (s : State) {h : HeldReq} {fn v : Nat} (hmsix : h.req = .msix fn v) :
    onlyHost s (s.tryRequest h) := by
  have hpages : ¬ s.heldPages h ≠ [] := by simp [State.heldPages, hmsix]
  rw [State.tryRequest, if_neg hpages, hmsix]
  split
  · rfl
  split
  · rfl
  · exact onlyHost_issue_msix s h.who fn v

theorem onlyHost_request_msix (s : State) (who fn v : Nat) (flag : Option (Nat × Nat × Nat)) :
    onlyHost s (s.request who (.msix fn v) flag) := by
  rw [State.request, State.requestAs]
  split
  · rfl
  · exact onlyHost_tryRequest_msix s rfl

theorem onlyHost_message (s : State) (fn v : Nat) : onlyHost s (s.message fn v) := onlyHost_request_msix s _ fn v none

theorem onlyHost_deviceEvent (s : State) : onlyHost s s.deviceEvent := onlyHost_message s 0 6

theorem onlyHost.regs_eq {s t : State} (h : onlyHost s t) : t.regs = s.regs := by rw [h]

@[simp] theorem State.deviceEvent_regs (s : State) : s.deviceEvent.regs = s.regs := (onlyHost_deviceEvent s).regs_eq

/-! ### Statements about registers see the register file alone -/

theorem fldKept_congr {s t u : State} {f : Fld} {i : Nat} (hregs : u.regs = t.regs) (h : fldKept s t f i) :
    fldKept s u f i :=
  ⟨fun q j hq => (State.reg_congr hregs q j).trans (h.1 q j hq),
    fun g hg => (State.fld_congr hregs g i).trans (h.2 g hg)⟩

/-! ### The commit, case by case -/

/-- Before WAIT_CUT a commit is refused. -/
theorem State.svnCommit_refused {s : State} (hearly : s.bootState < 4) :
    s.svnCommit = s.setFld F.ONYX_SVN_commit_refused 0 1 := if_pos hearly

/-- From WAIT_CUT on, a running version that is not above the counter changes nothing. -/
theorem State.svnCommit_notAbove {s : State} (hboot : 4 ≤ s.bootState)
    (hv : s.fld F.DEV_STATUS_security_version 0 ≤ s.fld F.ONYX_SVN_counter 0) : s.svnCommit = s := by
  rw [State.svnCommit, if_neg (Nat.not_lt.mpr hboot), if_pos hv]

/-- From WAIT_CUT on, a running version above the counter is blown into it, and the event reported. -/
theorem State.svnCommit_above {s : State} (hboot : 4 ≤ s.bootState)
    (hv : s.fld F.ONYX_SVN_counter 0 < s.fld F.DEV_STATUS_security_version 0) :
    s.svnCommit = (s.setFld F.ONYX_SVN_counter 0 (s.fld F.DEV_STATUS_security_version 0)).deviceEvent := by
  rw [State.svnCommit, if_neg (Nat.not_lt.mpr hboot), if_neg (Nat.not_le.mpr hv)]

/-- R438: an image whose version is below the counter passes no verification, whatever check it fails first. -/
theorem State.verify_ne_zero_of_lt_counter {s : State} {b : Bytes} (len : Nat)
    (hlow : leAt b 0xC 1 < s.fld F.ONYX_SVN_counter 0) : (s.verify b len).1 ≠ 0 := by
  rw [State.verify, if_pos hlow]
  repeat' split
  all_goals decide

/-! ### The statement -/

/-- Settles O58: the three cases of a commit, where a version of at most 64 fits the counter's seven bits and the
event's message leaves the registers alone; an image below a counter of 64 falls to the version check or to one before
it. -/
theorem rollbackCounterCommits : Obligations.RollbackCounterCommits := by
  unfold Obligations.RollbackCounterCommits
  intro s
  have hcommit : exec .svnCommit s = .next s.svnCommit := rfl
  have hrunning (h : s.bootState = 4 ∨ s.bootState = 5) : 4 ≤ s.bootState := by omega
  refine ⟨?above, ?notAbove, ?refused, ?verify⟩
  case above =>
    intro hboot hlt hmax
    rw [hcommit, State.svnCommit_above (hrunning hboot) hlt]
    have hfits : s.fld F.DEV_STATUS_security_version 0 < 2 ^ F.ONYX_SVN_counter.width :=
      Nat.lt_of_le_of_lt hmax (by decide)
    refine ⟨_, rfl, ?_, fldKept_congr (State.deviceEvent_regs _) (fldKept_setFld _ _ _ _), ?_⟩
    · rw [State.fld_congr (State.deviceEvent_regs _), State.fld_setFld_same _ _ _ _ (by decide), Nat.mod_eq_of_lt hfits]
    · rw [onlyHost_deviceEvent]
      rfl
  case notAbove =>
    intro hboot hle
    rw [hcommit, State.svnCommit_notAbove (hrunning hboot) hle]
  case refused =>
    intro hearly
    rw [hcommit, State.svnCommit_refused hearly]
    exact ⟨_, rfl, rfl, State.fld_setFld_same _ _ _ _ (by decide), fldKept_setFld _ _ _ _⟩
  case verify =>
    intro hfull b len hlow
    exact State.verify_ne_zero_of_lt_counter len (Nat.lt_of_lt_of_eq hlow hfull.symm)

end Sys2Proof.Machine
end
